-- ==== Sys2Proof/Word.lean ====
section
/-! DEFINITION. The word types of the head and the plain containers the state is built from: 64-bit words
(R27, R498), bytes, a pair of per-side values (R13), sparse tables. -/

namespace Sys2Proof

/-- A 64-bit word: a general register (R23), a state-space register (R498), an instruction word (R27). -/
abbrev Word := BitVec 64

/-- One byte of a memory, a packet or a record. -/
abbrev Byte := BitVec 8

/-- A table with natural-number keys: pairs with strictly rising keys, no entry equal to the table's default. -/
abbrev Sparse (α : Type) := List (Nat × α)

/-- A value for each side of the pair (R13: side 0 and side 1). -/
structure Two (α : Type) where
  /-- the value of side 0 -/
  s0 : α
  /-- the value of side 1 -/
  s1 : α
deriving DecidableEq, Repr

/-- The value of side `i`; every number but 0 names side 1. -/
def Two.at {α : Type} (t : Two α) (i : Nat) : α := if i = 0 then t.s0 else t.s1

/-- The pair with side `i` replaced. -/
def Two.put {α : Type} (t : Two α) (i : Nat) (a : α) : Two α :=
  if i = 0 then { t with s0 := a } else { t with s1 := a }

/-- The two sides hold the same value. -/
def Two.both {α : Type} (a : α) : Two α := ⟨a, a⟩

end Sys2Proof
end

