-- ==== Sys2Proof/Packet.lean ====
section
/-! DEFINITION. What the commands of the head carry: instruction words without the fields their row fixes (Tables 2-2,
2-3), received frames and packets (Tables 3-1, 5-2, 5-4, 10-1, 12-3), what dies and checks report. -/

namespace Sys2Proof.Machine

/-! ## Operand types -/

/-- Format G of Table 2-3 without its major opcode, which the row fixes; `pois` says that the word as fetched
carries poison (R47 FETCH_POISON, Table 13-7), and `other` is an OP that no instruction has, where the word carries one in
place of the row's (R30: such a word raises ILLEGAL; the decoder gives it to NOP, log entry 8). -/
structure GWord where
  pois : Bool
  pn   : Bool
  ps   : BitVec 3
  rd   : BitVec 5
  ra   : BitVec 5
  rb   : BitVec 5
  fn   : BitVec 7
  imm  : BitVec 32
  other : Option (BitVec 6)
deriving DecidableEq, Repr

/-- Format W of Table 2-3 without its major opcode. `res` is bit [48]. -/
structure WWord where
  pois  : Bool
  pn    : Bool
  ps    : BitVec 3
  rd    : BitVec 5
  res   : Bool
  imm48 : BitVec 48
deriving DecidableEq, Repr

/-- Format V of Table 2-3 without its major opcode and verb code, which the row fixes; `other` is a VC that no verb has, where
the word carries one in place of the row's (R43: ILLEGAL; the decoder gives it to PUT, log entry 8). -/
structure VWord where
  pois : Bool
  pn   : Bool
  ps   : BitVec 3
  rd   : BitVec 5
  ra   : BitVec 5
  no   : BitVec 3
  w    : Bool
  imm  : BitVec 32
  other : Option (BitVec 8)
deriving DecidableEq, Repr

/-- The four tiers in the encoding of Table 2-1 (0 O, 1 I, 2 M, 3 F). -/
inductive Tier where
  | O | I | M | F
deriving DecidableEq, Repr

/-- Who makes a register write that has a row of its own: the tier and credential slot (255 for none), the
addressed side (R500), the queue of the command (none for SMBus, R418), the command's journal number and its
connection. -/
structure Caller where
  tier  : Tier
  slot  : Nat
  side  : Nat
  queue : Option Nat
  seq   : Nat
  conn  : Nat
deriving DecidableEq, Repr

/-- A frame as a port receives it: the time of its arrival (ns of head time), and its bytes from the destination MAC address to the frame
check sequence. -/
structure Rx where
  arr   : Nat
  frame : List Byte
deriving DecidableEq, Repr

/-- A frame with the parts that follow it. A packet's command gives its frame in parts: first up to the type header (R114), then the bytes of
the parts that the packet is named by, the last with all that is left; the frame received is all of them joined, wherever they are cut. -/
def Rx.join (r : Rx) (parts : List (List Byte)) : Rx := ⟨r.arr, r.frame ++ parts.flatten⟩

/-- What an ARP or Neighbor Discovery request asks: the link it came on, and the address asked for. -/
structure Asked where
  link : Nat
  addr : Nat
deriving DecidableEq, Repr

/-- What checks 1 to 4 of Table 5-5 find in the Ethernet, IP and UDP parts of a received frame (R109, R110). -/
structure FrameInfo where
  fcsOk     : Bool
  length    : Nat
  tags      : Nat
  etherType : Nat
  /-- IHL = 5 or no extension headers, not a fragment, header valid -/
  ipOk      : Bool
  /-- destination address: IPv6, or IPv4 as ::ffff:a.b.c.d -/
  dst       : Nat
  udpPort   : Nat
  udpSumOk  : Bool
  ver       : Nat
  lenOk     : Bool
  chkOk     : Bool
  resOk     : Bool
deriving DecidableEq, Repr

/-- A received CPT packet as its frame gives it: what the checks find, the base header of Table 5-2, the type header of Table 5-4, the
payload, its source and its time of arrival. -/
structure Pkt where
  frame  : FrameInfo
  arr    : Nat
  src    : Nat
  sport  : Nat
  dconn  : Nat
  psn    : Nat
  tsv    : Nat
  last   : Bool
  acknow : Bool
  retx   : Bool
  typ    : Nat
  head   : List Byte
  pay    : List Byte
deriving DecidableEq, Repr

/-- A submission entry (R54): four header words and the 96-byte inline area. -/
structure Entry where
  h0 : Word
  h1 : Word
  h2 : Word
  h3 : Word
  inl : List Byte
deriving DecidableEq, Repr

/-- A completion record (Table 3-3). -/
structure CRec where
  c0 : Word
  c1 : Word
  c2 : Word
  c3 : Word
deriving DecidableEq, Repr

/-- What a CPT packet carries after its base header, by its TYPE (Tables 5-3, 5-4). -/
inductive CptMsg where
  | write (key gen off : Nat) (bytes : List Byte) (last : Bool)
  /-- entries of 128 bytes -/
  | submit (queue slot : Nat) (entries : List (List Byte))
  | complete (queue qnext : Nat) (recs : List CRec)
  | ack (cum tse adly : Nat) (ranges : List (Nat × Nat))
  /-- CFLAGS as Table 5-4 gives them -/
  | connect (scon isn tse maxpay flags reason : Nat)
  | close (reason : Nat)
  | event (code detail : Nat) (arg : Word)
  | session (step : Nat) (payload : List Byte)
  | keepalive
deriving DecidableEq, Repr

/-- What a frame that a host port sends carries behind its MAC header and tag (R109 to R111): a CPT packet with its IP and UDP headers'
fields and its bytes from the base header to CHK; an ARP packet or Neighbor Advertisement for an address, sent unasked or as an answer;
an echo answer. Addresses are IPv6, or IPv4 as ::ffff:a.b.c.d. -/
inductive EthBody where
  | cpt (src dst dscp ttl : Nat) (df : Bool) (sport dport sum : Nat) (packet : List Byte)
  | arpNd (addr : Nat) (unasked : Bool)
  | echo (src dst : Nat) (data : List Byte)
deriving DecidableEq, Repr

/-- A frame to be sent: the link it must leave on, none where any will do; the VLAN of its 802.1Q tag; what it carries. -/
structure EthOut where
  link : Option Nat
  vlan : Option Nat
  body : EthBody
deriving DecidableEq, Repr

/-- What a pair-link frame brings with it beside its content: its SEQ and whether CHK holds (Table 10-1). -/
structure PlHead where
  seq   : Nat
  chkOk : Bool
deriving DecidableEq, Repr

/-- The step codes of a CONTROL frame (Table 10-2, type 0x06). -/
inductive CtlStep where
  /-- side exchange (R14) -/
  | side
  /-- group give-up (R218 step 5) -/
  | groupUp
  /-- a hand-off of the sender begins (R166 step 1) -/
  | handoffBegin
  /-- the sender has given up addresses and groups (R166 step 4) -/
  | handoffGiven
  /-- the sender, having restarted or reset, asks to rejoin (R273) -/
  | rejoin
  /-- the sender has re-mirrored this head (R281) -/
  | remirrored
  /-- the sender signals a head-fatal error (R268, R394) -/
  | fatal
  /-- the sender reports its live-set count for a spill (R292) -/
  | spillCount
deriving DecidableEq, Repr

/-- What an operation on a NAND die reports (Table 8-1: Read Status is the only source of readiness). -/
inductive DieStatus where
  | pass | fail
deriving DecidableEq, Repr

/-- What the decode flow of R222 delivered for one codeword. -/
inductive CwResult where
  /-- the hard decoder decoded it at the default offsets -/
  | hard
  /-- retry step `k` delivered it -/
  | retry (k : Nat)
  /-- a soft decode delivered it -/
  | soft
  /-- it is an erasure -/
  | erased
deriving DecidableEq, Repr

/-- An entry of the hot or cold index (Table 7-2). -/
structure IdxEntry where
  fp   : List Byte
  cref : Word
  clen : Nat
  llen : Nat
  v    : Bool
  c    : Bool
  full : Bool
  pool : Nat
  age  : Nat
deriving DecidableEq, Repr

/-- The status word of the TFE (Table 12-5). -/
structure TfeStatus where
  shk    : Bool
  winh   : Bool
  wfault : Bool
  badw   : Bool
  loaded : Bool
  wprot  : Bool
  fifo   : Nat
  tachA  : Nat
  tachB  : Nat
  tens   : Nat
deriving DecidableEq, Repr

/-- A SAMPLE frame (Table 12-3): 32 instants of 64 read samples, 8 samples of each servo element, the status. -/
structure SampleFrame where
  seq    : Nat
  chkOk  : Bool
  lenOk  : Bool
  /-- `samples[k][t]`: instant k, track t, 6-bit two's complement -/
  samples : List (List Int)
  servo0  : List Int
  servo1  : List Int
  status  : TfeStatus
deriving DecidableEq, Repr

/-- The parts a memory-check event names (R415: ECCSTAT m). -/
inductive ScrubResult where
  | clean | corrected | uncorrectable
deriving DecidableEq, Repr

/-- What the checks of the memory path show when a load meets its line (R394, R395, R400, R405). -/
inductive LdCheck where
  | none
  /-- L1 D data parity -/
  | parity
  /-- L1 D tag parity -/
  | tag
  /-- parity of a crossing -/
  | crossing
  /-- L1 I parity of the load's own instruction line -/
  | iparity
  /-- L2 corrected an error in way `w` -/
  | corrected (w : Nat)
  /-- L2 found an uncorrectable error -/
  | uncorrectable
deriving DecidableEq, Repr

/-- What a die answers at the initialisation of its port (R209, R210): Read ID bytes as in Table 8-2, and what its
parameter page gives: capacity in Gbit, data bytes of a page, planes, blocks, pages of a block, spare bytes of a page. -/
structure DieReport where
  die    : Nat
  id     : Nat
  gbit   : Nat
  page   : Nat
  planes : Nat
  blocks : Nat
  rows   : Nat
  spare  : Nat
deriving DecidableEq, Repr

/-- What the boot source delivered (R438, R459): whether it holds an image that passes its checks, and the image's
header fields. -/
structure BootImage where
  pass    : Bool
  slot    : Nat
  version : Nat
  secver  : Nat
  setfmt  : Nat
deriving DecidableEq, Repr

end Sys2Proof.Machine
end

