-- ==== Sys2Proof/Machine/CoreTypes.lean ====
section
/-! DEFINITION. State of the engines (R23, R387), the caches (R392-R403), checked memories (R404-R408), buffer pools
(R409-R413) and the event recorder (R445-R453), as plain records. -/

namespace Sys2Proof.Machine

/-! ## Statuses and traps -/

/-- The statuses of Table 3-7 (R74). -/
inductive Status where
  | ok | empty | shared | partially
  | abandoned | lengthShort | lengthMismatch | windowStale | poison | checkFail | outputFull
  | capacity | contractRefused | busyActivation | headLost
  | tier | invalid
deriving DecidableEq, Repr

/-- The value of a status (Table 3-7). -/
def Status.code : Status → Nat
  | .ok => 0x0000
  | .empty => 0x0001
  | .shared => 0x0002
  | .partially => 0x0003
  | .abandoned => 0x0010
  | .lengthShort => 0x0011
  | .lengthMismatch => 0x0012
  | .windowStale => 0x0013
  | .poison => 0x0014
  | .checkFail => 0x0015
  | .outputFull => 0x0016
  | .capacity => 0x0020
  | .contractRefused => 0x0021
  | .busyActivation => 0x0022
  | .headLost => 0x0023
  | .tier => 0x0030
  | .invalid => 0x0031

/-- The trap causes of Table 2-13 (R47). -/
inductive Trap where
  | fetchPoison | illegal | priv | budget | align | bounds | dataPoison | pool | soft
deriving DecidableEq, Repr

/-- The code of a trap cause (Table 2-13). -/
def Trap.code : Trap → Nat
  | .fetchPoison => 1
  | .illegal => 2
  | .priv => 3
  | .budget => 4
  | .align => 5
  | .bounds => 6
  | .dataPoison => 7
  | .pool => 8
  | .soft => 9

/-- The status with which a host program ends on a trap (Table 2-13, R48). -/
def Trap.status : Trap → Status
  | .fetchPoison => .poison
  | .priv => .tier
  | .dataPoison => .poison
  | _ => .invalid

/-! ## Threads -/

/-- What a verb has answered (R41, R42, R60): its status, its result word, its AUX, and whether a poison map was
written (PMAP of Table 3-3). -/
structure VRes where
  status : Status
  result : Word
  aux    : Nat
  pmap   : Bool
deriving DecidableEq, Repr

/-- A verb a thread has outstanding (R44, R45): its number among all verbs the head has issued, its code, its result
register, and its answer once that is known and (`taken`) once the thread has received it. -/
structure OutVerb where
  vid   : Nat
  vc    : Nat
  rd    : BitVec 5
  ans   : Option VRes
  taken : Bool
deriving DecidableEq, Repr

/-- Whether a thread issues (R36, R39, R44, R49, Table 2-10). -/
inductive Run where
  /-- no program: never started, or the program has ended -/
  | free
  /-- ready to issue the instruction at PC -/
  | running
  /-- waits for the verb numbered `vid`, issued with W = 1 (R44) -/
  | waitVerb (vid : Nat)
  /-- executes WAITV with verbs outstanding (R36) -/
  | waitAll
  /-- executes END, or has passed its last word, with verbs outstanding; `res` is the result word (R36, R37) -/
  | ending (res : Word)
  /-- trapped below tier F with verbs outstanding (R48) -/
  | trapped (cause : Trap)
  /-- stopped by IDLE until a signal bit is set (Table 2-10) -/
  | idle
  /-- stopped by HALT or by a double trap until reset (R49, Table 2-10) -/
  | halted
deriving DecidableEq, Repr

/-- The thread state of Table 2-1 and R49, with what the head keeps beside it: the run state, the outstanding verbs
in issue order, the signal bits (R39), the program's length and place (R37, R388), the command it runs. TVEC, TPC
and TADDR are X fields: `xw` holds a bit for each that has been written. -/
structure Thread where
  run    : Run
  tier   : Tier
  pc     : Word
  g      : Sparse Word
  p      : BitVec 8
  vs     : Nat
  tvec   : Word
  tpc    : Word
  taddr  : Word
  xw     : BitVec 3
  tcause : Word
  icount : Nat
  charge : Word
  sigs   : Word
  verbs  : List OutVerb
  /-- the program was copied into the thread's program buffer (BUF = 1): R37 and R38 bound it -/
  buf    : Bool
  len    : Nat
  paddr  : Nat
  /-- side and journal number of the command, for a host work program -/
  cmd    : Option (Nat × Nat)
  /-- the private area of tiers M, I and O (R34) -/
  priv   : Sparse Byte
deriving DecidableEq, Repr

/-! ## Caches -/

/-- A line of a data cache: line number (address div 64), way, dirty bit, 64 bytes, poison bits of its 8 words. -/
structure CLine where
  line  : Nat
  way   : Nat
  dirty : Bool
  data  : List Byte
  pois  : BitVec 8
deriving DecidableEq, Repr

/-- The L1 caches of one engine: lines most recently used first, the eviction buffer of 8 lines (R399), the merging
buffer of write-through mode (R397), the streaming detector (line of the last store, consecutive count), the lines
L1 I holds, and whether each cache was wholly invalidated since it was last not enabled (R396). -/
structure L1 where
  lines  : List CLine
  evict  : List CLine
  wt     : List CLine
  sline  : Nat
  scount : Nat
  iline  : List Nat
  ivi    : Bool
  ivd    : Bool
deriving DecidableEq, Repr

/-- An L2 cache: lines, the eviction buffer of 32 lines, corrections per way in the current window with the window's
start, uncorrectable errors (R400, Table 13-11), and whether it was invalidated since last not enabled. -/
structure L2 where
  lines : List CLine
  evict : List CLine
  werr  : Sparse Nat
  wstart : Sparse Nat
  unc   : Nat
  iv    : Bool
deriving DecidableEq, Repr

/-! ## Buffer pools -/

/-- One buffer pool's allocations (R410, R411): buffer index with the charge (CLS, ID) it was given to; the level of
R413; the count of bad frees. -/
structure BPool where
  held  : List (Nat × (Nat × Nat))
  level : Nat
  dfree : Nat
deriving DecidableEq, Repr

/-! ## The event recorder -/

/-- An event record (Table 15-1) without its CHK, which is computed from the rest (R447). -/
structure Event where
  seq  : Nat
  time : Nat
  last : Nat
  code : Nat
  sev  : Nat
  tset : Bool
  slot : Nat
  rpt  : Nat
  srck : Nat
  srci : Nat
  side : Nat
  boot : Nat
  arg0 : Nat
  arg1 : Nat
  arg2 : Nat
deriving DecidableEq, Repr

/-- The recorder (R445, R446, R451): the PSTORE ring by slot, the newest number, FLOOR, DROP, the MI buffer before
PSTORE is ready, the volatile ring with VOL, the last number of the block reserved, and whether the ring can be
written. -/
structure Recorder where
  ring   : Sparse Event
  newest : Nat
  floor  : Nat
  drop   : Nat
  buffer : List Event
  vol    : Bool
  volRing : List Event
  volNext : Nat
  resEnd : Nat
  /-- numbers of the unreserved series issued since the volatile ring came into use; FLOOR as PSTORE holds it meanwhile -/
  volK   : Nat
  pfloor : Nat
  ready  : Bool
deriving DecidableEq, Repr

end Sys2Proof.Machine
end

