-- ==== Sys2Proof/Machine/MediaTypes.lean ====
section
/-! DEFINITION. State of data reduction (R171-R206), NAND channels and flash translation (R207-R244), stripes and
rebuild (R245-R263), as plain records. -/

namespace Sys2Proof.Machine

/-! ## Reduction -/

/-- Who reads flash: a verb, a comparison (R188), a partial fill (R252), a relocation (R236, R261), the job of a tape port (R381, R382), a
replication slot (R310), a unit destaged afresh (R230). -/
inductive Reader where
  | verb (vid : Nat)
  | compare (ext chunk : Nat)
  | fill (band : Nat)
  | copy (side idx : Nat)
  | tape (port : Nat)
  | rep (slot : Nat)
  | afresh (vol off : Nat)
deriving DecidableEq, Repr

/-- A gear table (Table 7-1). -/
structure Gear where
  version : Nat
  minlen  : Nat
  normlen : Nat
  maxlen  : Nat
  masks   : Word
  maskl   : Word
  gear    : List Word
deriving DecidableEq, Repr

/-- A static Huffman table (Table 7-5). -/
structure Huff where
  version : Nat
  ll : List Nat
  dl : List Nat
deriving DecidableEq, Repr

/-- A gather slot (Table 7-7). HIST is kept as the chunk bytes before NEXTIN, newest first. -/
structure GSlot where
  live   : Bool
  hdr    : Bool
  mode   : Nat
  tslot  : Nat
  dir    : Nat
  frame  : Nat
  nextin : Nat
  accn   : Nat
  acc    : Nat
  plen   : Nat
  pdist  : Nat
  crcs   : Nat
  outn   : Nat
  blkin  : Nat
  inbit  : Nat
  adler  : Nat
  crc32  : Nat
  hist   : List Byte
  ll     : List Nat
  dl     : List Nat
  /-- framing bytes that still have to be placed -/
  q      : List Byte
  /-- framing: 0 header, 1 body, 2 trailer, 3 over -/
  phase  : Nat
  /-- the current DEFLATE block has BFINAL = 1 -/
  fin    : Bool
deriving DecidableEq, Repr

/-- Where a chunk of a destage extent stands (R172, R185, R188, R236). -/
inductive ChSt where
  /-- it has not been looked up yet -/
  | cut
  /-- its fingerprint is looked up in the cold index -/
  | looking
  /-- a hit whose stored chunk is read for comparison (R188) -/
  | verifying (cref : Word)
  /-- a reference was granted -/
  | dup (cref : Word)
  /-- unique: it waits for a gather slot -/
  | unique
  /-- it is compressed in a gather slot (R172) -/
  | packing (slot : Nat)
  /-- its container is whole and waits for a band -/
  | packed
  /-- its container waits to be put on flash -/
  | staged (chunk : Nat)
  /-- its container is on flash -/
  | stored (chunk : Nat)
deriving DecidableEq, Repr

/-- A chunk of an extent (R175-R195): place in the volume, its bytes as they were read, fingerprint, its poisoned bytes as ranges of the
chunk, its container, or the payload of it that has been written so far. -/
structure Chunk where
  off  : Nat
  len  : Nat
  data : List Byte
  fp   : List Byte
  bad  : List (Nat × Nat)
  cont : List Byte
  st   : ChSt
deriving DecidableEq, Repr

/-- The chunk carries poison (R174). -/
def Chunk.pois (c : Chunk) : Bool := !c.bad.isEmpty

/-- A destage extent (R171); `cfg` is DRCFG of its pool as it stood when chunking started (R206), `con` says that a write under a contract
is among those it destages. -/
structure Extent where
  id     : Nat
  vol    : Nat
  off    : Nat
  len    : Nat
  epoch  : Nat
  side   : Nat
  cfg    : Nat
  con    : Bool
  chunks : List Chunk
  since  : Nat
  /-- commands whose writes it destages -/
  srcs   : List (Nat × Nat)
  /-- the delta of its last map entry: its lehr pages are released once that is in both PSTOREs -/
  tag    : Option (Option Nat)
deriving DecidableEq, Repr

/-- An index entry in its place: bucket, way (Table 7-2). -/
structure HotWay where
  bucket : Nat
  way    : Nat
  e      : IdxEntry
deriving DecidableEq, Repr

/-- A page of a cold index (R184): domain, page number, entries by entry number. -/
structure ColdPage where
  pool : Nat
  side : Nat
  page : Nat
  ents : Sparse IdxEntry
deriving DecidableEq, Repr

/-- Who asks a compression or decompression unit (R202): a unit verb, a chunk of an extent that is compressed, a reader whose containers
have come from flash. -/
inductive UWho where
  | verb (vid : Nat)
  | pack (ext chunk : Nat)
  | unpack (r : Reader)
deriving DecidableEq, Repr

/-- A request at a compression or decompression unit (R201, R202): whose it is, gather slot (65,536 for none), priority, the bytes it is
to deliver where a reader asks, and the bytes written and consumed in the spans it has had. -/
structure UReq where
  who  : UWho
  slot : Nat
  size : Nat
  prio : Nat
  wr   : Nat
  rd   : Nat
deriving DecidableEq, Repr

/-- A compression or decompression unit (R201, R202): the request it holds, the priority-0 spans taken in a row. -/
structure DUnit where
  cur  : Option UReq
  run0 : Nat
deriving DecidableEq, Repr

/-! ## Flash -/

/-- A die family record (Table 8-2). `steps` holds 15 signed offsets with SOFT and LAST per retry step. -/
structure Family where
  id      : Nat
  mask    : Nat
  planes  : Nat
  levels  : Nat
  nstep   : Nat
  softd   : Nat
  tslot   : Nat
  feat    : Nat
  pelim   : Nat
  trTyp   : Nat
  trMax   : Nat
  tprogTyp : Nat
  tprogMax : Nat
  tbersTyp : Nat
  tbersMax : Nat
  poll    : Nat
  mode    : Nat
  rate    : Nat
  flags   : BitVec 8
  susp    : Nat
  resume  : Nat
  slcpfx  : Nat
  steps   : List (List Int × Bool × Bool)
deriving DecidableEq, Repr

/-- An LDPC selection record (Table 8-6). -/
structure LdpcSel where
  spmin : Nat
  spmax : Nat
  code  : Nat
  hiter : Nat
  siter : Nat
deriving DecidableEq, Repr

/-- DIE states (Table 8-19). -/
inductive DState where
  | absent | inService | failed | unsupported
deriving DecidableEq, Repr

/-- A die of the inventory (R209, R210): Read ID, family, geometry read from its parameter page, state, erase counts
of its blocks (0 unlisted), blocks free, blocks retired, consecutive timeouts (R260), default offsets changed. -/
structure Die where
  num    : Nat
  id     : Nat
  fam    : Nat
  planes : Nat
  blocks : Nat
  rows   : Nat
  spare  : Nat
  state  : DState
  ec     : Sparse Nat
  free   : List Nat
  bad    : List Nat
  touts  : Nat
  /-- an erase of it is suspended (R218, R293) -/
  susp   : Bool
deriving DecidableEq, Repr

/-- An operation of a die: the program of a band's row, the erase of a block (for a GC slot, or for no slot), the program of a position of a
spill set, the read of a member's page for a band, stripe and position, a program that nobody awaits any more (R256), and the erase that
another head left interrupted (R219). -/
inductive NOp where
  | program (die band row : Nat)
  | erase (die block : Nat) (gc : Option (Nat × Nat))
  | spill (die pos : Nat)
  | read (die block row band stripe pos : Nat)
  | late (die : Nat)
deriving DecidableEq, Repr

/-- The die of an operation. -/
def NOp.die : NOp → Nat
  | .program d _ _ => d
  | .erase d _ _ => d
  | .spill d _ => d
  | .read d _ _ _ _ _ => d
  | .late d => d

/-- A codeword that a reader wants (R222, R259): its place; the positions whose codeword is an erasure for it; the positions whose read
it awaits; whether it is beyond the reach of parity. It has come where it awaits nothing. -/
structure Want where
  who    : Reader
  band   : Nat
  stripe : Nat
  pos    : Nat
  cw     : Nat
  out    : List Nat
  wait   : List Nat
  lost   : Bool
deriving DecidableEq, Repr

/-- A codeword as it stands on a die (R220): 4,096 user bytes, encrypted where the pool is, 16 bytes of metadata, the bytes of its LDPC
code. -/
structure Codeword where
  user : List Byte
  info : List Byte
  code : List Byte
deriving DecidableEq, Repr

/-- An operation on a NAND die as its port shows it (Table 8-1). A program without codewords is a blank program (R250). -/
inductive NandOp where
  /-- FFh -/
  | reset
  /-- 90h -/
  | readId
  /-- ECh -/
  | readParams
  /-- EFh: the address and the four bytes -/
  | setFeature (addr : Nat) (v : List Byte)
  /-- F9h, D9h, training -/
  | zqLong
  | zqShort
  | train
  /-- E1h -/
  | select
  /-- 70h -/
  | status
  | read (block row : Nat)
  | program (block row : Nat) (data : List Codeword)
  | erase (block : Nat)
  /-- a spill page (R291): the position of the set -/
  | spill (pos : Nat)
  /-- the vendor's commands SUSP and RESUME -/
  | suspend (code : Nat)
  | resume (code : Nat)
deriving DecidableEq, Repr

/-- A tandem group (R213-R219, R243): owned and driven by this head, WP_L level, parked idle, the dies of it still to be resynchronised,
ports in a data burst since a time, the time of their last pause, windows that wait (each its slots' types and its ports), the time of its
last operation. -/
structure Group where
  own    : Bool
  wp     : Bool
  idle   : Bool
  resync : List Nat
  queue  : List (List Bool × BitVec 4)
  bursts : List (Nat × Nat)
  pauses : List (Nat × Nat)
  lastOp : Nat
deriving DecidableEq, Repr

/-- A pool (R225, R245): exists while listed. `built` locks POOLGEO, `key` is its wrapped pool key with its nonce (R435), `plain` the key
as it is loaded in the ports, `debit` is what debits took from the GC spare of each side (R241), `worn` the WORN state. -/
structure Pool where
  num    : Nat
  enc    : Bool
  w      : Nat
  p      : Nat
  cidxk  : Nat
  built  : Bool
  key    : Option (List Byte)
  plain  : Option (List Byte)
  debit  : Two Nat
  worn   : Two Bool
  deleting : Bool
deriving DecidableEq, Repr

/-- Band classes (R234). -/
inductive BClass where
  | data | gc | metadata | spill | boot
deriving DecidableEq, Repr

/-- A stripe of a band: the ROW of the current unit of each position (R251), the used bytes of its data. -/
structure Stripe where
  n    : Nat
  rows : Sparse Nat
  used : Nat
deriving DecidableEq, Repr

/-- A fill recorded (Table 9-2). -/
structure Fill where
  stripe : Nat
  row    : Nat
  mask   : Nat
deriving DecidableEq, Repr

/-- A page of the metadata bands (R232, R233, R305): of a volume a map page of 512 coarse entries, a fine block, a recipe page, a page of
its epoch map; of a dedupe domain a page of the chunk table or of the cold index. -/
inductive MPage where
  | map (vol n : Nat)
  | fine (vol n : Nat)
  | recipe (vol n : Nat)
  | kept (vol n : Nat)
  | chunks (pool n : Nat)
  | cold (pool n : Nat)
deriving DecidableEq, Repr

/-- What stands in a band: a chunk's container, a metadata page. -/
inductive Item where
  | chunk (c : Nat)
  | page (p : MPage)
deriving DecidableEq, Repr

/-- Bytes that wait to be placed; `bad` are the ranges of them that are poison (R174, R263). -/
structure Staged where
  item  : Item
  bytes : List Byte
  bad   : List (Nat × Nat)
deriving DecidableEq, Repr

/-- A piece of an item on flash: stripe, byte offset in the stripe's data, its bytes, the ranges of them that are poison, and whether a
structure still names it. The pieces of an item follow one another in its band. -/
structure Placed where
  stripe : Nat
  off    : Nat
  bytes  : List Byte
  item   : Item
  bad    : List (Nat × Nat)
  live   : Bool
deriving DecidableEq, Repr

/-- How far a fill in progress has come (R252): it reads the old data and parity, its WRITING record is on its way to both PSTOREs, its
row is programmed, its last record (DONE, or DISCARD) is on its way. -/
inductive FillSt where
  | reading
  | writing (tag : Option Nat)
  | programming
  | ending (tag : Option Nat) (ok : Bool)
deriving DecidableEq, Repr

/-- A fill in progress (R250-R252): its entry of the summary, WSEQ, state, member dies whose program has not ended,
whether one failed, what it places, whether it is a full fill, whether it writes the band summary. -/
structure FillOp where
  fill    : Fill
  wseq    : Nat
  st      : FillSt
  left    : List Nat
  failed  : Bool
  placed  : List Placed
  full    : Bool
  summary : Bool
deriving DecidableEq, Repr

/-- A band (R234, R245, R254). Members are (die, block) by position. `order` is the order of closing; `lost` the
positions lost; `refresh` schedules it (R223); `rebuild` makes it wait for rebuild (R260). `stage` holds what is to be
placed, `filling` the fill in progress. -/
structure Band where
  num     : Nat
  side    : Nat
  pool    : Nat
  cls     : BClass
  members : List (Nat × Nat)
  w       : Nat
  p       : Nat
  planes  : Nat
  rows    : Nat
  isOpen  : Bool
  closed  : Bool
  order   : Nat
  stripes : List Stripe
  fills   : List Fill
  wseq    : Nat
  cells   : List Placed
  lost    : List Nat
  refresh : Bool
  rebuild : Bool
  stage   : List Staged
  filling : Option FillOp
deriving DecidableEq, Repr

/-- A chunk-table entry of a dedupe domain (Table 8-9). -/
structure ChunkEnt where
  pool  : Nat
  side  : Nat
  chunk : Nat
  faddr : Nat
  refs  : Nat
  clen  : Nat
  llen  : Nat
  fp    : List Byte
deriving DecidableEq, Repr

/-- States of a GC slot (Table 8-11); a slot not listed is free. In `read` its sources are read, in `copy` they stand in line for the
destination, `moved` is COPY with every tagged delta written, `map` the MAP record written; their tags tell when those are in both
PSTOREs. -/
inductive GState where
  | read
  | copy
  | moved (tag : Option Nat)
  | map (tag : Option Nat)
  | erase
  | done
deriving DecidableEq, Repr

/-- A GC slot (R236): side, number, victim and destination, state, member erases not yet ended, why it runs
(0 ordinary, 1 refresh, 2 wear levelling, 3 rebuild). -/
structure GcSlot where
  side   : Nat
  idx    : Nat
  victim : Nat
  dest   : Option Nat
  st     : GState
  left   : List (Nat × Nat)
  why    : Nat
deriving DecidableEq, Repr

/-- A delta record (Table 8-10). -/
structure Delta where
  typ  : Nat
  side : Nat
  gcs  : Nat
  key  : Nat
  val  : Nat
deriving DecidableEq, Repr

/-- A stripe-journal record (Table 9-4): 1 WRITING, 2 DONE, 3 DISCARD. -/
structure SJRec where
  side   : Nat
  band   : Nat
  stripe : Nat
  row    : Nat
  st     : Nat
  mask   : Nat
  wseq   : Nat
deriving DecidableEq, Repr

/-- A DROP whose delta pair is not retired (R238). -/
structure DropRec where
  side : Nat
  seq  : Nat
  vol  : Nat
  off  : Nat
  len  : Nat
deriving DecidableEq, Repr

end Sys2Proof.Machine
end

