-- ==== Sys2Proof/Machine/HostTypes.lean ====
section
/-! DEFINITION. State of queues, commands and journals (R51-R82), contracts (R84-R103), CPT connections and windows
(R109-R146), volumes, epochs and snapshots (R64, R302-R308), the lehr, the pair link, the spill and replication
(R275-R311), as plain records. -/

namespace Sys2Proof.Machine

/-! ## The journal (R76-R78) -/

/-- The states of a journal record (Table 3-8). -/
inductive JState where
  | accepted | committed | completed | failed | abandoned
deriving DecidableEq, Repr

/-- A journal record (Table 3-8) without its CHK, which is computed from the rest. -/
structure JRec where
  seq      : Nat
  queue    : Nat
  tag      : Nat
  stream   : Nat
  cls      : Nat
  state    : JState
  result   : Word
  status   : Nat
  contract : Nat
  con      : Bool
  ord      : Bool
  origin   : Nat
deriving DecidableEq, Repr

/-- One side's journal: the next number, the ring by slot, the held table with its records in the order in which
they were moved (R78), each final one with the order in which it became final, and the newest number ever final. -/
structure Journal where
  next : Nat
  ring : Sparse JRec
  held : List (JRec × Option Nat)
  finals : Nat
deriving DecidableEq, Repr

/-! ## Commands and host verbs -/

/-- One entry of a verb log (R163). -/
structure LogEntry where
  result : Word
  status : Status
  vc     : Nat
  aux    : Nat
deriving DecidableEq, Repr

/-- Where a command stands on its way through the journal (R77, R149, R151, R61): a number beside a written record
is the mirror frame whose acknowledgement puts it in both PSTOREs (none while the head needs only its own). -/
inductive Phase where
  | accepted
  /-- the COMMITTED record is written -/
  | committing (tag : Option Nat)
  | committed
  /-- the final record is written -/
  | finalising (tag : Option Nat)
  /-- the final state is in both PSTOREs -/
  | final
deriving DecidableEq, Repr

/-- A command (R51) from its acceptance until its completion record is posted, dropped or suppressed. -/
structure Cmd where
  side     : Nat
  seq      : Nat
  origin   : Nat
  queue    : Nat
  tag      : Nat
  stream   : Nat
  ord      : Bool
  con      : Bool
  quiet    : Bool
  contract : Nat
  cred     : Nat
  /-- the head's number of the connection its record goes to (R61, R122) -/
  conn     : Nat
  cls      : Nat
  prog     : List Word
  inl      : List Byte
  /-- g1 to g4 of a fired program (R143) -/
  regs     : List Word
  /-- the pages of the entry image and the verb log (R163) -/
  pages    : List Nat
  thread   : Option Nat
  ended    : Bool
  phase    : Phase
  /-- passed its commit point before its final state (R63) -/
  passed   : Bool
  log      : List LogEntry
  /-- logged verbs still to be answered on a replay (R164) -/
  replay   : List LogEntry
  vs       : Nat
  result   : Word
  aux      : Nat
  pmap     : Bool
  tko      : Bool
  /-- time of acceptance, and bound start once fixed (R100) -/
  accAt    : Nat
  bound    : Option Nat
  /-- conforming so far (R99), and the allowance applied (R103) -/
  conform  : Bool
  allow    : Option Nat
  /-- no completion record is to be posted (R75) -/
  mute     : Bool
  /-- commands of the queue that were not final when this one was accepted (R153): sequence, stream or none, and since when
  each is durable or final (R100) -/
  cover    : List (Nat × Option Nat × Option Nat)
  /-- MARK words of queue scope and of stream scope in the program, and MARKs of each that have passed (R153) -/
  markQ    : Nat
  markS    : Nat
  marksQ   : Nat
  marksS   : Nat
  /-- windows the command has named as a source or was fired by (R139): (side, index, generation) -/
  srcs     : List (Nat × Nat × Nat)
  /-- the part of F that R97 returns has been returned -/
  returned : Bool
  /-- verbs that its program has issued in this run -/
  issued   : Nat
  /-- a verb of it that has its answer passed its own commit point (R63) -/
  cp       : Bool
  /-- a write took it past its commit point (R279) -/
  wrote    : Bool
  /-- it is re-run (R164, R162) -/
  again    : Bool
  /-- its entry image is not back yet (R296): it does not start -/
  await    : Bool
deriving DecidableEq, Repr

/-- A source of bytes: inline data, or a generation of a window by its page list. -/
inductive Src where
  | inl (bytes : List Byte)
  | win (key : Nat) (gen : Nat) (woff : Nat)
deriving DecidableEq, Repr

/-- A write on its way (R69-R72, R64, R65): volume, offset (fixed at once for PUT, at the commit point for PUTA),
length, source, atomic. -/
structure PutOp where
  vol     : Nat
  off     : Option Nat
  len     : Nat
  src     : Src
  atom    : Bool
  append  : Bool
  /-- the bytes, once the write has passed its commit point, with the lehr pages that hold them -/
  bytes   : List Byte
  pages   : List Nat
  /-- ranges of a DROP that passed its commit point after this write (R238) -/
  cuts    : List (Nat × Nat)
  /-- ranges within the write whose source poison met after the commit point (R168) -/
  pois    : List (Nat × Nat)
deriving DecidableEq, Repr

/-- What an issued verb still waits for. -/
inductive Await where
  /-- nothing: its answer is known -/
  | nothing
  /-- a write that has not passed its commit point -/
  | put (p : PutOp)
  /-- a verb of code E or D that acts when its command may pass its commit point -/
  | effect
  /-- acknowledgement of WRITE packets: (connection, PSN) of each (R144) -/
  | deliver (l : List (Nat × Nat))
  /-- the QRESET or RESET of queue (side, q) (R75) -/
  | qreset (side q : Nat)
  /-- the drain of a revoked window (R140) -/
  | revoke (side idx : Nat)
  /-- the end of a tape job of a port (R381, R382) -/
  | tape (port : Nat)
  /-- the outstanding commands of a stopped replication slot (R311) -/
  | repStop (slot : Nat)
  /-- the decision of the head that holds the admission ledger (R92) -/
  | ledger
  /-- the end of a hand-off activation (R440) -/
  | activation
  /-- codewords from flash for a GET (R222), which have been decompressed or need not be; the decompression unit (R202) -/
  | reads (unpacked : Bool)
  | unpack
  /-- the end of a volume's deletion (R226), of a pool's (R225) -/
  | volume (v : Nat)
  | pool (p : Nat)
  /-- a staged image in the peer's slot too (R439) -/
  | image
  /-- an operation of a unit that takes events of its own: NAND operations, the tape formatter -/
  | unit
deriving DecidableEq, Repr

/-- A host or unit verb issued and not yet forgotten: its number, code, thread, command (none for firmware), operands
and immediate, the answer once given, the mirror frame of the record of its effect, what it awaits, whether its own
condition of Table 3-4 holds (`past`), whether its code is C (no commit point before it completes), a write past its
commit point whose bytes move into the volume with the command's final state (R155), and the answer prepared for it. -/
structure HVerb where
  vid  : Nat
  vc   : Nat
  t    : Nat
  cmd  : Option (Nat × Nat)
  ops  : List Word
  imm  : Nat
  ans  : Option VRes
  tag  : Option Nat
  aw   : Await
  past : Bool
  codeC : Bool
  op   : Option PutOp
  res  : VRes
  /-- how many verbs its program had issued before it -/
  k    : Nat
deriving DecidableEq, Repr

/-! ## Queues (R52, R57, R80, R120) -/

/-- One queue of one side: QNEXT, the filled slots (slot number modulo 2^32, entry, connection), the attached
connection, its doze state, a QRESET in progress (`fence` taken), counts of R75, the QTRAPS count, slot-range events
already sent (connections), and whether the value of QNEXT was last carried by a COMPLETE (R122). -/
structure Queue where
  qnext  : Nat
  slots  : List (Nat × (Entry × Nat))
  conn   : Option Nat
  doze   : Nat
  rst    : Bool
  fence  : Bool
  abandN : Nat
  doneN  : Nat
  traps  : Nat
  srEv   : List Nat
  said   : Nat
  idle   : Bool
deriving DecidableEq, Repr

/-! ## Contracts (R84-R103) -/

/-- Contract states (Table 4-10). -/
inductive CState where
  | opened | drained | closing
deriving DecidableEq, Repr

/-- A contract of the ledger: descriptor, queue, state, loads and reservations as computed at admission, remaining
reservation, bucket level, the tokens of the epoch, counters, the unbroken over-rate run; the writes metered and the returns made for
commands that are not final, so that a re-run does neither again (R97, R99); raw bytes that its data has taken of its space. -/
structure Contract where
  resv   : Nat
  rate   : Nat
  frame  : Nat
  bound  : Nat
  burst  : Nat
  volume : Nat
  tclass : Nat
  side   : Nat
  queue  : Nat
  state  : CState
  loads  : List Nat
  space  : Nat
  lehr   : Nat
  slots  : Nat
  rem    : Nat
  level  : Nat
  tokens : List Nat
  overs   : Nat
  allow  : Nat
  miss   : Nat
  overRun : Bool
  met     : List ((Nat × Nat × Nat) × Bool)
  back    : List (Nat × Nat)
  used    : Nat
deriving DecidableEq, Repr

/-- A class record of the cost table (Table 4-3). -/
structure CostClass where
  vc   : Nat
  geo  : Nat
  fix  : List Nat
  perg : List Nat
deriving DecidableEq, Repr

/-- The cost table in force (R89, R90). -/
structure CostTable where
  version : Nat
  caps    : List Nat
  classes : List CostClass
deriving DecidableEq, Repr

/-! ## CPT (R109-R146) -/

/-- The states of a head connection (Table 5-7); a CLOSED one has no context. -/
inductive CnState where
  | opening | opened | draining
deriving DecidableEq, Repr

/-- A reliable packet of the head that is not acknowledged (R126): PSN, times of first and last sending, its path, what it
carries, and whether it has been sent at all: one past the limit of R127 waits. -/
structure TxPkt where
  psn   : Nat
  first : Nat
  sent  : Nat
  path  : Nat
  msg   : CptMsg
  out   : Bool
deriving DecidableEq, Repr

/-- A WRITE packet held as last-flag (R137) or stored for a strict window (R138). -/
structure HeldWrite where
  psn   : Nat
  key   : Nat
  gen   : Nat
  off   : Nat
  bytes : List Byte
  last  : Bool
deriving DecidableEq, Repr

/-- The variables of the rate law (R129); `rtts` holds the (time, round trip) samples that can still be the least of the
last 10 s, oldest first, so that the first of them is the law's base. -/
structure Rate where
  rate  : Nat
  rtts  : List (Nat × Nat)
  srtt  : Nat
  qf    : Nat
  acked : Nat
  step  : Nat
deriving DecidableEq, Repr

/-- A connection of the head. `side` is the side of the address it uses, `addr` the far end's address; `num` its own number,
`far` the far end's SCONN, `isn` and `isnFar` the two ends' ISN; `dport` the UDP port that its packets go to, 0 for CPTCFG.UDPPORT (R109, R145);
`once` the one-shot events already sent, by a code and an argument (R118, R120, R121, R136); `firedAt` when its last-flag packet last
fired an entry under contract, plus 1 (R119). -/
structure Conn where
  num    : Nat
  side   : Nat
  addr   : Nat
  far    : Nat
  isn    : Nat
  isnFar : Nat
  dport  : Nat
  state  : CnState
  init   : Bool
  maxpay : Nat
  tclass : Nat
  evsub  : Bool
  /-- the credential slot of its session (R422) -/
  slot   : Option Nat
  txNext : Nat
  unacked : List TxPkt
  cum    : Nat
  recv   : List Nat
  /-- reliable packets since the last ACK, the time of the first of them, TSV, arrival and source port of the newest -/
  ackCnt : Nat
  ackAt  : Nat
  newest : Nat × Nat × Nat
  rate   : Rate
  held   : List HeldWrite
  strict : List HeldWrite
  once   : List (Nat × Nat)
  openAt : Nat
  lastRx : Nat
  lastTx : Nat
  progAt : Nat
  tries  : Nat
  closeWith : Nat
  firedAt : Nat
deriving DecidableEq, Repr

/-- An armed entry (R67, R143). -/
structure Armed where
  entry   : Entry
  ext     : List Word
  persist : Bool
  fired   : Nat
  /-- the generation that fired it last -/
  seen    : Option Nat
deriving DecidableEq, Repr

/-- The states of an inbound window (Table 5-11). -/
inductive WState where
  | opened | sealed | revoking
deriving DecidableEq, Repr

/-- A generation of a window whose memory still stays with commands (R139, R140). -/
structure OldGen where
  gen   : Nat
  pages : List Nat
deriving DecidableEq, Repr

/-- A window (R133, R134): side and index, salt, generation, size, attributes, owner slot, connection of an outbound
one, state, its memory as page numbers in order, the placed ranges (offset, bytes) of the current generation, the
message end, the time its last-flag packet was placed, the generation retired by WINDOW.REVOKE, the armed entry, the
commands that name or were fired by the sealed generation (R139), and whether it waits for free lehr to advance. -/
structure Window where
  side    : Nat
  idx     : Nat
  salt    : Nat
  gen     : Nat
  size    : Nat
  out     : Bool
  strict  : Bool
  recycle : Bool
  unmir   : Bool
  rgen    : Nat
  rkey    : Nat
  slot    : Nat
  conn    : Nat
  state   : WState
  pages   : List Nat
  placed  : List (Nat × Nat)
  msgEnd  : Option Nat
  sealAt  : Nat
  retired : Option Nat
  armed   : Option Armed
  users   : List (Nat × Nat)
  waitAdv : Bool
  revBy   : Option Nat
  olds    : List OldGen
deriving DecidableEq, Repr

/-- A path of a connection suspended after an RTO loss (R132). -/
structure Path where
  conn : Nat
  path : Nat
deriving DecidableEq, Repr

/-! ## Volumes and epochs (R226-R231, R302-R307) -/

/-- The bytes of one write as held for reading: a run of bytes, zeros (DROP), or poison. -/
inductive VData where
  | bytes (b : List Byte)
  | zeros
  | poison
deriving DecidableEq, Repr

/-- A write that is final: birth epoch, offset, length, data, and the journal number it came from. -/
structure VWrite where
  epoch : Nat
  off   : Nat
  len   : Nat
  data  : VData
  src   : Nat × Nat
  /-- lehr pages that hold the bytes until they are destaged (R276), and whether that is done -/
  pages : List Nat
  done  : Bool
  /-- where the first byte of the whole write stands: its offset in the volume, and in its first page -/
  first : Nat × Nat
deriving DecidableEq, Repr

/-- A snapshot of a volume: its epoch, the cut of its group (0 for none) with the group, whether its handle is live,
the clones that name it as parent, and the verb that cut it: side and journal number of its command and the place of
the verb in its program (R303: a replay reuses the cut). -/
structure Snap where
  epoch  : Nat
  group  : Nat
  cut    : Nat
  live   : Bool
  clones : List Nat
  src    : Option (Nat × Nat × Nat)
deriving DecidableEq, Repr

/-- The kind of a map entry (Table 8-7): a recipe holds its pieces (chunk reference or 0, offset in the chunk, bytes)
(R229); `fine` names the fine block of a coarse unit. -/
inductive MapKind where
  | unmapped | hole | fine
  | recipe (pieces : List (Nat × Nat × Nat))
deriving DecidableEq, Repr

/-- A map entry with its birth epoch (R305). Unit u × 65 is coarse unit u, u × 65 + 1 + f its fine unit f. `place` is where its recipe
stands, recipe page × 64 + granule, or the number of its fine block (Table 8-7). -/
structure MapEntry where
  unit  : Nat
  epoch : Nat
  kind  : MapKind
  place : Nat
deriving DecidableEq, Repr

/-- What a metadata page says (R232): map entries, chunk-table entries or cold entries; as it stands on flash, or as it waits to be
programmed. -/
structure PageCopy where
  page   : MPage
  side   : Nat
  stored : Bool
  map    : List MapEntry
  chunks : List ChunkEnt
  cold   : Sparse IdxEntry
deriving DecidableEq, Repr

/-- A volume: pool, home side, current end (R64), VEPOCH (R302), consistency group, final writes newest first,
snapshots, clone parent (volume and epoch), map entries in force and kept (R305), and whether a delete is under way (R226). -/
structure Volume where
  num     : Nat
  pool    : Nat
  home    : Nat
  vend    : Nat
  vepoch  : Nat
  group   : Nat
  writes  : List VWrite
  snaps   : List Snap
  parent  : Option (Nat × Nat)
  map     : List MapEntry
  emap    : List MapEntry
  deleting : Bool
  delFence : List (Nat × Nat)
  /-- offsets that PUTA verbs of commands not yet final have fixed (R64), by side, journal number and place of the verb in its
  program: a re-run takes the same range -/
  fixed    : List ((Nat × Nat × Nat) × Nat)
deriving DecidableEq, Repr

/-- A unit of a volume to be destaged afresh, with the epoch it is born in (R230). -/
structure Afresh where
  vol   : Nat
  off   : Nat
  len   : Nat
  epoch : Nat
deriving DecidableEq, Repr

/-- States of an atomic slot (Table 10-6). -/
inductive AState where
  | opened | staged | mapping
deriving DecidableEq, Repr

/-- An atomic slot (R298). -/
structure ASlot where
  side  : Nat
  seq   : Nat
  vid   : Nat
  vol   : Nat
  off   : Nat
  len   : Nat
  state : AState
  start : Nat
  count : Nat
deriving DecidableEq, Repr

/-! ## Lehr and link (R275-R289) -/

/-- What a lehr page holds (Table 10-2, type 0x11). -/
inductive LUse where
  | window | image
deriving DecidableEq, Repr

/-- A live lehr page, named (o, p) (R275): its use, window key, the bytes of this head's copy that differ from 0, and
the 4 KiB granules that carry poison. -/
structure LPage where
  o    : Nat
  p    : Nat
  use  : LUse
  key  : Nat
  data : Sparse Byte
  pois : List Nat
deriving DecidableEq, Repr

/-- What a pool's record gives: encrypted, W, P, CIDXK and the wrapped key (R225). -/
structure PoolRec where
  enc   : Bool
  w     : Nat
  p     : Nat
  cidxk : Nat
  key   : Option (List Byte)
deriving DecidableEq, Repr

/-- A replication slot (R310, R311), as REPSTAT and the cycle need it: STATE (1 RUNNING, 2 RETRYING, 3 STOPPED), subject, base,
cycles completed, the snapshot of the cycle in progress, the target descriptor, the connection to the target. -/
structure Rep where
  state   : Nat
  group   : Bool
  subj    : Nat
  base    : Nat
  cycles  : Nat
  cur     : Option Nat
  descr   : List Byte
  conn    : Option Nat
  /-- how far the connection and the cycle have come: 0 no cycle, 1 connecting, 2 session set-up, 3 attaching to the queue,
  4 WINDOW.OPEN outstanding, 5 units, 6 SNAP outstanding, 7 a unit being read -/
  phase   : Nat
  /-- target commands not yet final -/
  left    : Nat
  startAt : Nat
  stopBy  : Option Nat
  /-- what is still to be sent, in order: place of the member, unit, whether it is a DROP -/
  todo    : List (Nat × Nat × Bool)
  /-- the target window that takes the source bytes, with its present generation; 0 while there is none -/
  win     : Word
  /-- the next slot number of the target queue -/
  slot    : Nat
  /-- tag of the awaited command -/
  tag     : Nat
  /-- handles of the target snapshots not yet dropped, newest first -/
  handles : List Word
deriving DecidableEq, Repr

/-- The two spill sets of a side, A and B (R291): the bands of each, as their members' dies and blocks; whether a set has been written since
its last erase; the blocks whose erase is not over. -/
structure SpillSets where
  bands : Two (List (List (Nat × Nat)))
  used  : Two Bool
  left  : List (Nat × Nat)
deriving DecidableEq, Repr

/-- What the dies of a side and the directories of its volumes and domains hold (R210, R231, R232, R236): its bands as they stand on flash,
chunk table, dies, the blocks of its spill sets, GC slots, volumes, page directories with the pages not yet written, fine units, what the pages say on flash, the last chunk number given, and of each
pool what debits took of its GC spare there, whether it is WORN there, whether it is built. -/
structure Media where
  bands  : List Band
  chunks : List ChunkEnt
  dies   : List Die
  spill  : SpillSets
  gc     : List GcSlot
  vols   : List Volume
  dirs   : List (MPage × Nat)
  dirty  : List MPage
  fines  : List (Nat × Nat)
  copies : List PageCopy
  last   : Nat
  pools  : List (Nat × Nat × Bool × Bool)
deriving DecidableEq, Repr

/-- A record of a mirrored PSTORE structure (Table 10-2, type 0x12). -/
inductive PRec where
  | journal (side : Nat) (r : JRec)
  | held (side : Nat) (r : JRec)
  | delta (side : Nat) (n : Nat) (d : Delta)
  /-- what a side's dies and directories hold now (R232, R255, R271; DESIGN CHOICE, log entry 73) -/
  | media (side : Nat) (m : Media)
  | stripe (side : Nat) (idx : Nat) (band stripe row state mask wseq : Nat)
  | bitmap (side : Nat) (idx : Nat) (on : Bool)
  | gcSlot (side idx victim dest st : Nat)
  | ledger (c : Nat) (k : Option Contract)
  | costTab (t : CostTable)
  | pageTab (o p use key : Nat)
  | atomic (s : ASlot) (free : Bool)
  | epoch (v : Volume)
  | volGone (v : Nat)
  | repl (slot : Nat) (x : Option Rep)
  | spill (side : Nat) (st n : Nat)
  | setting (copy reg idx : Nat) (w : Word)
  | evres (side : Nat) (n : Nat)
  /-- the ARCHIVE or RESTORE command that runs on tape port `port` of `side` (R384), or none -/
  | tapeJob (side port : Nat) (job : Option (Nat × Nat))
  | window (w : Window)
  | winGone (side idx : Nat)
  /-- QNEXT of a queue (R120) and how far its QRESET has come (R170): in progress, fence taken, the counts of R75 -/
  | queue (side q qnext : Nat) (rst fence : Bool) (abandN doneN : Nat)
  /-- the final state of a command with its writes and atomic slots, in one record (R155) -/
  | final (side : Nat) (r : JRec) (held : Bool) (vols : List Volume) (atoms : List ASlot)
  /-- a window's seal with the acceptance that it releases, in one record (R142) -/
  | seal (w : Window) (acc : Option (Nat × JRec))
  /-- what a command with a MARK or FLUSH covers (R153, R154) -/
  | cover (side seq : Nat) (l : List (Nat × Option Nat))
  /-- the queue to which a stream is bound (R52), plus 1; 0 where it is released -/
  | stream (side s q : Nat)
  /-- the cut counter of a consistency group (R303) -/
  | cuts (g n : Nat) (vs : List Volume)
  /-- the free space of a side's pools before reservations, and which are worn there (R94, R241, R242) -/
  | room (side : Nat) (l : List (Nat × Int × Bool))
  /-- a CONTRACT.OPEN (the contract drawn up) or CONTRACT.CLOSE sent to the head that holds the ledger, with the verb's number
  (R92) -/
  | ledgerAsk (vid : Nat) (c : Nat) (k : Option Contract)
  /-- the holder's decision: the verb's status and result word -/
  | ledgerSay (vid : Nat) (status : Status) (result : Word)
  | key (slot : Nat) (k : Option (List Byte × Nat))
  /-- an HMAC key slot (R435): key and USE, or none where it is erased -/
  | hkey (slot : Nat) (k : Option (List Byte × Nat))
  /-- a format table put in force (R178): its TYPE and bytes -/
  | table (typ : Nat) (bytes : List Byte)
  /-- a pool created (R225): encrypted, W, P, CIDXK, wrapped key; or none where it is gone -/
  | pool (num : Nat) (p : Option PoolRec)
  /-- bytes from `off` of an image of `total` bytes that the peer stages too (R439) -/
  | image (off total : Nat) (bytes : List Byte)
  /-- a CONFIRM of every unconfirmed image of the pair (R441) -/
  | confirm
  /-- the sender's images: VERSION in force, VERSION of the staged one, and whether the one in force is confirmed (R440) -/
  | images (ver : Nat) (staged : Option Nat) (conf : Bool)
deriving DecidableEq, Repr

/-- A frame of the pair link (Table 10-2). -/
inductive PlFrame where
  | heartbeat (newest state : Nat)
  | ack (mirror bulk : Nat)
  | nak (chan seq : Nat)
  | credit (mirror bulk : Nat)
  | pfail
  | control (step : CtlStep) (arg : Nat)
  | place (o p off : Nat) (bytes : List Byte)
  | lpage (o p use key : Nat)
  | prec (r : PRec)
  | copypage (o p off : Nat) (bytes : List Byte)
  | copyrec (r : PRec)
deriving DecidableEq, Repr

/-- Pair-link training states (Table 10-13). -/
inductive PlState where
  | down | training | up
deriving DecidableEq, Repr

/-- One sending channel: the next SEQ, frames kept until acknowledged, credits in flits, frames waiting for credit. -/
structure TxChan where
  next    : Nat
  unacked : List (Nat × PlFrame)
  credit  : Nat
  waiting : List (Nat × PlFrame)
deriving DecidableEq, Repr

/-- The pair link (R284-R288). Channel 1 is `mir`, channel 2 `bulk`; `rxMir`, `rxBulk` are the SEQs expected next;
`nakMir`, `nakBulk` say that one NAK has been sent for the gap. -/
structure Link where
  state  : PlState
  txGood : BitVec 32
  rxGood : BitVec 32
  txw    : Nat
  rxw    : Nat
  mir    : TxChan
  bulk   : TxChan
  rxMir  : Nat
  rxBulk : Nat
  nakMir : Bool
  nakBulk : Bool
  /-- credits withheld while a pool is at level 2 (R413) -/
  withheld : Nat
  /-- newest journal number the peer last sent in a HEARTBEAT (R283) -/
  peerSeq : Option Nat
  lastHb  : Nat
deriving DecidableEq, Repr

/-- The state of the peer as FNCSTAT reports it (Table 9-11). -/
inductive Peer where
  | absent | inService | fenced | rejoining
deriving DecidableEq, Repr

/-- The spill of one side (R291-R297): its ports are ready, NEXT, LAST, pages of the last spill, record state (0 none, 1 WRITING,
2 DONE), count N, the share left to program, positions used, failed positions, the pages the last set holds, those of earlier sets, the
blocks of the sets. -/
structure Spill where
  ready  : Bool
  nextB  : Bool
  last   : Nat
  pages  : Nat
  rcd    : Nat
  n      : Nat
  share  : List (Nat × Nat)
  pos    : Nat
  failed : List Nat
  holds  : List (Nat × LPage)
  olds   : List (Nat × LPage)
  blocks : SpillSets
deriving DecidableEq, Repr

/-- How far a spill has come on this head (Table 10-4). -/
inductive SpillPhase where
  | none
  /-- PFAIL seen: the exchange of R292 waits for the last LPAGE acknowledgement -/
  | exchange (tag : Option Nat)
  | writing
  | done
deriving DecidableEq, Repr

/-- A hand-off (R166): the side that is handed over, the step reached, whether this head is the one that gives it up, and
whether it belongs to UPDATE.ACTIVATE (R440; else to R475). -/
structure Handoff where
  side : Nat
  step : Nat
  mine : Bool
  act  : Bool
deriving DecidableEq, Repr

/-- Where a takeover stands (Table 9-5): none, waiting SETTLE, replaying. -/
inductive Takeover where
  | none | settle | replay
deriving DecidableEq, Repr

end Sys2Proof.Machine
end

