-- ==== Sys2Proof/Config.lean ====
section
/-! DEFINITION. What the spec leaves open: free values without a body, and the cryptographic functions the spec names
without giving their arithmetic (FIPS and RFC functions other than the SHA-2 hashes and CRCs). -/

namespace Sys2Proof.Config

/-- The n-th free 64-bit value: an X field read before it was written (R7), an undefined value. -/
opaque freeWord : Nat → Word

/-- The n-th free byte. -/
opaque freeByte : Nat → Byte

/-- The n-th free natural number (a salt or a key drawn at random, bounded by who uses it). -/
opaque freeNat : Nat → Nat

/-- The n-th free Bool (a pulse whose length lies between the two widths of R513). -/
opaque freeBool : Nat → Bool

/-- The check bits of the SECDED code over a 64-bit word (R404); the spec does not give the code. -/
opaque secded : Word → BitVec 8

/-- Ed25519 (R422, R427): the signature of a message under a private key. -/
opaque edSign : List Byte → List Byte → List Byte

/-- Ed25519: whether a signature over a message verifies under a public key. -/
opaque edVerify : List Byte → List Byte → List Byte → Bool

/-- X25519 (R435, R436): the shared value of a private and a public key. -/
opaque x25519 : List Byte → List Byte → List Byte

/-- AES-256-GCM or key-wrap decryption (R435, R436): key, nonce, cipher text with tag; none where the tag fails. -/
opaque aeadOpen : List Byte → List Byte → List Byte → Option (List Byte)

/-- AES-256-GCM encryption: key, nonce, plain text. -/
opaque aeadSeal : List Byte → List Byte → List Byte → List Byte

/-- AES-256-XTS of IEEE 1619 (R224): key, tweak, data unit. -/
opaque xts : List Byte → Nat → List Byte → List Byte

/-- The row address of a die's page (R224 speaks of it, the spec does not lay it out): die, block, page, plane. -/
opaque rowAddress : Nat → Nat → Nat → Nat → Nat

/-- The check bytes of one of the four LDPC codes over data and metadata (R221 names the codes, not their matrices). -/
opaque ldpcCode : Nat → List Byte → List Byte

/-- The header of a cold-index page (R184 gives its length only): pool, page. -/
opaque coldHeader : Nat → Nat → List Byte

/-- First HBM address of the gather slots (R198, R414: the spec gives the area's size, not its place). -/
opaque gatherBase : Nat

/-- The device identity key of the head's package, private and public (R427, a trim). -/
opaque idPrivate : List Byte

/-- The public part of the device identity key. -/
opaque idPublic : List Byte

/-- The family image key (R437, a fuse). -/
opaque imageKey : List Byte

/-- The two image public keys (R437, fuses). -/
opaque imagePublic : Nat → List Byte

/-- How many entries beyond one a hardware queue holds (R39: the spec gives no depth). -/
opaque hwqDepth : Nat → Nat

/-- First HBM address of the instruction region (R388, R414): the spec gives the areas' sizes, not their places. -/
opaque instrBase : Nat

/-- First HBM address of the firmware area (R414). -/
opaque firmwareBase : Nat

/-- The match finder (R191: the head's own): from the bytes before the position, newest first, and the bytes that follow
within the input block, a match length and distance. What is no legal match stands for a literal. -/
opaque matchFinder : List Byte → List Byte → Nat × Nat

/-- The code lengths a compression unit builds for a dynamic block of which it has been given only the first bytes
(R190 needs the whole block's counts): literal/length and distance lengths. -/
opaque blockCodes : List Byte → List Byte → List Nat × List Nat

/-- The fuse trims followed by the PSTORE trim page (R428). -/
opaque trims : List Byte

/-- The bytes of the settings records in force, in record order (R428: the spec gives the records no layout). -/
opaque settingsBytes : Nat → List Byte

/-- The operator slot under which a target's installer enrolled this head's identity key (R145 gives no way to learn it), and
the target queue that a replication slot uses. -/
opaque targetSlot : Nat → Nat

/-- The queue of the target that a replication slot submits to. -/
opaque targetQueue : Nat → Nat

/-- The ordered stream of that queue (R310). -/
opaque targetStream : Nat → Nat

/-- The base of the MAC addresses of the links (R147, a trim). -/
opaque macBase : Nat

/-- Where the source ports of a connection's paths begin, counted from 49,152 (R132: the spec chooses none). -/
opaque pathBase : Nat → Nat

/-- The link that a packet leaves on, by time and UDP source port, counted among those that may take it. -/
opaque txLink : Nat → Nat → Nat

/-- Amplitude of tone A (0) or B (1) in servo samples at FS kHz, tape speed in mm/s (R365: a single-frequency transform whose
scale and alignment the spec leaves open; the samples are the last 8 µs, oldest first). -/
opaque toneAmp : Nat → Nat → Nat → List Int → Nat

/-- The floor below which a tone has no energy (R365 speaks of the table's floor; Table 12-12 has none). -/
opaque toneFloor : Nat

/-- The 40 bits of an LPOS field whose servo frame ends within the newest servo samples (R316, R366); none where no frame ends:
FS in kHz, speed in mm/s, the element's samples, oldest first. -/
opaque lposField : Nat → Nat → List Int → Option (List Bool)

/-- A reel command (0 supply, 1 take-up) of the reel loop (R367 gives its inputs, not its law): speed, SPEED, KV, TENS, TENSTGT,
KT. -/
opaque reel : Nat → Nat → Nat → Int → Nat → Nat → Int → Int

/-- The actuator command while the tape is positioned (R367: a ramp of at most 1 mm/s), by LPOS. -/
opaque rampAct : Nat → Int

/-- The newest sample, counted from the first one, that the interpolation of channel bit n needs: n, τ, FSR (R358 gives τ no unit). -/
opaque bitPlace : Nat → Int → Nat → Nat

/-- 4-point cubic interpolation (R358) of the four newest samples, newest first, at τ. -/
opaque interpolate : List Int → Int → Int

/-- A difference of path metrics scaled to 0 to 255 (R360). -/
opaque relScale : Nat → Nat

/-- The last LPOS of the medium in a tape port (R317: no command says it). -/
opaque mediumLast : Nat → Nat

/-! ## Test access (R495)

Lengths and codes of the boundary-scan description file, which the spec names and does not give. -/

/-- Bits of the test access port's instruction register. -/
opaque irLength : Nat

/-- The instruction that a value of the instruction register selects: 0 BYPASS, 1 IDCODE, 2 SAMPLE/PRELOAD, 3 EXTEST, 4 CLAMP,
5 HIGHZ; other codes select BYPASS (IEEE 1149.1). -/
opaque irDecode : List Bool → Nat

/-- Cells of the scan chain. -/
opaque chainLength : Nat

/-- The bound and the hold-up time, in ms, of a lehr size that Table 10-5 has no row for (log entry 62). -/
opaque spillBetween : Nat → Nat × Nat

/-- The bytes of a record of a mirrored structure, in its own layout (log entry 12). -/
opaque recordBytes : Machine.PRec → List Byte

/-- The code of a CONTROL frame's step (Table 10-2 names the steps and gives no codes). -/
opaque stepCode : CtlStep → Nat

end Sys2Proof.Config
end

