-- ==== Sys2Proof/Machine/Sha.lean ====
section
/-! DEFINITION. The SHA-2 hashes that the manual names (FIPS 180-4): SHA-256 of fingerprints and digests, SHA-512. -/

namespace Sys2Proof.Sha

/-- The round constants of SHA-256, part 1. -/
def k256A : List (BitVec 32) :=
  [0x428A2F98, 0x71374491, 0xB5C0FBCF, 0xE9B5DBA5, 0x3956C25B, 0x59F111F1, 0x923F82A4, 0xAB1C5ED5,
   0xD807AA98, 0x12835B01, 0x243185BE, 0x550C7DC3, 0x72BE5D74, 0x80DEB1FE, 0x9BDC06A7, 0xC19BF174]

/-- The round constants of SHA-256, part 2. -/
def k256B : List (BitVec 32) :=
  [0xE49B69C1, 0xEFBE4786, 0x0FC19DC6, 0x240CA1CC, 0x2DE92C6F, 0x4A7484AA, 0x5CB0A9DC, 0x76F988DA,
   0x983E5152, 0xA831C66D, 0xB00327C8, 0xBF597FC7, 0xC6E00BF3, 0xD5A79147, 0x06CA6351, 0x14292967]

/-- The round constants of SHA-256, part 3. -/
def k256C : List (BitVec 32) :=
  [0x27B70A85, 0x2E1B2138, 0x4D2C6DFC, 0x53380D13, 0x650A7354, 0x766A0ABB, 0x81C2C92E, 0x92722C85,
   0xA2BFE8A1, 0xA81A664B, 0xC24B8B70, 0xC76C51A3, 0xD192E819, 0xD6990624, 0xF40E3585, 0x106AA070]

/-- The round constants of SHA-256, part 4. -/
def k256D : List (BitVec 32) :=
  [0x19A4C116, 0x1E376C08, 0x2748774C, 0x34B0BCB5, 0x391C0CB3, 0x4ED8AA4A, 0x5B9CCA4F, 0x682E6FF3,
   0x748F82EE, 0x78A5636F, 0x84C87814, 0x8CC70208, 0x90BEFFFA, 0xA4506CEB, 0xBEF9A3F7, 0xC67178F2]

/-- The round constants of SHA-256. -/
def k256 : List (BitVec 32) := k256A ++ k256B ++ k256C ++ k256D

/-- The initial state of SHA-256. -/
def h256 : List (BitVec 32) :=
  [0x6A09E667, 0xBB67AE85, 0x3C6EF372, 0xA54FF53A, 0x510E527F, 0x9B05688C, 0x1F83D9AB, 0x5BE0CD19]

/-- The round constants of SHA-512, part 1. -/
def k512A : List (BitVec 64) :=
  [0x428A2F98D728AE22, 0x7137449123EF65CD, 0xB5C0FBCFEC4D3B2F, 0xE9B5DBA58189DBBC,
   0x3956C25BF348B538, 0x59F111F1B605D019, 0x923F82A4AF194F9B, 0xAB1C5ED5DA6D8118,
   0xD807AA98A3030242, 0x12835B0145706FBE, 0x243185BE4EE4B28C, 0x550C7DC3D5FFB4E2,
   0x72BE5D74F27B896F, 0x80DEB1FE3B1696B1, 0x9BDC06A725C71235, 0xC19BF174CF692694]

/-- The round constants of SHA-512, part 2. -/
def k512B : List (BitVec 64) :=
  [0xE49B69C19EF14AD2, 0xEFBE4786384F25E3, 0x0FC19DC68B8CD5B5, 0x240CA1CC77AC9C65,
   0x2DE92C6F592B0275, 0x4A7484AA6EA6E483, 0x5CB0A9DCBD41FBD4, 0x76F988DA831153B5,
   0x983E5152EE66DFAB, 0xA831C66D2DB43210, 0xB00327C898FB213F, 0xBF597FC7BEEF0EE4,
   0xC6E00BF33DA88FC2, 0xD5A79147930AA725, 0x06CA6351E003826F, 0x142929670A0E6E70]

/-- The round constants of SHA-512, part 3. -/
def k512C : List (BitVec 64) :=
  [0x27B70A8546D22FFC, 0x2E1B21385C26C926, 0x4D2C6DFC5AC42AED, 0x53380D139D95B3DF,
   0x650A73548BAF63DE, 0x766A0ABB3C77B2A8, 0x81C2C92E47EDAEE6, 0x92722C851482353B,
   0xA2BFE8A14CF10364, 0xA81A664BBC423001, 0xC24B8B70D0F89791, 0xC76C51A30654BE30,
   0xD192E819D6EF5218, 0xD69906245565A910, 0xF40E35855771202A, 0x106AA07032BBD1B8]

/-- The round constants of SHA-512, part 4. -/
def k512D : List (BitVec 64) :=
  [0x19A4C116B8D2D0C8, 0x1E376C085141AB53, 0x2748774CDF8EEB99, 0x34B0BCB5E19B48A8,
   0x391C0CB3C5C95A63, 0x4ED8AA4AE3418ACB, 0x5B9CCA4F7763E373, 0x682E6FF3D6B2B8A3,
   0x748F82EE5DEFB2FC, 0x78A5636F43172F60, 0x84C87814A1F0AB72, 0x8CC702081A6439EC,
   0x90BEFFFA23631E28, 0xA4506CEBDE82BDE9, 0xBEF9A3F7B2C67915, 0xC67178F2E372532B]

/-- The round constants of SHA-512, part 5. -/
def k512E : List (BitVec 64) :=
  [0xCA273ECEEA26619C, 0xD186B8C721C0C207, 0xEADA7DD6CDE0EB1E, 0xF57D4F7FEE6ED178,
   0x06F067AA72176FBA, 0x0A637DC5A2C898A6, 0x113F9804BEF90DAE, 0x1B710B35131C471B,
   0x28DB77F523047D84, 0x32CAAB7B40C72493, 0x3C9EBE0A15C9BEBC, 0x431D67C49C100D4C,
   0x4CC5D4BECB3E42B6, 0x597F299CFC657E2A, 0x5FCB6FAB3AD6FAEC, 0x6C44198C4A475817]

/-- The round constants of SHA-512. -/
def k512 : List (BitVec 64) := k512A ++ k512B ++ k512C ++ k512D ++ k512E

/-- The initial state of SHA-512. -/
def h512 : List (BitVec 64) :=
  [0x6A09E667F3BCC908, 0xBB67AE8584CAA73B, 0x3C6EF372FE94F82B, 0xA54FF53A5F1D36F1,
   0x510E527FADE682D1, 0x9B05688C2B3E6C1F, 0x1F83D9ABFB41BD6B, 0x5BE0CD19137E2179]

/-- A big-endian number of bytes. -/
def be (l : List Byte) : Nat := l.foldl (fun a b => a * 256 + b.toNat) 0

/-- The `n` bytes of a number, most significant first. -/
def beBytes (n x : Nat) : List Byte := ((List.range n).map (fun i => BitVec.ofNat 8 (x / 256 ^ i))).reverse

/-- The message schedule, newest word first, extended `n` times by a hash's own recurrence. -/
def extend {w : Nat} (s0 s1 : BitVec w → BitVec w) : Nat → List (BitVec w) → List (BitVec w)
  | 0, l => l
  | n + 1, l => extend s0 s1 n ((s1 (l.getD 1 0) + l.getD 6 0 + s0 (l.getD 14 0) + l.getD 15 0) :: l)

/-- One round on the eight working words. -/
def round {w : Nat} (b0 b1 : BitVec w → BitVec w) (v : List (BitVec w)) (kw : BitVec w × BitVec w) : List (BitVec w) :=
  match v with
  | [a, b, c, d, e, f, g, h] =>
    let t1 := h + b1 e + ((e &&& f) ^^^ (~~~e &&& g)) + kw.1 + kw.2
    let t2 := b0 a + ((a &&& b) ^^^ (a &&& c) ^^^ (b &&& c))
    [t1 + t2, a, b, c, d + t1, e, f, g]
  | _ => v

/-- One block of SHA-256 on a state. -/
def block256 (st : List (BitVec 32)) (b : List Byte) : List (BitVec 32) :=
  let w0 := ((List.range 16).map (fun i => BitVec.ofNat 32 (be ((b.drop (4 * i)).take 4)))).reverse
  let ws := (extend (fun x => x.rotateRight 7 ^^^ x.rotateRight 18 ^^^ (x >>> 3))
    (fun x => x.rotateRight 17 ^^^ x.rotateRight 19 ^^^ (x >>> 10)) 48 w0).reverse
  let v := (k256.zip ws).foldl (round (fun x => x.rotateRight 2 ^^^ x.rotateRight 13 ^^^ x.rotateRight 22)
    (fun x => x.rotateRight 6 ^^^ x.rotateRight 11 ^^^ x.rotateRight 25)) st
  List.zipWith (· + ·) st v

/-- One block of SHA-512 on a state. -/
def block512 (st : List (BitVec 64)) (b : List Byte) : List (BitVec 64) :=
  let w0 := ((List.range 16).map (fun i => BitVec.ofNat 64 (be ((b.drop (8 * i)).take 8)))).reverse
  let ws := (extend (fun x => x.rotateRight 1 ^^^ x.rotateRight 8 ^^^ (x >>> 7))
    (fun x => x.rotateRight 19 ^^^ x.rotateRight 61 ^^^ (x >>> 6)) 64 w0).reverse
  let v := (k512.zip ws).foldl (round (fun x => x.rotateRight 28 ^^^ x.rotateRight 34 ^^^ x.rotateRight 39)
    (fun x => x.rotateRight 14 ^^^ x.rotateRight 18 ^^^ x.rotateRight 41)) st
  List.zipWith (· + ·) st v

/-- The padding of a message of `len` bytes in all: 0x80, zeros, the bit length big-endian in the last `l` bytes of a
block of `blk` bytes. -/
def padding (blk l len : Nat) : List Byte :=
  0x80 :: List.replicate ((blk - (len + 1 + l) % blk) % blk) 0 ++ beBytes l (8 * len)

/-- Whole blocks of SHA-256 run over a state, `n` at most. -/
def run256 : Nat → List (BitVec 32) → List Byte → List (BitVec 32)
  | 0, st, _ => st
  | n + 1, st, b => if b.length < 64 then st else run256 n (block256 st (b.take 64)) (b.drop 64)

/-- Whole blocks of SHA-512 run over a state, `n` at most. -/
def run512 : Nat → List (BitVec 64) → List Byte → List (BitVec 64)
  | 0, st, _ => st
  | n + 1, st, b => if b.length < 128 then st else run512 n (block512 st (b.take 128)) (b.drop 128)

/-- The bytes of a state. -/
def out256 (st : List (BitVec 32)) : List Byte := (st.map (fun x => beBytes 4 x.toNat)).flatten
def out512 (st : List (BitVec 64)) : List Byte := (st.map (fun x => beBytes 8 x.toNat)).flatten

/-- A state from its bytes. -/
def in256 (b : List Byte) : List (BitVec 32) :=
  (List.range 8).map (fun i => BitVec.ofNat 32 (be ((b.drop (4 * i)).take 4)))
def in512 (b : List Byte) : List (BitVec 64) :=
  (List.range 8).map (fun i => BitVec.ofNat 64 (be ((b.drop (8 * i)).take 8)))

/-- The last bytes of a message, with its padding, run over a state that has taken `done` bytes. -/
def finish256 (st : List (BitVec 32)) (done : Nat) (b : List Byte) : List Byte :=
  let m := b ++ padding 64 8 (done + b.length)
  out256 (run256 (m.length / 64) st m)
def finish512 (st : List (BitVec 64)) (done : Nat) (b : List Byte) : List Byte :=
  let m := b ++ padding 128 16 (done + b.length)
  out512 (run512 (m.length / 128) st m)

/-- SHA-256 and SHA-512 of a message. -/
def sha256 (b : List Byte) : List Byte := finish256 h256 0 b
def sha512 (b : List Byte) : List Byte := finish512 h512 0 b

end Sys2Proof.Sha
end

