-- ==== Sys2Proof/Machine/TapeTypes.lean ====
section
/-! DEFINITION. State of the tape ports (R313-R386): the transport links, the read channels, the servo loop, the data
set being written or read, the job, the Sorro structures of the tape in force, the three format tables. -/

namespace Sys2Proof.Machine

/-! ## Format tables (R355, R375, R376) -/

/-- A CONFIG entry (Table 12-7): OP 0 WRITE, 1 WAIT, 2 EXPECT. -/
structure CfgEntry where
  addr  : Nat
  value : Nat
  op    : Nat
deriving DecidableEq, Repr

/-- The TFE link table (Table 12-7). -/
structure LinkTab where
  version : Nat
  ttrain  : Nat
  talign  : Nat
  tconfig : Nat
  retries : Nat
  retryWait : Nat
  entries : List CfgEntry
deriving DecidableEq, Repr

/-- A step of the ladder (Table 12-11a). -/
structure LStep where
  speed : Nat
  rate  : Nat
  up    : Nat
  down  : Nat
  dwell : Nat
  fsr   : Nat
deriving DecidableEq, Repr

/-- The ladder table in force. -/
structure Ladder where
  version : Nat
  steps   : List LStep
deriving DecidableEq, Repr

/-- A target of the equaliser and servo table: coefficients g and initial taps c0. -/
structure Target where
  g  : List Int
  c0 : List Int
deriving DecidableEq, Repr

/-- The equaliser and servo table (Table 12-12). -/
structure EqTab where
  version : Nat
  peslim  : Nat
  pesok   : Nat
  rwdist  : Nat
  mktol   : Nat
  c1max   : Nat
  kp : Int
  ki : Int
  kd : Int
  relmin  : Nat
  tsel    : List Nat
  lgt     : Int
  muacq   : Nat
  mutrk   : Nat
  kpacq   : Nat
  kiacq   : Nat
  kptrk   : Nat
  kitrk   : Nat
  offsh   : Nat
  asymsh  : Nat
  tenstgt : Nat
  kv      : Int
  kt      : Int
  bscale  : Int
  targets : List Target
deriving DecidableEq, Repr

/-! ## The transport link (R345-R357) -/

/-- Link states (Table 12-6). -/
inductive LkState where
  | down | train | align | config | run | fault
deriving DecidableEq, Repr

/-- A transport link: state, widths, good lanes, consecutive tries, whether RETRYWAIT has passed since the last try,
the CONFIG entry in progress, TLID, the last REGRSP word, numbers of frames sent and received by TYPE (R348), time
of entering RUN, the table taken at TRAIN. -/
structure TLink where
  state  : LkState
  txw    : Nat
  rxw    : Nat
  rxGood : BitVec 8
  txGood : BitVec 4
  tries  : Nat
  ready  : Bool
  entry  : Nat
  tlid   : Nat
  rsp    : Word
  txSeq  : Sparse Nat
  rxSeq  : Sparse Nat
  runAt  : Nat
  enOff  : Bool
  tab    : LinkTab
deriving DecidableEq, Repr

/-! ## The read channel of a track (R358-R364) -/

/-- A survivor of the detector (R360): its metric and its path, newest first: magnetisation (true for +1) and the least
difference in metric to a path that differs there. -/
structure Surv where
  metric : Nat
  path   : List (Bool × Nat)
deriving DecidableEq, Repr

/-- The state of one track's channel: offset o (1/256 LSB), asymmetry a, gain code, equaliser taps (Q13), timing f and tau;
the last samples z (newest first) and how many there were; channel bits interpolated so far; their r, u, y and d (newest
first; no u where the samples are missing); the survivors; the magnetisations decided (newest first); |z| summed since the last
spoke period with its count; frames missing in a row; spokes missing in a row; whether a data set is found; the channel bits
decided, from the last spoke found on, each with its reliability; the number of that spoke's period; the payload of the data
set; the ordinal of the next row; whether the header was looked for. -/
structure Chan where
  o     : Int
  a     : Int
  gain  : Int
  c     : List Int
  f     : Int
  tau   : Int
  zs    : List Int
  nz    : Nat
  nr    : Nat
  rs    : List Int
  ur    : List (Option Int)
  ys    : List Int
  ds    : List Int
  surv  : List Surv
  mags  : List Bool
  zsum  : Nat
  zcnt  : Nat
  miss  : Nat
  missSp : Nat
  found : Bool
  bits  : List (Bool × Nat)
  period : Nat
  pay   : List (Bool × Nat)
  row   : Nat
  head  : Bool
deriving DecidableEq, Repr

/-! ## The servo loop (R365-R368) -/

/-- The servo of a port: servo samples per element (newest first), the position errors of the elements and their mean in
0.1 % of p, the integrator and the PES before, off track, INH, LPOS, sample instants since the last LPOS, the last eight
speeds in mm/s (newest first), the time at which a shock was last seen (plus 1), the time since which PES has stayed within
PESOK, the actuator and reel commands last formed. -/
structure Servo where
  smp0  : List Int
  smp1  : List Int
  pes0  : Int
  pes1  : Int
  pes   : Int
  integ : Int
  prev  : Int
  off   : Bool
  inh   : Bool
  lpos  : Nat
  since : Nat
  speeds : List Nat
  shkAt : Nat
  okAt  : Option Nat
  act   : Int
  reelA : Int
  reelB : Int
deriving DecidableEq, Repr

/-! ## Tape structures (R333-R343) -/

/-- The label in force (Table 11-6). -/
structure TLabel where
  tgen  : Nat
  lpbow : Nat
  lpeow : Nat
  time  : Nat
  wkey  : List Byte
deriving DecidableEq, Repr

/-- A directory entry (Table 11-8). -/
structure DirEnt where
  dsn   : Nat
  wrap  : Nat
  lpos  : Nat
  dtype : Nat
  rewr  : Nat
  rec0  : Nat
  tcn0  : Nat
  nrec  : Nat
  nchk  : Nat
deriving DecidableEq, Repr

/-- A row read (R327-R330): block, row, RWSEQ, and its 928 data bytes and C1 parity after C1. -/
structure TRow where
  blk   : Nat
  row   : Nat
  rwseq : Nat
  bytes : List Byte
deriving DecidableEq, Repr

/-- A rewrite row written (R330): block, row, RWSEQ, its track and the ordinal of its place there. -/
structure RwRow where
  blk   : Nat
  row   : Nat
  rwseq : Nat
  track : Nat
  ordinal : Nat
deriving DecidableEq, Repr

/-- A data set being written or read: number, type, copy, wrap and LPOS of spoke 0, body, header fields; for a written one
the rewrite rows, the rows verified, the WRITE frames sent, whether it must be written again; for a read one the rows that
passed C1, how many rows failed it, the row slots that each track has delivered, the pass, the most symbols one C2 codeword
corrected, and whether it is unreadable. -/
structure DSet where
  dsn   : Nat
  dtype : Nat
  rewr  : Nat
  wrap  : Nat
  lpos  : Nat
  body  : List Byte
  rec0  : Nat
  tcn0  : Nat
  nrec  : Nat
  nchk  : Nat
  idxoff : Nat
  idxlen : Nat
  job   : Nat
  rewrites : List RwRow
  okRows : List (Nat × Nat)
  frames : Nat
  again : Bool
  rows  : List TRow
  bad   : Nat
  slots : Sparse Nat
  pass  : Nat
  lower : Bool
  c2max : Nat
  lost  : Bool
deriving DecidableEq, Repr

/-- An empty data set. -/
def DSet.blank : DSet :=
  { dsn := 0, dtype := 0, rewr := 0, wrap := 0, lpos := 0, body := [], rec0 := 0, tcn0 := 0, nrec := 0, nchk := 0, idxoff := 0
    idxlen := 0, job := 0, rewrites := [], okRows := [], frames := 0, again := false, rows := [], bad := 0, slots := [], pass := 0
    lower := false, c2max := 0, lost := false }

/-- A record read from tape (R341): number, data set, volume, offset, bytes, poison bitmap, pieces (TCN, COFF, PLEN). -/
structure TRec where
  num    : Nat
  dsn    : Nat
  vol    : Nat
  voff   : Nat
  len    : Nat
  pois   : List Byte
  pieces : List (Nat × Nat × Nat)
deriving DecidableEq, Repr

/-- Transport states (Table 12-19). -/
inductive TpState where
  | noCartridge | idle | stopped | writing | reading | backhitch | seeking
deriving DecidableEq, Repr

/-- A range to be archived (R381 step 5): the VOLUME its record names, offset, bytes, and where they come from: a volume of
the snapshot as of an epoch, or bytes kept in the weak store (none for a poisoned one). -/
structure TExt where
  vol  : Nat
  off  : Nat
  len  : Nat
  src  : Option (Nat × Nat)
  data : List (Option Byte)
deriving DecidableEq, Repr

/-- An item formatted and not yet placed in a body (R339): type, number, payload; for a chunk its fingerprint, for a record its
volume, offset and bytes. -/
structure TItem where
  typ : Nat
  num : Nat
  pay : List Byte
  fp  : List Byte
  vol : Nat
  off : Nat
  len : Nat
deriving DecidableEq, Repr

/-- Where a job stands (R338, R381, R382): reading the label; bisecting the wraps; bisecting the last wrap by distance from
its start; looking back for the newest EOD; reading the tape index; reading the data sets after it; reading the indexes of the
records named; writing a label, data sets or reading the records; writing the tape index; writing the EOD. -/
inductive TStage where
  | label
  | wraps (lo hi : Nat)
  | last (lo hi : Nat)
  | eod (dsn : Nat)
  | index (k : Nat)
  | later (dsn : Nat)
  | scan
  | labelw
  | data
  | idx
  | eodw
deriving DecidableEq, Repr

/-- A tape job (R380-R384): ARCHIVE or RESTORE, the verb it answers and its command's number, descriptor fields, how far it
has come, and whether it is held for the peer's hand-off. -/
structure TJob where
  archive : Bool
  vid     : Nat
  /-- the journal number of its command -/
  seq     : Nat
  side    : Nat
  snap    : Word
  vol     : Nat
  pool    : Nat
  tgen    : Nat
  format  : Bool
  maxds   : Nat
  sigmode : Nat
  first   : Nat
  count   : Nat
  srcvol  : Nat
  srcbase : Nat
  key     : List Byte
  stage   : TStage
  /-- ranges of the job in progress; those of the snapshot while a repair job is written first (R379) -/
  todo    : List TExt
  main    : List TExt
  repair  : Bool
  /-- items not yet in a body; JOB item made; JOBEND item made; bodies formatted; its job number; first record of the job -/
  items   : List TItem
  begun   : Bool
  ended   : Bool
  bodies  : Nat
  jobNum  : Nat
  rec1    : Nat
  /-- chunks without a fingerprint that the job wrote: reference and number -/
  crefs   : List (Nat × Nat)
  written : Nat
  records : Nat
  poison  : Bool
  partly  : Bool
  held    : Bool
  /-- bodies formatted when it was held; TGEN of the label it runs on -/
  saved   : List DSet
  lab     : Option Nat
  /-- the last data set of the generation, the EOD in force, the bytes of the index gathered -/
  last    : Option DSet
  eod     : List Byte
  acc     : List Byte
  /-- records waiting for their chunks; the containers brought for them (none where a data set is unreadable); the weak data
  sets they touch; the data set wanted, and the next one whose records are wanted -/
  recs    : List TRec
  got     : List (Nat × Option (List Byte))
  weakDs  : List Nat
  want    : Nat
  next    : Nat
  /-- copy wanted of the data set wanted: the newest met by a scan (R331), or a lower one after an unreadable one (R377) -/
  lower   : Option Nat
  /-- header of the newest copy that a scan without the directory has met of the data set wanted (R331) -/
  top     : Option DSet
deriving DecidableEq, Repr

/-- An entry of the weak store (R379): the destination pool of the job that kept it, TGEN, DSN, the records kept, each as
volume, offset and bytes. -/
structure WeakEnt where
  pool : Nat
  tgen : Nat
  dsn  : Nat
  recs : List (Nat × Nat × List (Option Byte))
deriving DecidableEq, Repr

/-- One tape port: link, channels, servo, transport state, ladder step, wrap, SPLICE, WRITE frames in the FIFO, the TFE's last
status word, SHK of the TFE, gain changes to be sent with the instants since the last GAIN frame; the port buffer (R373);
the data set being written or read, and whether the next thing written is another copy of it; what is known of the tape: label, directory, catalogue, next data
set, chunk, record and job numbers, DSN of the last EOD; the job, and one held for a hand-off; what R374 measures. -/
structure Port where
  link   : TLink
  chans  : Sparse (Option Chan)
  servo  : Servo
  state  : TpState
  step   : Nat
  wrap   : Nat
  splice : Nat
  fifo   : Nat
  status : Word
  gainDue : Bool
  gainAge : Nat
  buf    : List DSet
  cur    : Option DSet
  due    : Bool
  label  : Option TLabel
  dir    : List DirEnt
  catal  : List (List Byte × Nat)
  dsn    : Nat
  tcn    : Nat
  rcd    : Nat
  jobs   : Nat
  prevEod : Nat
  job    : Option TJob
  held   : Option TJob
  inflow : Nat
  dwellAt : Nat
  upAt   : Option Nat
  downAt : Option Nat
  stopAt : Nat
  /-- LPOS at which the present seek or reading began -/
  seekAt : Nat
  ladder : Ladder
  eq     : EqTab
deriving DecidableEq, Repr

end Sys2Proof.Machine
end

