-- ==== Sys2Proof/Machine/SysTypes.lean ====
section
/-! DEFINITION. State of keys, sessions, digests and firmware (R416-R444), reset, clocks, power and temperature
(R454-R477), pins and SMBus (R481-R496), fences (R264-R269), as plain records. -/

namespace Sys2Proof.Machine

/-! ## Keys and sessions -/

/-- A live credential slot (R416, R419): the public key and the slot that enrolled it (255 for the claim). -/
structure KeyEnt where
  key : List Byte
  by_ : Nat
deriving DecidableEq, Repr

/-- A session being set up (R422): its connection (none for SMBus), the head address it came to, the slot of the HELLO, NC,
and NH once the CHALLENGE was sent or received. -/
structure Hello where
  conn : Option Nat
  addr : Nat
  slot : Nat
  nc   : List Byte
  nh   : List Byte
deriving DecidableEq, Repr

/-- The SMBus port's session (R424). -/
structure SmbSess where
  slot : Nat
deriving DecidableEq, Repr

/-- An HMAC key slot (R436). -/
structure HKey where
  len : Nat
  use : Nat
  key : List Byte
deriving DecidableEq, Repr

/-- A digest context (R429, Table 14-15): state of the hash as bytes, algorithm, key slot, owner, bytes processed,
and the result register DGRES. -/
structure DgCtx where
  st    : List Byte
  alg   : Nat
  kslot : Nat
  owner : Nat
  bytes : Nat
  res   : List Byte
deriving DecidableEq, Repr

/-- A firmware slot (R437-R443): the image's VERSION, SECVER, SETFMT, SETFROM, its bytes as written, whether it
passed Table 14-10 (`staged`) and whether it was rejected. -/
structure FwSlot where
  version : Nat
  secver  : Nat
  setfmt  : Nat
  setfrom : Nat
  bytes   : List Byte
  staged  : Bool
  rejected : Bool
deriving DecidableEq, Repr

/-- Firmware in force (R438-R443): the two slots, the slot in force and whether its image is confirmed, the SECVER
floor, seconds left of the health window, the peer's slots as last known (version staged, version in force,
confirmed), and whether an unconfirmed image was started. -/
structure Fw where
  a : Option FwSlot
  b : Option FwSlot
  inForce : Option Nat
  conf    : Bool
  floor   : Nat
  /-- the revocation fuses of the two image keys -/
  revoked : BitVec 2
  hleft   : Nat
  /-- VERSION of the image in force, whatever source supplied it -/
  ver     : Nat
  peerStaged : Option Nat
  peerVer : Nat
  peerConf : Bool
  /-- settings kept in both formats (R443) -/
  twoFmt  : Bool
  /-- what has come of an image that the peer sends (R439) -/
  incoming : List Byte
  /-- both blocks of this side's BOOT band from page 0 on: the boot record, then the image (R460) -/
  band    : Option (List Byte)
deriving DecidableEq, Repr

/-! ## Reset, clocks, power -/

/-- ISTAT.STATE (Table 16-10). -/
inductive IState where
  | running | quiescing | quiesced | inReset | releasing
deriving DecidableEq, Repr

/-- An island (R454, R469): state, QTO, island resets, and whether a reset follows the quiesce in progress. -/
structure Island where
  st    : IState
  qto   : Bool
  rstn  : Nat
  rstAfter : Bool
deriving DecidableEq, Repr

/-- The reset sources of Table 16-3 with head or power reach. -/
inductive RSrc where
  | power | rstL | watchdog | cptReset | smbReset | thermal
deriving DecidableEq, Repr

/-- Reset state (R461-R468): active sources in the order of assertion, CAUSE, BOOTN, STRAPS, TRIM_VALID, a trim load
in progress, FAILS, TRIM_FAULT, BOOT_FAULT, BSRC, time of the last MI release, tell-tales driven, image ready. -/
structure Rst where
  active : List RSrc
  cause  : Nat
  bootn  : Nat
  straps : Nat
  trimv  : Bool
  trimLd : Bool
  fails  : Nat
  tflt   : Bool
  bflt   : Bool
  bsrc   : Nat
  t0     : Nat
  /-- head time at which PWR_OK rose (R105) -/
  pwrAt  : Nat
  image  : Bool
  ttOn   : Bool
  beat   : Bool
  kicked : Bool
  /-- a head reset of this source follows a spill in progress (R161, R295) -/
  after  : Option RSrc
  /-- RESET verbs of scope 0 or 1 whose resets begin with their completions (R68): command, scope, island -/
  pend   : List ((Nat × Nat) × Nat × Nat)
deriving DecidableEq, Repr

/-- Levels of the discrete pins (Table 17-6): true is high. -/
structure Pins where
  pwrOk   : Bool
  rstL    : Bool
  pfailL  : Bool
  fenceOut : Bool
  fenceIn : Bool
  shock   : Two Bool
  cvrAlertL : Bool
  /-- straps as the board sets them: SIDE_SEL, CLK_SEL, BOOT_SEL -/
  sideSel : Nat
  clkSel  : Nat
  bootSel : Nat
deriving DecidableEq, Repr

/-- The fence (R265-R269): FENCED latched, the last fence was simultaneous, the peer's state, side conflict (R14),
whether this head asserted its fence less than the synchroniser's delay ago, and the stop of R394. -/
structure Fence where
  fenced   : Bool
  tie      : Bool
  peer     : Peer
  conflict : Bool
  fatal    : Bool
deriving DecidableEq, Repr

/-- Regulator and temperature (R473-R476). -/
structure Power where
  vid    : Nat
  iout   : Nat
  fault  : Bool
  rstat  : Nat
  fails  : Nat
  vidAt  : Nat
  tj     : Nat
  tjpeak : Nat
  thr    : Bool
  trip   : Bool
  held   : Bool
  loss   : BitVec 5
  lock   : BitVec 8
  badsel : Bool
  dblRef : Bool
  vccqOk : Bool
deriving DecidableEq, Repr

/-- SMBus port and test access (R491-R496): session, HELLO in progress, the newest record read, BSCAN held, and the test
access port: instruction in force, controller state, the bits in the shift register, those last updated into the boundary cells. -/
structure Smb where
  sess   : Option SmbSess
  hello  : Option Hello
  read   : Nat
  bscan  : Bool
  tapIr  : Nat
  tapSt  : Nat
  tapDr  : List Bool
  tapUpd : List Bool
deriving DecidableEq, Repr

end Sys2Proof.Machine
end

