-- ==== Sys2Proof/Machine/Defaults.lean ====
section
/-! DEFINITION. The format tables of a head that never loaded one (R90, R177, R221, R355, R375, R376), and the parts of the
state right after reset. -/

namespace Sys2Proof.Machine

/-- Table 4-4, VERSION 0: caps, then PUT, PUTA, FLUSH, MARK. -/
def defaultCost : CostTable :=
  { version := 0
    caps := [250000, 250000, 281250, 140625, 256000]
    classes := [⟨1, 4, [0, 8, 0, 256], [256, 256, 256, 0]⟩, ⟨2, 4, [0, 8, 0, 256], [256, 256, 256, 0]⟩,
                ⟨4, 0, [0, 8, 0, 256], [0, 0, 0, 0]⟩, ⟨5, 0, [0, 8, 0, 256], [0, 0, 0, 0]⟩] }

/-- Word b of the default gear table: the first 8 bytes of SHA-256 of the byte b, little-endian (R177). -/
def defaultGearWord (b : Nat) : Word :=
  BitVec.ofNat 64 (((Sha.sha256 [BitVec.ofNat 8 b]).take 8).foldr (fun x a => a * 256 + x.toNat) 0)

/-- The default gear table, VERSION 0 (R177). -/
def defaultGear : Gear :=
  { version := 0, minlen := 16384, normlen := 65536, maxlen := 262144, masks := 0xFFFF800000000000
    maskl := 0xFFF8000000000000, gear := (List.range 256).map defaultGearWord }

/-- The LDPC selection table without a load (R221): 256 to 2,047 bytes, code 0, 24 hard and 12 soft iterations. -/
def defaultLdpc : List LdpcSel := [⟨256, 2047, 0, 24, 12⟩]

/-- The TFE link table of VERSION 0 (R355): its one CONFIG entry expects 0x0000_0001 at address 0x0001. -/
def defaultLink : LinkTab :=
  { version := 0, ttrain := 10, talign := 1000, tconfig := 50, retries := 8, retryWait := 100
    entries := [⟨1, 1, 2⟩] }

/-- Table 12-11b. -/
def defaultLadder : Ladder :=
  { version := 0
    steps := [⟨2000, 400, 75, 0, 2000, 1152⟩, ⟨2500, 500, 75, 25, 2000, 1152⟩, ⟨3000, 600, 75, 25, 2000, 1152⟩,
      ⟨3500, 700, 75, 25, 2000, 1152⟩, ⟨4000, 800, 75, 25, 2000, 1152⟩, ⟨5000, 1000, 75, 25, 2000, 1152⟩,
      ⟨6000, 1200, 75, 25, 2000, 1152⟩, ⟨7000, 1400, 75, 25, 2000, 1152⟩, ⟨8000, 1600, 75, 25, 2000, 1152⟩,
      ⟨9000, 1800, 75, 25, 2000, 1152⟩, ⟨10500, 2100, 75, 25, 2000, 1152⟩, ⟨12000, 2400, 100, 25, 2000, 1152⟩] }

/-- Initial taps with 8,192 shared as R376 says. -/
def taps (l : List (Nat × Int)) : List Int :=
  (List.range 15).map (fun k => match l.find? (fun e => e.1 = k) with | some e => e.2 | none => 0)

/-- The equaliser and servo table of VERSION 0 (R376, R360). Targets 2 and 3, which the default TSEL never selects and
for which the spec gives no values, hold zeros (DESIGN CHOICE, log entry 21). -/
def defaultEq : EqTab :=
  { version := 0, peslim := 120, pesok := 60, rwdist := 300, mktol := 2, c1max := 6, kp := 96, ki := 4, kd := 320
    relmin := 24, tsel := [0, 0, 0, 0, 0, 0, 1, 1, 1, 1, 1, 1], lgt := 14, muacq := 9, mutrk := 12, kpacq := 3, kiacq := 8
    kptrk := 5, kitrk := 11, offsh := 10, asymsh := 14, tenstgt := 2048, kv := 64, kt := 16, bscale := 4096
    targets := [⟨[1, 0, -1, 0, 0], taps [(7, 8192)]⟩, ⟨[1, 1, -1, -1, 0], taps [(6, 4096), (7, 4096)]⟩,
      ⟨[0, 0, 0, 0, 0], taps []⟩, ⟨[0, 0, 0, 0, 0], taps []⟩] }

/-! ## Parts of the state after reset -/

/-- A transport link as a reset leaves it: DOWN, no lane in use (R354). -/
def TLink.blank : TLink :=
  { state := .down, txw := 0, rxw := 0, rxGood := 0, txGood := 0, tries := 0, ready := true, entry := 0, tlid := 0
    rsp := 0, txSeq := [], rxSeq := [], runAt := 0, enOff := false, tab := defaultLink }

/-- A servo loop at rest. -/
def Servo.blank : Servo :=
  { smp0 := [], smp1 := [], pes0 := 0, pes1 := 0, pes := 0, integ := 0, prev := 0, off := false, inh := false
    lpos := 0, since := 0, speeds := [], shkAt := 0, okAt := none, act := 0, reelA := 0, reelB := 0 }

/-- A tape port without a cartridge. -/
def Port.blank : Port :=
  { link := TLink.blank, chans := [], servo := Servo.blank, state := .noCartridge, step := 0, wrap := 0, splice := 1
    fifo := 0, status := 0, gainDue := false, gainAge := 0, buf := [], cur := none, due := false, label := none, dir := [], catal := []
    dsn := 0, tcn := 0, rcd := 0, jobs := 0, prevEod := 0, job := none, held := none, inflow := 0, dwellAt := 0
    upAt := none, downAt := none, stopAt := 0, seekAt := 0, ladder := defaultLadder, eq := defaultEq }

/-- A sending channel of the pair link that never sent. -/
def TxChan.blank : TxChan := ⟨0, [], 0, []⟩

/-- The pair link before it has trained. -/
def Link.blank : Link :=
  { state := .down, txGood := 0, rxGood := 0, txw := 0, rxw := 0, mir := TxChan.blank, bulk := TxChan.blank, rxMir := 0
    rxBulk := 0, nakMir := false, nakBulk := false, withheld := 0, peerSeq := none, lastHb := 0 }

/-- A side without spill. -/
def SpillSets.blank : SpillSets := ⟨Two.both [], Two.both false, []⟩

/-- A side whose spill sets are not yet built. -/
def Spill.blank : Spill :=
  { ready := false, nextB := false, last := 0, pages := 0, rcd := 0, n := 0, share := [], pos := 0, failed := [], holds := [], olds := []
    blocks := SpillSets.blank }

/-- A journal without records: numbers start at 1 (R76). -/
def Journal.blank : Journal := { next := 1, ring := [], held := [], finals := 0 }

/-- A recorder without records. -/
def Recorder.blank : Recorder :=
  { ring := [], newest := 0, floor := 0, drop := 0, buffer := [], vol := false, volRing := [], volNext := 0, resEnd := 0, volK := 0, pfloor := 0
    ready := false }

/-- An island in reset. -/
def Island.blank : Island := { st := .inReset, qto := false, rstn := 0, rstAfter := false }

/-- No firmware image. -/
def Fw.blank : Fw :=
  { a := none, b := none, inForce := none, conf := true, floor := 0, revoked := 0, hleft := 0, ver := 0, peerStaged := none
    peerVer := 0, peerConf := true, twoFmt := false, incoming := [], band := none }

end Sys2Proof.Machine
end

