-- ==== Sys2Proof/Syntax.lean ====
section
/-! DEFINITION. The commands of the head: one constructor of `Instr` per row of the table of operations and
events, with the operands that the row's rule gives it. -/

namespace Sys2Proof

open Sys2Proof.Machine

/-- One constructor per row of the table of operations and events. `t` numbers a thread (R387), `c` is who makes a
register write and `v` the value written, `h` heads a pair-link frame, `k` a CPT packet, `low` is the time in ns that
an input stays low (R513). -/
inductive Instr where
  -- Twizon instructions of a thread
  | aluReg (t : Nat) (w : GWord)
  | aluImm (t : Nat) (w : GWord)
  | li (t : Nat) (w : WWord)
  | lih (t : Nat) (w : GWord)
  | cmpReg (t : Nat) (w : GWord)
  | cmpImm (t : Nat) (w : GWord)
  | ld (t : Nat) (w : GWord) (c : LdCheck)
  | st (t : Nat) (w : GWord)
  | amo (t : Nat) (w : GWord)
  | fence (t : Nat) (w : GWord)
  | br (t : Nat) (w : GWord)
  | call (t : Nat) (w : GWord)
  | jr (t : Nat) (w : GWord)
  | endp (t : Nat) (w : GWord)
  | waitv (t : Nat) (w : GWord)
  | trap (t : Nat) (w : GWord)
  | nop (t : Nat) (w : GWord)
  | clrvs (t : Nat) (w : GWord)
  | qput (t : Nat) (w : GWord)
  | qget (t : Nat) (w : GWord)
  | qtry (t : Nat) (w : GWord)
  | sig (t : Nat) (w : GWord)
  | waits (t : Nat) (w : GWord)
  | eret (t : Nat) (w : GWord)
  | cinv (t : Nat) (w : GWord)
  | cwb (t : Nat) (w : GWord)
  | cwbi (t : Nat) (w : GWord)
  | iinv (t : Nat) (w : GWord)
  | lockfill (t : Nat) (w : GWord)
  | idle (t : Nat) (w : GWord)
  | halt (t : Nat) (w : GWord)
  | dispatch (t : Nat) (w : GWord)
  | stateGet (t : Nat) (w : GWord)
  | stateSet (t : Nat) (w : GWord)
  | verbComplete (t i : Nat)
  -- verbs of a thread (Tables 2-11, 2-12)
  | put (t : Nat) (w : VWord)
  | puta (t : Nat) (w : VWord)
  | get (t : Nat) (w : VWord)
  | flush (t : Nat) (w : VWord)
  | mark (t : Nat) (w : VWord)
  | drop (t : Nat) (w : VWord)
  | sdrop (t : Nat) (w : VWord)
  | snap (t : Nat) (w : VWord)
  | clone (t : Nat) (w : VWord)
  | replicateStart (t : Nat) (w : VWord)
  | replicateStop (t : Nat) (w : VWord)
  | replicateReport (t : Nat) (w : VWord)
  | windowOpen (t : Nat) (w : VWord)
  | windowRevoke (t : Nat) (w : VWord)
  | arm (t : Nat) (w : VWord)
  | contractOpen (t : Nat) (w : VWord)
  | contractClose (t : Nat) (w : VWord)
  | archive (t : Nat) (w : VWord)
  | restore (t : Nat) (w : VWord)
  | digest (t : Nat) (w : VWord)
  | attest (t : Nat) (w : VWord)
  | journalRead (t : Nat) (w : VWord)
  | eventRead (t : Nat) (w : VWord)
  | eventClear (t : Nat) (w : VWord)
  | qreset (t : Nat) (w : VWord)
  | resetHead (t : Nat) (w : VWord)
  | resetIsland (t : Nat) (w : VWord)
  | resetQueue (t : Nat) (w : VWord)
  | dozeEnter (t : Nat) (w : VWord)
  | dozeLeave (t : Nat) (w : VWord)
  | updateStage (t : Nat) (w : VWord)
  | updateActivate (t : Nat) (w : VWord)
  | confirm (t : Nat) (w : VWord)
  | chunk (t : Nat) (w : VWord)
  | fprint (t : Nat) (w : VWord)
  | cmpr (t : Nat) (w : VWord)
  | dcmp (t : Nat) (w : VWord)
  | ecenc (t : Nat) (w : VWord)
  | ecdec (t : Nat) (w : VWord)
  | ldpcs (t : Nat) (w : VWord)
  | dgst (t : Nat) (w : VWord)
  | sign (t : Nat) (w : VWord)
  | verify (t : Nat) (w : VWord)
  | nfop (t : Nat) (w : VWord)
  | tfmt (t : Nat) (w : VWord)
  | xfer (t : Nat) (w : VWord)
  -- events of queues, contracts
  | entryAccept (side q : Nat)
  | lastFlagWaitExpire (vid : Nat)
  | qresetFence (side q : Nat)
  | mgmtQueueIdle (side q : Nat)
  | cadenceEpoch
  | admtabLoad (c : Caller) (v : Word)
  -- CPT
  | cptWriteRx (k : Rx) (key gen off pay : List Byte)
  | cptSubmitRx (k : Rx) (queue slot entries : List Byte)
  | cptCompleteRx (k : Rx) (queue qnext recs : List Byte)
  | cptAckRx (k : Rx) (cum tse adly ranges : List Byte)
  | cptConnectRx (k : Rx) (scon isn maxpay tclass evsub : List Byte)
  | cptConnectReplyRx (k : Rx) (scon isn tse maxpay refuse reason : List Byte)
  | cptCloseRx (k : Rx) (reason : List Byte)
  | cptCloseUnknownRx (r : Rx)
  | cptEventRx (k : Rx) (code detail arg : List Byte)
  | cptKeepaliveRx (r : Rx)
  | sessionHello (k : Rx) (slot nc : List Byte)
  | sessionProof (k : Rx) (sg : List Byte)
  | arpNdRx (dst : Asked) (v6 : Bool)
  | icmpEchoRx (dst src : Nat) (arr : Rx)
  | pauseRx (link quanta : Nat)
  | cptAckTimer (conn : Nat)
  | cptRtoExpire (conn psn : Nat)
  | connectRetry (conn : Nat)
  | keepaliveTimer (conn : Nat)
  | connLostTimer (conn : Nat)
  | drainTimeout (conn : Nat)
  | sessionSetupTimeout (conn : Nat)
  | qnextTimer (side q : Nat)
  | windowLingerExpire (side idx : Nat)
  | pathResume (conn path : Nat)
  | lastFlagPlace (conn psn : Nat)
  | strictPlace (conn psn : Nat)
  | genAdvance (side idx : Nat)
  | revokeDrainDone (side idx : Nat)
  | hostPortDown (link : Nat)
  | hostPortUp (link : Nat)
  | hpcfgWrite (c : Caller) (v : Word)
  | hpolWrite (c : Caller) (v : Word)
  -- reduction
  | destageExtent (vol off len : Nat)
  | coldLookupDone (ext chunk : Nat)
  | coldLookupTimeout (ext chunk : Nat)
  | coldWriteTimeout (i : Nat)
  | filterPageRead (pool side page : Nat)
  | unitSwitch (u : Nat)
  | drgearLoad (c : Caller) (v : Word)
  | drhufLoad (c : Caller) (v : Word)
  -- flash
  | tandemWindow (g : Nat) (addrs : List Bool) (ports : BitVec 4)
  | nandReadDone (band stripe pos : Nat) (res : List CwResult)
  | nandProgramDone (die : Nat) (st : DieStatus)
  | nandEraseDone (die block : Nat) (st : DieStatus)
  | memberTimeout (band stripe pos cw : Nat)
  | zqShortCal (g : Nat)
  | scrubBandTimer (band : Nat)
  | gcStart (band : Nat)
  | gcErase (side idx : Nat)
  | groupIdle (g : Nat)
  | vccqNfFault
  | poolCreate (c : Caller) (v : Word)
  | poolDelete (c : Caller) (v : Word)
  | volumeCreate (c : Caller) (v : Word)
  | volumeDelete (c : Caller) (v : Word)
  | nffamLoad (c : Caller) (v : Word)
  | nfldpcLoad (c : Caller) (v : Word)
  -- stripes, fence, takeover
  | fullFill (band : Nat)
  | partialFill (band : Nat)
  | stageAgeExpire (band : Nat)
  | bitmapClearTimer
  | bandResync (band : Nat)
  | rebuildBand (band : Nat)
  | fenceInFall (low : Nat)
  | fenceInRise
  | fencedResetTimer
  | heartbeatLoss
  | fncctlForce (c : Caller) (v : Word)
  | takeoverSettle
  | remirrorDone
  | handoffGiveUp
  | tapeResumeTimeout (p : Nat)
  | activateRejoinTimeout
  -- pair link, spill, replication
  | plTrainDone (txGood rxGood : BitVec 32) (peerSide peerNewest : Nat) (peerAlone : Bool)
  | plHeartbeatRx (h : PlHead) (newest st : Nat)
  | plHeartbeatTx
  | plAckRx (h : PlHead) (mir bulk : Nat)
  | plNakRx (h : PlHead) (chan seq : Nat)
  | plCreditRx (h : PlHead) (mir bulk : Nat)
  | plPfailRx (h : PlHead)
  | plControlRx (h : PlHead) (step : CtlStep) (arg : Nat)
  | plPlaceRx (h : PlHead) (o p off : Nat) (bytes : List Byte)
  | plLpageRx (h : PlHead) (o p use key : Nat)
  | plPrecRx (h : PlHead) (r : PRec)
  | plCopypageRx (h : PlHead) (o p off : Nat) (bytes : List Byte)
  | plCopyrecRx (h : PlHead) (r : PRec)
  | plLaneBad (out : Bool) (good : BitVec 32)
  | plRetrainDone (out : Bool) (good : BitVec 32)
  | pfailFall (low : Nat)
  | spillExchangeTimeout
  | spillResetTimer
  | replicateCycle (slot : Nat)
  | replicateRetry (slot : Nat)
  -- reset, clocks, power
  | pwrOkFall (low : Nat)
  | pwrOkRise
  | rstLFall (low : Nat)
  | rstLRise
  | watchdogExpire
  | wdkick (c : Caller) (v : Word)
  | islandReady (i : Nat) (dies : List DieReport)
  | trimLoadDone (crcOk : Bool)
  | bootImageReady (src : Nat) (im : BootImage)
  | telltaleEnable
  | pairwaitExpire
  | thermalSample (tj hbm : Nat)
  | thermalTrip
  | clockLoss (refs : BitVec 5)
  | cvrAlert (acks : Bool) (stat : Nat)
  | cvrVidStep (vid : Nat) (below : Bool) (acks : Bool) (iout : Nat)
  | isrstQuiesce (c : Caller) (v : Word)
  | isrstReset (c : Caller) (v : Word)
  | isrstQuiesceReset (c : Caller) (v : Word)
  | quiesceDone (i : Nat)
  | quiesceTimeout (i : Nat)
  -- tape
  | tlSampleRx (p : Nat) (f : SampleFrame)
  | tlStatusRx (p seq : Nat) (chkOk : Bool) (st : TfeStatus)
  | tlRegrspRx (p seq : Nat) (chkOk : Bool) (v : Word)
  | tlCtrlTimer (p : Nat)
  | servoPesUpdate (p : Nat)
  | tlLinkLoss (p : Nat)
  | tlLaneBad (p : Nat) (rx : BitVec 8) (tx : BitVec 4)
  | tlRetryWait (p : Nat)
  | tlTrainDone (p : Nat) (rx : BitVec 8) (tx : BitVec 4)
  | tlAlignDone (p : Nat)
  | tlStateTimeout (p : Nat)
  | tlcfgEnWrite (c : Caller) (p : Nat) (v : Word)
  | tlregWrite (c : Caller) (p : Nat) (v : Word)
  | tpladLoad (c : Caller) (v : Word)
  | tpeqLoad (c : Caller) (v : Word)
  | tplnkLoad (c : Caller) (v : Word)
  | shockInput (p low : Nat)
  | datasetStart (p : Nat)
  | backhitchDone (p : Nat)
  | tapePortIdle (p : Nat)
  -- caches, memory checks
  | writebackAck (level n line : Nat)
  | wtBufferDrain (e : Nat)
  | patrolScrub (mem addr : Nat) (res : ScrubResult)
  | pstoreUncorrectable (why : Nat) (mirrored : Bool)
  | vddPsLow
  | engcfgInvi (c : Caller) (e : Nat) (v : Word)
  | engcfgInvd (c : Caller) (e : Nat) (v : Word)
  | l2cfgInv (c : Caller) (k : Nat) (v : Word)
  | l2cfgLockDisWrite (c : Caller) (k : Nat) (v : Word)
  | ecctRawWrite (c : Caller) (v : Word)
  | ecctRawRead (c : Caller) (v : Word)
  -- keys, digests, update
  | keyEnrol (c : Caller) (v : Word)
  | keyRemove (c : Caller) (v : Word)
  | claim (pec : Bool) (rcd : List Byte)
  | keyimpPoolKey (c : Caller) (v : Word)
  | keyimpHmacKey (c : Caller) (v : Word)
  | keyimpErase (c : Caller) (v : Word)
  | mkaccWrite (c : Caller) (v : Word)
  | dgctxHashInit (c : Caller) (i : Nat) (v : Word)
  | dgctxHmacInner (c : Caller) (i : Nat) (v : Word)
  | dgctxHmacOuter (c : Caller) (i : Nat) (v : Word)
  | hwinExpire
  | evtimeWrite (c : Caller) (v : Word)
  -- SMBus, pins
  | smbSession (pec : Bool) (step : Nat) (pay : List Byte)
  | smbStateGet (pec : Bool) (addr : Nat)
  | smbStateSet (pec : Bool) (addr : Nat) (v : Word)
  | smbEventPart (pec : Bool) (seq part : Nat)
  | smbEventClear (pec : Bool)
  | smbReset (pec : Bool) (scope n : Nat)
  | smbImageWrite (pec : Bool) (off : Nat) (bytes : List Byte)
  | smbImageEnd (pec : Bool) (len : Nat)
  | smbBscanEnter (pec : Bool)
  | smbBscanLeave (pec : Bool)
  | smbTap (pec : Bool) (n : Nat) (tms tdi : List Bool)
  | smbAlertResponse
  | smbSessionTimeout
  | telltaleBeat
  -- client side of replication; timeouts
  | sessionChallengeRx (k : Rx) (nh idkey sg : List Byte)
  | sessionResultRx (k : Rx) (status tier : List Byte)
  | dieBusyTimeout (die : Nat)
  | programTimeout (die : Nat)
  | vccqNfRecover
  | thermalTripRelease
deriving DecidableEq, Repr

end Sys2Proof
end

