-- ==== Sys2Proof/Machine/State.lean ====
section
/-! DEFINITION. The state of the head as plain data, the stops, and the state after reset: everything the chapters give
one head (threads, caches, memories, registers, queues, journals, contracts, connections, windows, volumes, the lehr,
the pair link, reduction, flash, tape, keys, reset, power, pins), the mirror copies it holds of its peer, and the queue
of the commands that wait. -/

namespace Sys2Proof.Machine

/-- Why a step stops although the command has a meaning: the outcome the spec calls undefined (R9), where it names
no effect at all. It is safe: the model goes no further where the head may do anything. -/
inductive Fault where
  /-- a cache was enabled without the invalidate of R396; raised by register writes of ENGCFG and L2CFG. Safe. -/
  | cacheEnabledWithoutInvalidate
deriving DecidableEq, Repr

/-- Why the model gives a command no meaning. -/
inductive Refusal where
  /-- the command's meaning is not modelled (only arms of the dispatch raise it). Safe. -/
  | notModelled (mnemonic : String)
deriving DecidableEq, Repr

/-- What the head sends: packets, frames, request transfers, answers on SMBus (newest first in `Head.out`). An
observation of the model: nothing reads it. -/
inductive Output where
  /-- a frame on a host link: the link, its MAC address, the VLAN of its tag, what it carries -/
  | eth (link mac : Nat) (vlan : Option Nat) (body : EthBody)
  /-- a frame on the pair link: its bytes (R285) and what it says -/
  | pl (bytes : List Byte) (f : PlFrame)
  | cvr (op arg : Nat)
  /-- a frame on the transport link of a port: header and payload words (R348) -/
  | tl (port : Nat) (frame : List Word)
  /-- an operation started on a NAND die -/
  | nand (die : Nat) (op : NandOp)
  | smb (bytes : List Byte)
  | smbNak
  | tells (v : BitVec 5)
deriving DecidableEq, Repr

/-- The answer to the last register access or SMBus transfer that came as a command of its own. -/
structure Reply where
  status : Status
  value  : Word
  bytes  : List Byte
deriving DecidableEq, Repr

/-- Engines, caches, memories, buffer pools (chapters 2 and 13). HBM and scratch are cells in canonical form, with the
poisoned 64-bit words (by word number) beside them; `chk` holds the check bits of words whose stored check was written
raw (R408), keyed by memory and word. -/
structure Core where
  threads : Sparse Thread
  hwq     : Sparse (List Word)
  l1      : Sparse L1
  l2      : Sparse L2
  hbm     : List Host.Cell
  hbmP    : Sparse Bool
  scr     : List Host.Cell
  scrP    : Sparse Bool
  chk     : Sparse Nat
  raw     : Sparse Word
  pools   : Sparse BPool
  /-- ECCSTAT and ECCLAST by memory: CORR, REPT, UNC, KIND, ADDR -/
  ecc     : Sparse (Nat × Nat × Nat × Nat × Nat)
  /-- addresses corrected in the present and in the previous patrol pass (R406), by memory -/
  scrubNow  : Sparse (List Nat)
  scrubPrev : Sparse (List Nat)
  /-- the local PSTORE, and the peer's, declared failed (R407) -/
  psFail  : Bool
  psPeer  : Bool
  /-- times of uncorrectable PSTORE lines in the last 24 h, newest first -/
  psUnc   : List Nat
deriving DecidableEq, Repr

/-- Queues, commands, journals, contracts (chapters 3, 4, 6). Keys of `queues` and `streams`: side × 65,536 + number. -/
structure Work where
  queues : Sparse Queue
  /-- the queue to which a stream is bound, plus 1 -/
  streams : Sparse Nat
  jour   : Two Journal
  cmds   : List Cmd
  verbs  : List HVerb
  vid    : Nat
  contracts : Sparse (Option Contract)
  cost   : CostTable
  readMostly : Bool
  /-- start of a takeover or hand-off event, by the side taken over (R103) -/
  event  : Two (Option Nat)
  epochs : Nat
  /-- what commands with a MARK or FLUSH that are not final cover, by side and number (R153, R154) -/
  covers : List ((Nat × Nat) × List (Nat × Option Nat))
  /-- tokens drawn in the present epoch on HOST_IN, PAIR_LINK, NAND and JOURNAL (R88) -/
  spent  : List Nat
  /-- writes that answer once their setting is in both PSTOREs (R501): the frame awaited and the status -/
  owed   : List (Option Nat × Status)
deriving DecidableEq, Repr

/-- Connections, windows, host ports (chapter 5). -/
structure Net where
  conns   : List Conn
  windows : List Window
  paths   : List Path
  up      : BitVec 32
  /-- head addresses held, by side (R111) -/
  addrs   : Two Bool
  hellos  : List Hello
  /-- proofs checked in the current second (R423): the second and the count -/
  proofs  : Nat × Nat
  /-- time of the last CLOSE with reason UNKNOWN by source address (Table 5-5) -/
  unk     : Sparse Nat
  /-- echo requests answered in the current second (Table 5-1): the second and the count -/
  echo    : Nat × Nat
  /-- links that a received pause stops, with the time it ends -/
  paused  : Sparse Nat
  /-- frames that wait for a paused link, oldest first -/
  txq     : List EthOut
  /-- connections in the order of their last packet, newest first: which of them the context cache holds (R119) -/
  recent  : List Nat
  /-- events counted, by code (R146) -/
  evs     : Sparse Nat
  /-- outbound windows that the end of their connection has released: side and key (R141, R144) -/
  goneOut : List (Nat × Nat)
deriving DecidableEq, Repr

/-- Volumes, groups, atomic slots (chapters 3, 8, 10). -/
structure Vols where
  vols    : List Volume
  /-- cut counters of consistency groups (R303); 0 stands for the first, 1 -/
  cuts    : Sparse Nat
  atoms   : List ASlot
  drops   : List DropRec
  deltas  : List Delta
  ndelta  : Two Nat
  /-- page directories: a page, its side, its flash address (R232) -/
  dirs    : List (MPage × Nat × Nat)
  /-- pages changed since they were written, with their sides -/
  dirty   : List (MPage × Nat)
  /-- what written pages say on flash (R232, R283) -/
  copies  : List PageCopy
  /-- fine units, most recently written first (R230): (volume, coarse unit) -/
  fines   : List (Nat × Nat)
  /-- small writes that a coarse unit has taken within the promotion window (R230): (volume, unit, time) -/
  small   : List (Nat × Nat × Nat)
  /-- units to be destaged afresh because their recipe would be too long (R230) -/
  afresh  : List Afresh
  /-- deletions that a register write of its own waits for (R225, R226): of a pool or of a volume, its number -/
  ends    : List (Bool × Nat)
deriving DecidableEq, Repr

/-- The pair: lehr pages, link, spill, fences' consequences, replication (chapters 6, 9, 10). -/
structure Pair where
  /-- the lehr size in force in GiB (R275) -/
  size    : Nat
  /-- size of the peer's lehr in force, as last known, in GiB (R275) -/
  peerSize : Nat
  lehr    : List LPage
  /-- pages drawn from a contract's lehr reservation (R96, R139): page identity, contract -/
  drawn   : List (Nat × Nat)
  /-- pages of the unmirrored window area in use, with their bytes -/
  unm     : List LPage
  link    : Link
  spill   : Two Spill
  sphase  : SpillPhase
  spillAt : Nat
  peerLost : Bool
  solo    : Bool
  remir   : Bool
  /-- pages and PSTORE structures still to be copied in re-mirroring (R281) -/
  remirLeft : Nat
  serve   : Two Bool
  handoff : Option Handoff
  takeover : Takeover
  tkSide  : Nat
  reps    : Sparse (Option Rep)
  /-- newest journal number M of a taken-over side (R271), new journal start of R283 -/
  mark    : Two Nat
  /-- restart of this head while the peer served alone: it waits to be re-mirrored (R273) -/
  rejoin  : Bool
  /-- event reservation of this head's side as held by the peer (R446) -/
  evres   : Two Nat
  fence   : Fence
  /-- the tape jobs that run, as their PSTORE records name them (R384): the command by side × 2 + port -/
  jobs    : Sparse (Option (Nat × Nat))
  /-- free space of the pools of each side before reservations, and whether they are worn there (R94): the peer's as it last sent
  it, this head's own as last sent -/
  room    : Two (List (Nat × Int × Bool))
  /-- what the mirror channel has brought since this head began to be re-mirrored (R281): records, pages -/
  newer   : List (Nat × Nat × Nat)
  /-- what the peer was last told of a side's dies and directories -/
  said    : Two (Option Media)
deriving DecidableEq, Repr

/-- Data reduction (chapter 7). -/
structure Reduce where
  gear    : Gear
  huff    : Sparse (Option Huff)
  huffV   : Nat
  gslots  : Sparse (Option GSlot)
  hot     : List HotWay
  cold    : List ColdPage
  /-- dedupe domains whose cold index is read again for the COLD filter (R183): pool, side, the pages read so far -/
  unread  : List (Nat × Nat × List Nat)
  extents : List Extent
  nextExt : Nat
  /-- evicted entries that wait for their cold page (R186): (pool, side, entry) -/
  evicted : List (Nat × Nat × IdxEntry)
  units   : Sparse DUnit
  /-- requests that wait for a unit, in arrival order: compression, decompression -/
  waits   : Two (List UReq)
  /-- readers whose containers a unit has decompressed (R202) -/
  opened  : List Reader
  /-- cold lookups made in the present epoch -/
  clook   : Nat
  /-- hot buckets whose COLD bit is set (R182) -/
  coldB   : List Nat
deriving DecidableEq, Repr

/-- NAND channels, translation, stripes (chapters 8 and 9). -/
structure Flash where
  fams    : List Family
  famV    : Nat
  ldpc    : List LdpcSel
  ldpcV   : Nat
  dies    : Sparse (Option Die)
  groups  : Sparse Group
  /-- operations in progress on dies -/
  ops     : List NOp
  /-- operations that wait for their die, its port, or capacity (R88, R210, R219), with whether contracted data is theirs -/
  waits   : List (NOp × Bool)
  pools   : List Pool
  bands   : List Band
  closes  : Nat
  chunks  : List ChunkEnt
  /-- the last chunk number given on a side -/
  nextChunk : Two Nat
  gc      : List GcSlot
  jour    : List SJRec
  bitmap  : Two (List Nat)
  /-- wear-levelling moves of the current hour: the hour and the count (R237) -/
  wl      : Nat × Nat
  rbPoison : Two Nat
  /-- member reads that have timed out and are still in progress (R259): band, stripe, position -/
  late    : List (Nat × Nat × Nat)
  /-- bands still to be resynchronised after the loss of both copies of the stripe journal (R258) -/
  unsync  : List Nat
  /-- tokens of the epoch that rebuild has taken of the NAND buses (R261) -/
  rbSpent : Nat
  /-- codewords that readers wait for -/
  wants   : List Want
  vccqOff : Bool
  lastBitmap : Nat
deriving DecidableEq, Repr

/-- Tape ports and tables (chapters 11 and 12). -/
structure Tape where
  ports  : Two Port
  linkT  : LinkTab
  ladder : Ladder
  eq     : EqTab
  weak   : List WeakEnt
deriving DecidableEq, Repr

/-- Keys, sessions, digests, firmware (chapter 14). -/
structure Keys where
  slots  : Sparse (Option KeyEnt)
  hkeys  : Sparse (Option HKey)
  dg     : Sparse DgCtx
  pwk    : Option (List Byte)
  /-- ephemeral key of KEYX per connection -/
  keyx   : Sparse (List Byte)
  fw     : Fw
deriving DecidableEq, Repr

/-- Reset, clocks, power, pins, SMBus (chapters 16 and 17). -/
structure Sys where
  islands : List Island
  rst     : Rst
  pins    : Pins
  power   : Power
  smb     : Smb
deriving DecidableEq, Repr

/-- Everything but the queue of waiting commands. `regs` is the register file: stored fields keyed by side copy,
register and index. `fresh` counts the free values taken (the model's own field). -/
structure Head where
  core  : Core
  regs  : Sparse Word
  rcd   : Recorder
  work  : Work
  net   : Net
  vols  : Vols
  pair  : Pair
  red   : Reduce
  fl    : Flash
  tape  : Tape
  keys  : Keys
  sys   : Sys
  now   : Nat
  tset  : Bool
  reply : Option Reply
  out   : List Output
  fresh : Nat
deriving DecidableEq, Repr

/-- The state of the block: the commands that wait, first in, first out, and the head. -/
structure State where
  pending : List Instr
  head    : Head
deriving DecidableEq, Repr

/-! ## The state after reset

The moment right after the first release of MI in a power-up of a head that was never configured (Table 16-4, event 2):
PWR_OK and RST_L are high, the straps are sampled, the trim load runs, every other island is still in reset. Nothing is
stored. Values the spec does not give for that moment are named in log entry 1. -/

/-- Engines, caches and memories after reset. -/
def Core.blank : Core :=
  { threads := [], hwq := [], l1 := [], l2 := [], hbm := [], hbmP := [], scr := [], scrP := [], chk := [], raw := []
    pools := [], ecc := [], scrubNow := [], scrubPrev := [], psFail := false, psPeer := false, psUnc := [] }

/-- Queues, commands, journals and contracts of a head that never took a command. -/
def Work.blank : Work :=
  { queues := [], streams := [], jour := Two.both Journal.blank, cmds := [], verbs := [], vid := 1, contracts := []
    cost := defaultCost, readMostly := false, event := Two.both none, epochs := 0, covers := []
    spent := [0, 0, 0, 0], owed := [] }

/-- No connection, no window. -/
def Net.blank : Net :=
  { conns := [], windows := [], paths := [], up := 0, addrs := Two.both false, hellos := [], proofs := (0, 0)
    unk := [], echo := (0, 0), paused := [], txq := [], recent := [], evs := [], goneOut := [] }

/-- No volume. -/
def Vols.blank : Vols :=
  { vols := [], cuts := [], atoms := [], drops := [], deltas := [], ndelta := Two.both 0, dirs := [], dirty := []
    copies := [], fines := [], small := [], afresh := [], ends := [] }

/-- The fence of a head that has not yet met its peer. -/
def Fence.blank : Fence := { fenced := false, tie := false, peer := .absent, conflict := false, fatal := false }

/-- The pair as a head sees it before its link has trained. -/
def Pair.blank : Pair :=
  { size := 24, lehr := [], drawn := [], unm := [], link := Link.blank, spill := Two.both Spill.blank, sphase := .none, spillAt := 0
    peerSize := 24, peerLost := false, solo := false, remir := false, remirLeft := 0, serve := Two.both false, handoff := none
    takeover := .none, tkSide := 0, reps := [], mark := Two.both 0, rejoin := false, evres := Two.both 0
    fence := Fence.blank, jobs := [], room := Two.both [], newer := [], said := Two.both none }

/-- Reduction without data. -/
def Reduce.blank : Reduce :=
  { gear := defaultGear, huff := [], huffV := 0, gslots := [], hot := [], cold := [], unread := [], extents := []
    nextExt := 1, evicted := [], units := [], waits := Two.both [], opened := [], clook := 0, coldB := [] }

/-- Flash of which nothing is known yet. -/
def Flash.blank : Flash :=
  { fams := [], famV := 0, ldpc := defaultLdpc, ldpcV := 0, dies := [], groups := [], ops := [], waits := [], pools := [], bands := []
    closes := 0, chunks := [], nextChunk := Two.both 0, gc := [], jour := [], bitmap := Two.both [], wl := (0, 0)
    rbPoison := Two.both 0, late := [], unsync := [], rbSpent := 0, wants := [], vccqOff := false, lastBitmap := 0 }

/-- Both tape ports without cartridges. -/
def Tape.blank : Tape :=
  { ports := Two.both Port.blank, linkT := defaultLink, ladder := defaultLadder, eq := defaultEq, weak := [] }

/-- An empty key table (R420). -/
def Keys.blank : Keys :=
  { slots := [], hkeys := [], dg := [], pwk := none, keyx := [], fw := Fw.blank }

/-- Islands, reset state, pins, power and SMBus right after MI is released. Straps: SIDE_SEL 0, CLK_SEL and BOOT_SEL 0b11
(DESIGN CHOICE, log entry 1). -/
def Sys.blank : Sys :=
  { islands := { Island.blank with st := .running } :: List.replicate 21 Island.blank
    rst := { active := [], cause := 0, bootn := 0, straps := 30, trimv := false, trimLd := true, fails := 0, tflt := false
             bflt := false, bsrc := 0, t0 := 0, pwrAt := 0, image := false, ttOn := false, beat := false, kicked := false
             after := none, pend := [] }
    pins := { pwrOk := true, rstL := true, pfailL := true, fenceOut := true, fenceIn := true, shock := Two.both true
              cvrAlertL := true, sideSel := 0, clkSel := 3, bootSel := 3 }
    power := { vid := 150, iout := 0, fault := false, rstat := 0, fails := 0, vidAt := 0, tj := 0, tjpeak := 0, thr := false
               trip := false, held := false, loss := 0, lock := 0x80, badsel := false, dblRef := false, vccqOk := true }
    smb := { sess := none, hello := none, read := 0, bscan := false, tapIr := 1, tapSt := 0, tapDr := [], tapUpd := [] } }

/-- The head right after reset. -/
def Head.blank : Head :=
  { core := Core.blank, regs := [], rcd := Recorder.blank, work := Work.blank, net := Net.blank, vols := Vols.blank
    pair := Pair.blank, red := Reduce.blank, fl := Flash.blank, tape := Tape.blank, keys := Keys.blank, sys := Sys.blank
    now := 0, tset := false, reply := none, out := [], fresh := 0 }

/-- The machine right after reset. -/
def State.reset : State := { pending := [], head := Head.blank }

end Sys2Proof.Machine
end

