-- ==== Sys2Proof/Machine/Ops.lean ====
section
/-! DEFINITION. The named operations that every family shares: sparse tables, memory cells, bytes and words (R4), bit
fields (R3), lists with keys, the CRCs. -/

namespace Sys2Proof.Machine

/-! ## Sparse tables -/

/-- The entry at a key, `d` where none is listed. -/
def look {α : Type} (d : α) : Sparse α → Nat → α
  | [], _ => d
  | (k', v) :: r, k => if k' = k then v else look d r k

/-- The table with the entry at a key replaced; an entry equal to the default `d` is not listed. Keys stay strictly
rising. -/
def place {α : Type} [DecidableEq α] (d : α) : Sparse α → Nat → α → Sparse α
  | [], k, v => if v = d then [] else [(k, v)]
  | (k', v') :: r, k, v =>
    if k < k' then (if v = d then (k', v') :: r else (k, v) :: (k', v') :: r)
    else if k = k' then (if v = d then r else (k, v) :: r)
    else (k', v') :: place d r k v

/-- Every key of a table is above `b`, keys rise strictly, and no entry is the default. -/
def canonAbove {α : Type} [DecidableEq α] (d : α) : Nat → Sparse α → Bool
  | _, [] => true
  | b, (k, v) :: r => decide (b < k) && decide (v ≠ d) && canonAbove d k r

/-- The canonical form of a sparse table: keys strictly rising, no entry equal to the default. -/
def canon {α : Type} [DecidableEq α] (d : α) : Sparse α → Bool
  | [] => true
  | (k, v) :: r => decide (v ≠ d) && canonAbove d k r

/-! ## Memory -/

/-- A memory's canonical form: addresses strictly rising, no cell equal to what an unlisted address reads as (0). -/
def Memory.wf (m : List Host.Cell) : Bool := canon (0 : Byte) m

/-- One byte of a memory; a byte that nothing has written reads 0 (DESIGN CHOICE, log entry 2). -/
def readByte (m : List Host.Cell) (a : Nat) : Byte := look (0 : Byte) m a

/-- A memory with one byte written. -/
def writeByte (m : List Host.Cell) (a : Nat) (b : Byte) : List Host.Cell := place (0 : Byte) m a b

/-- `n` bytes from address `a` upwards. -/
def readBytes (m : List Host.Cell) (a : Nat) : Nat → List Byte
  | 0 => []
  | n + 1 => readByte m a :: readBytes m (a + 1) n

/-- Bytes written from address `a` upwards. -/
def writeBytes (m : List Host.Cell) (a : Nat) : List Byte → List Host.Cell
  | [] => m
  | b :: r => writeBytes (writeByte m a b) (a + 1) r

/-! ## Bytes, words, fields -/

/-- The number that bytes spell, the first byte least significant (R4). -/
def leNat : List Byte → Nat
  | [] => 0
  | b :: r => b.toNat + 256 * leNat r

/-- The `n` low bytes of a number, least significant first (R4). -/
def leBytes : Nat → Nat → List Byte
  | 0, _ => []
  | n + 1, x => BitVec.ofNat 8 x :: leBytes n (x / 256)

/-- The number that bytes spell, the first byte most significant (CPT headers, R4). -/
def beNat (l : List Byte) : Nat := leNat l.reverse

/-- Field [hi:lo] of a number (R3). -/
def bits (x hi lo : Nat) : Nat := (x >>> lo) % 2 ^ (hi + 1 - lo)

/-- Bit `i` of a number. -/
def bit (x i : Nat) : Bool := x.testBit i

/-- A Bool as a bit. -/
def bnat (b : Bool) : Nat := if b then 1 else 0

/-- A word from fields given as (lowest bit, value). -/
def pack (fs : List (Nat × Nat)) : Word := BitVec.ofNat 64 (fs.foldl (fun a f => a + f.2 <<< f.1) 0)

/-- Bits hi..lo set. -/
def maskBits (hi lo : Nat) : Nat := (2 ^ (hi + 1 - lo) - 1) <<< lo

/-- A word sign-extended from an immediate of 32 bits (R31, R33, R36, R40). -/
def sext32 (i : BitVec 32) : Word := i.signExtend 64

/-- The number, but at most `m` (a count that saturates). -/
def satAdd (m x k : Nat) : Nat := if x + k ≤ m then x + k else m

/-- ⌈a / b⌉. -/
def ceilDiv (a b : Nat) : Nat := (a + b - 1) / b

/-! ## Lists -/

/-- The first element that passes a test, replaced by `f` of it. -/
def mapFirst {α : Type} (p : α → Bool) (f : α → α) : List α → List α
  | [] => []
  | a :: r => if p a then f a :: r else a :: mapFirst p f r

/-- A number put into an ascending list. -/
def insertNat (a : Nat) : List Nat → List Nat
  | [] => [a]
  | b :: r => if a ≤ b then a :: b :: r else b :: insertNat a r

/-- A list of numbers in ascending order. -/
def sortNat (l : List Nat) : List Nat := l.foldr insertNat []

/-- Elements put in ascending order of a number they carry; equal numbers keep their order. -/
def insertBy {α : Type} (f : α → Nat) (a : α) : List α → List α
  | [] => [a]
  | b :: r => if f a ≤ f b then a :: b :: r else b :: insertBy f a r

/-- A list in ascending order of a number its elements carry. -/
def sortBy {α : Type} (f : α → Nat) (l : List α) : List α := l.foldr (insertBy f) []

/-- The numbers 0 … n−1. -/
def upto (n : Nat) : List Nat := List.range n

/-- A list cut or padded with `d` to length `n`. -/
def fit {α : Type} (d : α) (n : Nat) (l : List α) : List α := (l ++ List.replicate (n - l.length) d).take n

/-- Element `i` of a list, `d` beyond its end. -/
def nth {α : Type} (d : α) (l : List α) (i : Nat) : α := l.getD i d

/-- The list with element `i` replaced. -/
def setNth {α : Type} (l : List α) (i : Nat) (a : α) : List α := l.set i a

/-- The sum of a list of numbers. -/
def sum (l : List Nat) : Nat := l.foldl (· + ·) 0

/-- Bytes of a list written over another from index `o`. -/
def overlay (base : List Byte) (o : Nat) (b : List Byte) : List Byte :=
  base.take o ++ b ++ base.drop (o + b.length)

/-! ## Ranges of bytes, as (start, length) -/

/-- Two ranges share a byte. -/
def meets (a b : Nat × Nat) : Bool := decide (a.1 < b.1 + b.2) && decide (b.1 < a.1 + a.2) && decide (0 < a.2) && decide (0 < b.2)

/-- Ranges with another range added, ranges that touch joined; starts rise. -/
def addRange : List (Nat × Nat) → Nat → Nat → List (Nat × Nat)
  | [], o, n => if n = 0 then [] else [(o, n)]
  | (a, m) :: r, o, n =>
    if n = 0 then (a, m) :: r
    else if o + n < a then (o, n) :: (a, m) :: r
    else if a + m < o then (a, m) :: addRange r o n
    else
      let lo := min a o
      let hi := max (a + m) (o + n)
      addRange r lo (hi - lo)

/-- Every byte of [o, o + n) lies in some range of a list whose ranges are joined. -/
def covered (l : List (Nat × Nat)) (o n : Nat) : Bool :=
  decide (n = 0) || l.any (fun r => decide (r.1 ≤ o) && decide (o + n ≤ r.1 + r.2))

/-! ## CRCs -/

/-- One bit of a reflected CRC with polynomial `p`. -/
def crcStep (p c : Nat) : Nat := if c % 2 = 1 then (c / 2) ^^^ p else c / 2

/-- One byte of a reflected CRC. -/
def crcByte (p c : Nat) (b : Byte) : Nat := (upto 8).foldl (fun c _ => crcStep p c) (c ^^^ b.toNat)

/-- A reflected 32-bit CRC over bytes, initial value and final inversion of all ones. -/
def crcR32 (p : Nat) (l : List Byte) : Nat := (l.foldl (crcByte p) 0xFFFFFFFF) ^^^ 0xFFFFFFFF

/-- CRC-32C. -/
def crc32c (l : List Byte) : Nat := crcR32 0x82F63B78 l

/-- CRC-32 (of IEEE 802.3 and of gzip). -/
def crc32 (l : List Byte) : Nat := crcR32 0xEDB88320 l

/-! ## The shape of a meaning -/

/-- A meaning of a command that acts on the head and leaves the queue alone. -/
def State.run (s : State) (f : Head → Head) : Host.Outcome State Fault Refusal := .next { s with head := f s.head }

/-- A meaning that may stop on an undefined outcome. -/
def State.runE (s : State) (f : Head → Except Fault Head) : Host.Outcome State Fault Refusal :=
  match f s.head with
  | .ok h => .next { s with head := h }
  | .error e => .fault e

/-- The head with one more free value taken. -/
def Head.tick (h : Head) : Head := { h with fresh := h.fresh + 1 }

/-- `n` bytes from the head's random source. -/
def Head.random (h : Head) (n : Nat) : Head × List Byte :=
  ({ h with fresh := h.fresh + n }, (upto n).map (fun i => Config.freeByte (h.fresh + i)))

/-- The head having sent something. -/
def Head.emit (h : Head) (o : Output) : Head := { h with out := o :: h.out }

/-- The head with its answer to a register access or SMBus transfer. -/
def Head.answer (h : Head) (st : Status) (v : Word) (b : List Byte) : Head := { h with reply := some ⟨st, v, b⟩ }

/-- The head with its time moved on to a packet's arrival (R452); time never goes back. -/
def Head.seen (h : Head) (arr : Nat) : Head := { h with now := max h.now arr }

end Sys2Proof.Machine
end

