-- ==== Sys2Proof/Machine/RegMap.lean ====
section
/-! DEFINITION. The registers of the state space (Table 18-2): address, scope, island and fields of each, as the tables
of the chapters give them. Bits of a register that no field of this list covers are reserved (R5). -/

namespace Sys2Proof.Machine

/-- The registers of Table 18-2, by the names of their tables. -/
inductive Reg where
  | SSINFO | TVEC | TPC | TCAUSE | TADDR | VS | ICOUNT | CHARGE
  | QCFG | QSTAT | QIDLE | QTRAPS | ADMSTAT | ALIM | ADMTAB | RUSE
  | CSTAT | CREM | CCNT | CBKT | CPTCFG | CPTTIM | CPTSTAT | CLASS
  | HADDR4 | HADDR6H | HADDR6L | HADDRV | CPTCNT | HPCFG | HPOL | DRSTAT
  | DRGEAR | DRHUF | DRVER | DRLIM | DRCNT | DRCFG | NFCFG | NFGC
  | NFSTAT | NFIDLE | NFFAM | NFLDPC | NFVER | NFCNT | POOLSP | POOLENC
  | POOLCTL | VOLCTL | DIE | STCFG | STSTAT | RBSTAT | STCNT | POOLGEO
  | FNCCFG | FNCSTAT | FNCCTL | LEHRCFG | LEHRSTAT | LEHRUSE | SPILLSTAT | PLSTAT
  | VCG | REPSTAT | TLCFG | TLSTAT | TLREG | TPSTAT | TPSERVO | TPCFG
  | TPCNT | TPLAD | TPEQ | TPLNK | TPVER | TPWEAK | ENGCFG | L2CFG
  | L2STAT | ECCSTAT | ECCLAST | SCRUB | PSCFG | PSSTAT | ECCTA | ECCTD
  | ECCTC | ECCTCTL | POOLCFG | POOLBASE | POOLTHR | POOLSTAT | KEYSTAT | KEYENR
  | MKACC | KEYIMP | FWCFG | FWSTAT | FWSEC | IDKEY | KEYX | HKSTAT
  | KEYINFO | KEYPUB | DGCTX | DGRES | EVNEW | EVFLOOR | EVSTAT | EVTIME
  | RSTSTAT | ISRST | ISCFG | WDCFG | WDKICK | TRIMSTAT | CLKSTAT | BOOTCFG
  | CVRCFG | CVRSTAT | THERMCFG | THERMSTAT | ISTAT
deriving DecidableEq, Repr

/-- Access codes (Table 0-2). -/
inductive Acc where
  | ro | rw | rw1c | wo | rws | rwl
deriving DecidableEq, Repr

/-- What the Reset column gives (R7): a number (or a strap, trim or X entry: not kept), or P, restored from PSTORE. -/
inductive Keep where
  | num | pers
deriving DecidableEq, Repr

/-- A field: bits [hi:lo], access, lowest tier that writes it, reset kind, reset or default value, stated range. -/
structure Fld where
  hi   : Nat
  lo   : Nat
  acc  : Acc
  tier : Tier
  keep : Keep
  dflt : Nat
  min  : Nat
  max  : Nat
deriving DecidableEq, Repr

/-- Scopes (Table 18-1). -/
inductive Scope where
  | T | H | S | P
deriving DecidableEq, Repr

/-- The island that serves a register: one island, or one that its index chooses. -/
inductive Serve where
  | isl (i : Nat)
  /-- ENGCFG e: EI(e div 8), MI for the stewards -/
  | engine
  /-- L2CFG k, L2STAT k: EI k -/
  | peloton
  /-- DIE d: NI(d div 512) -/
  | die
deriving DecidableEq, Repr

/-- A row of the map: addresses base + stride × i + stride2 × j for i < count and j < count2, with index count × j + i. -/
structure RegDef where
  reg    : Reg
  base   : Nat
  stride : Nat
  count  : Nat
  stride2 : Nat
  count2 : Nat
  scope  : Scope
  serve  : Serve
  flds   : List Fld
deriving DecidableEq, Repr

namespace Reg

/-- SSINFO (Table 18-2a). -/
def dSSINFO : RegDef := ⟨.SSINFO, 0x00000000, 0x0, 1, 0x0, 1, .H, .isl 0,
  [⟨63, 48, .ro, .F, .num, 0, 0, 65535⟩, ⟨47, 44, .ro, .F, .num, 0, 0, 15⟩, ⟨43, 40, .ro, .F, .num, 1, 0, 15⟩,
   ⟨33, 32, .ro, .F, .num, 0, 0, 3⟩, ⟨31, 31, .ro, .F, .num, 0, 0, 1⟩, ⟨30, 30, .ro, .F, .num, 0, 0, 1⟩,
   ⟨25, 24, .ro, .F, .num, 0, 0, 3⟩]⟩

/-- TVEC (R49). -/
def dTVEC : RegDef := ⟨.TVEC, 0x00000100, 0x0, 1, 0x0, 1, .T, .isl 3,
  [⟨63, 0, .rw, .F, .num, 0, 0, 0xFFFFFFFFFFFFFFFF⟩]⟩

/-- TPC (R49). -/
def dTPC : RegDef := ⟨.TPC, 0x00000108, 0x0, 1, 0x0, 1, .T, .isl 3,
  [⟨63, 0, .rw, .F, .num, 0, 0, 0xFFFFFFFFFFFFFFFF⟩]⟩

/-- TCAUSE (Table 2-14). -/
def dTCAUSE : RegDef := ⟨.TCAUSE, 0x00000110, 0x0, 1, 0x0, 1, .T, .isl 3,
  [⟨19, 18, .ro, .F, .num, 0, 0, 3⟩, ⟨17, 17, .rw, .F, .num, 0, 0, 1⟩, ⟨13, 8, .ro, .F, .num, 0, 0, 63⟩,
   ⟨7, 0, .ro, .F, .num, 0, 0, 255⟩]⟩

/-- TADDR (R49). -/
def dTADDR : RegDef := ⟨.TADDR, 0x00000118, 0x0, 1, 0x0, 1, .T, .isl 3,
  [⟨63, 0, .rw, .F, .num, 0, 0, 0xFFFFFFFFFFFFFFFF⟩]⟩

/-- VS (R49). -/
def dVS : RegDef := ⟨.VS, 0x00000120, 0x0, 1, 0x0, 1, .T, .isl 3,
  [⟨15, 0, .rw, .F, .num, 0, 0, 65535⟩]⟩

/-- ICOUNT (R49). -/
def dICOUNT : RegDef := ⟨.ICOUNT, 0x00000128, 0x0, 1, 0x0, 1, .T, .isl 3,
  [⟨63, 0, .rw, .F, .num, 0, 0, 0xFFFFFFFFFFFFFFFF⟩]⟩

/-- CHARGE (Table 13-8). -/
def dCHARGE : RegDef := ⟨.CHARGE, 0x00000130, 0x0, 1, 0x0, 1, .T, .isl 3,
  [⟨17, 16, .rw, .F, .num, 0, 0, 3⟩, ⟨15, 0, .rw, .F, .num, 0, 0, 65535⟩]⟩

/-- QCFG (Table 3-10). -/
def dQCFG : RegDef := ⟨.QCFG, 0x04800000, 0x20, 65536, 0x0, 1, .S, .isl 16,
  [⟨63, 63, .rw, .I, .pers, 0, 0, 1⟩, ⟨62, 62, .rw, .I, .pers, 0, 0, 1⟩, ⟨55, 48, .rw, .I, .pers, 0, 0, 73⟩,
   ⟨43, 40, .rw, .I, .pers, 0, 0, 10⟩, ⟨15, 0, .rw, .I, .pers, 100, 1, 65535⟩]⟩

/-- QSTAT (Table 3-11). -/
def dQSTAT : RegDef := ⟨.QSTAT, 0x04800008, 0x20, 65536, 0x0, 1, .S, .isl 16,
  [⟨63, 62, .ro, .F, .num, 0, 0, 3⟩, ⟨61, 61, .ro, .F, .num, 0, 0, 1⟩, ⟨60, 60, .ro, .F, .num, 0, 0, 1⟩,
   ⟨16, 0, .ro, .F, .num, 0, 0, 0x1FFFF⟩]⟩

/-- QIDLE (Table 3-12). -/
def dQIDLE : RegDef := ⟨.QIDLE, 0x04800010, 0x20, 65536, 0x0, 1, .S, .isl 16,
  [⟨47, 32, .ro, .F, .num, 40, 0, 65535⟩, ⟨31, 0, .rw, .I, .pers, 10, 0, 0xFFFFFFFF⟩]⟩

/-- QTRAPS (Table 3-13). -/
def dQTRAPS : RegDef := ⟨.QTRAPS, 0x04800018, 0x20, 65536, 0x0, 1, .S, .isl 16,
  [⟨31, 0, .ro, .F, .num, 0, 0, 0xFFFFFFFF⟩]⟩

/-- ADMSTAT (Table 4-6). -/
def dADMSTAT : RegDef := ⟨.ADMSTAT, 0x04A00000, 0x0, 1, 0x0, 1, .H, .isl 0,
  [⟨63, 63, .ro, .F, .num, 0, 0, 1⟩, ⟨62, 62, .ro, .F, .num, 0, 0, 1⟩, ⟨61, 61, .ro, .F, .num, 0, 0, 1⟩,
   ⟨47, 32, .ro, .F, .pers, 0, 0, 65535⟩, ⟨12, 0, .ro, .F, .pers, 0, 0, 8191⟩]⟩

/-- ALIM (Table 4-7). -/
def dALIM : RegDef := ⟨.ALIM, 0x04A00008, 0x0, 1, 0x0, 1, .P, .isl 0,
  [⟨47, 32, .rw, .I, .pers, 16384, 1, 30720⟩, ⟨15, 0, .rw, .I, .pers, 32768, 1, 49152⟩]⟩

/-- ADMTAB (Table 4-8). -/
def dADMTAB : RegDef := ⟨.ADMTAB, 0x04A00010, 0x0, 1, 0x0, 1, .P, .isl 0,
  [⟨63, 0, .wo, .I, .num, 0, 0, 0xFFFFFFFFFFFFFFFF⟩]⟩

/-- RUSE (Table 4-9). -/
def dRUSE : RegDef := ⟨.RUSE, 0x04A00100, 0x8, 7, 0x0, 1, .H, .isl 0,
  [⟨63, 32, .ro, .F, .pers, 0, 0, 0xFFFFFFFF⟩, ⟨31, 0, .ro, .F, .pers, 0, 0, 0xFFFFFFFF⟩]⟩

/-- CSTAT (Table 4-10). -/
def dCSTAT : RegDef := ⟨.CSTAT, 0x04A10000, 0x20, 4096, 0x0, 1, .P, .isl 0,
  [⟨63, 62, .ro, .F, .pers, 0, 0, 3⟩, ⟨61, 61, .ro, .F, .pers, 0, 0, 1⟩, ⟨47, 32, .ro, .F, .pers, 0, 0, 65535⟩,
   ⟨31, 16, .ro, .F, .pers, 0, 0, 65535⟩]⟩

/-- CREM (Table 4-11). -/
def dCREM : RegDef := ⟨.CREM, 0x04A10008, 0x20, 4096, 0x0, 1, .P, .isl 0,
  [⟨63, 0, .ro, .F, .pers, 0, 0, 0xFFFFFFFFFFFFFFFF⟩]⟩

/-- CCNT (Table 4-12). -/
def dCCNT : RegDef := ⟨.CCNT, 0x04A10010, 0x20, 4096, 0x0, 1, .P, .isl 0,
  [⟨63, 32, .ro, .F, .pers, 0, 0, 0xFFFFFFFF⟩, ⟨31, 16, .ro, .F, .pers, 0, 0, 65535⟩,
   ⟨15, 0, .ro, .F, .pers, 0, 0, 65535⟩]⟩

/-- CBKT (Table 4-11). -/
def dCBKT : RegDef := ⟨.CBKT, 0x04A10018, 0x20, 4096, 0x0, 1, .P, .isl 0,
  [⟨63, 0, .ro, .F, .pers, 0, 0, 0xFFFFFFFFFFFFFFFF⟩]⟩

/-- CPTCFG (Table 5-14). -/
def dCPTCFG : RegDef := ⟨.CPTCFG, 0x05000000, 0x0, 1, 0x0, 1, .P, .isl 16,
  [⟨63, 48, .rw, .I, .pers, 6416, 1, 65535⟩, ⟨47, 40, .rw, .I, .pers, 8, 1, 64⟩, ⟨39, 32, .rw, .I, .pers, 4, 1, 100⟩,
   ⟨7, 0, .rw, .I, .pers, 16, 1, 64⟩]⟩

/-- CPTTIM (Table 5-15). -/
def dCPTTIM : RegDef := ⟨.CPTTIM, 0x05000008, 0x0, 1, 0x0, 1, .P, .isl 16,
  [⟨63, 48, .rw, .I, .pers, 10, 1, 1000⟩, ⟨47, 32, .rw, .I, .pers, 50, 10, 100⟩, ⟨31, 16, .rw, .I, .pers, 30, 1, 3600⟩]⟩

/-- CPTSTAT (Table 5-18). -/
def dCPTSTAT : RegDef := ⟨.CPTSTAT, 0x05000018, 0x0, 1, 0x0, 1, .H, .isl 16,
  [⟨45, 24, .ro, .F, .num, 0, 0, 0x3FFFFF⟩, ⟨18, 0, .ro, .F, .num, 0, 0, 0x7FFFF⟩]⟩

/-- CLASS (Table 5-16). -/
def dCLASS : RegDef := ⟨.CLASS, 0x05000040, 0x8, 8, 0x0, 1, .P, .isl 16,
  [⟨13, 8, .rw, .I, .pers, 0, 0, 63⟩, ⟨7, 0, .rw, .I, .pers, 0, 1, 255⟩]⟩

/-- HADDR4 (Table 5-17). -/
def dHADDR4 : RegDef := ⟨.HADDR4, 0x05000080, 0x0, 1, 0x0, 1, .S, .isl 16,
  [⟨31, 0, .rw, .I, .pers, 0, 0, 0xFFFFFFFF⟩]⟩

/-- HADDR6H (Table 5-17). -/
def dHADDR6H : RegDef := ⟨.HADDR6H, 0x05000088, 0x0, 1, 0x0, 1, .S, .isl 16,
  [⟨63, 0, .rw, .I, .pers, 0, 0, 0xFFFFFFFFFFFFFFFF⟩]⟩

/-- HADDR6L (Table 5-17). -/
def dHADDR6L : RegDef := ⟨.HADDR6L, 0x05000090, 0x0, 1, 0x0, 1, .S, .isl 16,
  [⟨63, 0, .rw, .I, .pers, 0, 0, 0xFFFFFFFFFFFFFFFF⟩]⟩

/-- HADDRV (Table 5-17). -/
def dHADDRV : RegDef := ⟨.HADDRV, 0x05000098, 0x0, 1, 0x0, 1, .S, .isl 16,
  [⟨12, 12, .rw, .I, .pers, 0, 0, 1⟩, ⟨11, 0, .rw, .I, .pers, 0, 0, 4095⟩]⟩

/-- CPTCNT (Table 5-19). -/
def dCPTCNT : RegDef := ⟨.CPTCNT, 0x05000100, 0x8, 13, 0x0, 1, .H, .isl 16,
  [⟨63, 0, .rw1c, .I, .num, 0, 0, 0xFFFFFFFFFFFFFFFF⟩]⟩

/-- HPCFG (Table 17-8). -/
def dHPCFG : RegDef := ⟨.HPCFG, 0x05000200, 0x0, 1, 0x0, 1, .H, .isl 16,
  [⟨15, 8, .rw, .I, .pers, 255, 0, 255⟩, ⟨7, 0, .rw, .I, .pers, 0, 0, 255⟩]⟩

/-- HPOL (Table 17-8). -/
def dHPOL : RegDef := ⟨.HPOL, 0x05000208, 0x0, 1, 0x0, 1, .H, .isl 16,
  [⟨63, 32, .rw, .I, .pers, 0, 0, 0xFFFFFFFF⟩, ⟨31, 0, .rw, .I, .pers, 0, 0, 0xFFFFFFFF⟩]⟩

/-- DRSTAT (Table 7-9). -/
def dDRSTAT : RegDef := ⟨.DRSTAT, 0x06000000, 0x0, 1, 0x0, 1, .H, .isl 15,
  [⟨63, 63, .ro, .F, .num, 0, 0, 1⟩, ⟨61, 32, .ro, .F, .num, 0, 0, 0x3FFFFFFF⟩, ⟨16, 0, .ro, .F, .num, 0, 0, 0x1FFFF⟩]⟩

/-- DRGEAR (Table 7-10). -/
def dDRGEAR : RegDef := ⟨.DRGEAR, 0x06000008, 0x0, 1, 0x0, 1, .P, .isl 15,
  [⟨63, 0, .wo, .I, .num, 0, 0, 0xFFFFFFFFFFFFFFFF⟩]⟩

/-- DRHUF (Table 7-10). -/
def dDRHUF : RegDef := ⟨.DRHUF, 0x06000018, 0x0, 1, 0x0, 1, .P, .isl 15,
  [⟨63, 0, .wo, .I, .num, 0, 0, 0xFFFFFFFFFFFFFFFF⟩]⟩

/-- DRVER (Table 7-11). -/
def dDRVER : RegDef := ⟨.DRVER, 0x06000010, 0x0, 1, 0x0, 1, .P, .isl 15,
  [⟨63, 48, .ro, .F, .pers, 0, 0, 65535⟩, ⟨14, 0, .ro, .F, .pers, 0, 0, 32767⟩]⟩

/-- DRLIM (Table 7-12). -/
def dDRLIM : RegDef := ⟨.DRLIM, 0x06000020, 0x0, 1, 0x0, 1, .P, .isl 15,
  [⟨47, 32, .rw, .I, .pers, 500, 10, 10000⟩, ⟨10, 0, .rw, .I, .pers, 16, 0, 1024⟩]⟩

/-- DRCNT (Table 7-14). -/
def dDRCNT : RegDef := ⟨.DRCNT, 0x06000100, 0x8, 11, 0x0, 1, .H, .isl 15,
  [⟨63, 0, .rw1c, .I, .num, 0, 0, 0xFFFFFFFFFFFFFFFF⟩]⟩

/-- DRCFG (Table 7-13). -/
def dDRCFG : RegDef := ⟨.DRCFG, 0x06010000, 0x8, 256, 0x0, 1, .P, .isl 15,
  [⟨63, 63, .rw, .I, .pers, 1, 0, 1⟩, ⟨62, 62, .rw, .I, .pers, 0, 0, 1⟩, ⟨61, 60, .rw, .I, .pers, 3, 0, 3⟩,
   ⟨59, 56, .rw, .I, .pers, 0, 0, 15⟩, ⟨39, 32, .ro, .F, .pers, 0, 0, 255⟩,
   ⟨18, 0, .rw, .I, .pers, 8192, 4096, 0x40000⟩]⟩

/-- NFCFG (Table 8-12). -/
def dNFCFG : RegDef := ⟨.NFCFG, 0x07000000, 0x0, 1, 0x0, 1, .P, .isl 17,
  [⟨63, 48, .rw, .I, .pers, 200, 10, 10000⟩, ⟨47, 40, .rw, .I, .pers, 4, 1, 32⟩, ⟨39, 32, .rw, .I, .pers, 7, 1, 90⟩,
   ⟨31, 24, .rw, .I, .pers, 4, 1, 255⟩, ⟨23, 8, .rw, .I, .pers, 1000, 1, 65535⟩]⟩

/-- NFGC (Table 8-13). -/
def dNFGC : RegDef := ⟨.NFGC, 0x07000008, 0x0, 1, 0x0, 1, .P, .isl 17,
  [⟨63, 48, .rw, .I, .pers, 8, 2, 1024⟩, ⟨47, 32, .rw, .I, .pers, 4, 2, 256⟩, ⟨31, 16, .rw, .I, .pers, 2, 0, 1000⟩]⟩

/-- NFSTAT (Table 8-14). -/
def dNFSTAT : RegDef := ⟨.NFSTAT, 0x07000010, 0x0, 1, 0x0, 1, .H, .isl 17,
  [⟨63, 32, .ro, .F, .num, 0, 0, 0xFFFFFFFF⟩, ⟨31, 31, .ro, .F, .num, 0, 0, 1⟩,
   ⟨25, 0, .ro, .F, .num, 0, 0, 0x3FFFFFF⟩]⟩

/-- NFIDLE (Table 8-15). -/
def dNFIDLE : RegDef := ⟨.NFIDLE, 0x07000018, 0x0, 1, 0x0, 1, .P, .isl 17,
  [⟨47, 32, .ro, .F, .num, 150, 0, 65535⟩, ⟨31, 0, .rw, .I, .pers, 1000, 0, 0xFFFFFFFF⟩]⟩

/-- NFFAM (Table 8-16). -/
def dNFFAM : RegDef := ⟨.NFFAM, 0x07000020, 0x0, 1, 0x0, 1, .P, .isl 17,
  [⟨63, 0, .wo, .I, .num, 0, 0, 0xFFFFFFFFFFFFFFFF⟩]⟩

/-- NFLDPC (Table 8-16). -/
def dNFLDPC : RegDef := ⟨.NFLDPC, 0x07000028, 0x0, 1, 0x0, 1, .P, .isl 17,
  [⟨63, 0, .wo, .I, .num, 0, 0, 0xFFFFFFFFFFFFFFFF⟩]⟩

/-- NFVER (Table 8-16). -/
def dNFVER : RegDef := ⟨.NFVER, 0x07000030, 0x0, 1, 0x0, 1, .P, .isl 17,
  [⟨63, 48, .ro, .F, .pers, 0, 0, 65535⟩, ⟨47, 32, .ro, .F, .pers, 0, 0, 65535⟩]⟩

/-- NFCNT (Table 8-20). -/
def dNFCNT : RegDef := ⟨.NFCNT, 0x07000100, 0x8, 14, 0x0, 1, .H, .isl 17,
  [⟨63, 0, .rw1c, .I, .num, 0, 0, 0xFFFFFFFFFFFFFFFF⟩]⟩

/-- POOLSP (Table 8-17). -/
def dPOOLSP : RegDef := ⟨.POOLSP, 0x07010000, 0x8, 512, 0x0, 1, .P, .isl 17,
  [⟨63, 62, .ro, .F, .pers, 0, 0, 3⟩, ⟨59, 40, .ro, .F, .pers, 0, 0, 0xFFFFF⟩,
   ⟨39, 20, .ro, .F, .pers, 0, 0, 0xFFFFF⟩, ⟨19, 0, .ro, .F, .pers, 0, 0, 0xFFFFF⟩]⟩

/-- POOLENC (Table 8-18). -/
def dPOOLENC : RegDef := ⟨.POOLENC, 0x07020000, 0x8, 256, 0x0, 1, .P, .isl 17,
  [⟨63, 63, .ro, .F, .pers, 0, 0, 1⟩, ⟨62, 62, .ro, .F, .num, 0, 0, 1⟩, ⟨61, 61, .ro, .F, .pers, 0, 0, 1⟩]⟩

/-- POOLCTL (Table 8-23). -/
def dPOOLCTL : RegDef := ⟨.POOLCTL, 0x07030000, 0x0, 1, 0x0, 1, .P, .isl 17,
  [⟨63, 0, .wo, .I, .num, 0, 0, 0xFFFFFFFFFFFFFFFF⟩]⟩

/-- VOLCTL (Table 8-23). -/
def dVOLCTL : RegDef := ⟨.VOLCTL, 0x07030008, 0x0, 1, 0x0, 1, .P, .isl 17,
  [⟨63, 0, .wo, .O, .num, 0, 0, 0xFFFFFFFFFFFFFFFF⟩]⟩

/-- DIE (Table 8-19). -/
def dDIE : RegDef := ⟨.DIE, 0x07080000, 0x8, 2048, 0x0, 1, .P, .die,
  [⟨63, 59, .ro, .F, .pers, 0, 0, 31⟩, ⟨58, 56, .ro, .F, .pers, 0, 0, 7⟩, ⟨47, 32, .ro, .F, .pers, 0, 0, 65535⟩,
   ⟨31, 16, .ro, .F, .pers, 0, 0, 65535⟩, ⟨15, 0, .ro, .F, .pers, 0, 0, 65535⟩]⟩

/-- STCFG (Table 9-6). -/
def dSTCFG : RegDef := ⟨.STCFG, 0x07800000, 0x0, 1, 0x0, 1, .P, .isl 17,
  [⟨63, 56, .rw, .I, .pers, 8, 1, 100⟩, ⟨55, 48, .rw, .I, .pers, 16, 1, 255⟩, ⟨47, 32, .rw, .I, .pers, 20, 1, 1000⟩,
   ⟨31, 24, .rw, .I, .pers, 50, 10, 90⟩, ⟨23, 16, .rw, .I, .pers, 50, 0, 100⟩]⟩

/-- STSTAT (Table 9-7). -/
def dSTSTAT : RegDef := ⟨.STSTAT, 0x07800008, 0x0, 1, 0x0, 1, .S, .isl 17,
  [⟨63, 62, .ro, .F, .num, 0, 0, 3⟩, ⟨61, 61, .ro, .F, .num, 0, 0, 1⟩, ⟨40, 20, .ro, .F, .num, 0, 0, 0x1FFFFF⟩,
   ⟨18, 0, .ro, .F, .num, 0, 0, 0x7FFFF⟩]⟩

/-- RBSTAT (Table 9-8). -/
def dRBSTAT : RegDef := ⟨.RBSTAT, 0x07800010, 0x0, 1, 0x0, 1, .S, .isl 17,
  [⟨63, 40, .ro, .F, .pers, 0, 0, 0xFFFFFF⟩, ⟨31, 0, .ro, .F, .pers, 0, 0, 0xFFFFFFFF⟩]⟩

/-- STCNT (Table 9-13). -/
def dSTCNT : RegDef := ⟨.STCNT, 0x07800100, 0x8, 9, 0x0, 1, .H, .isl 17,
  [⟨63, 0, .rw1c, .I, .num, 0, 0, 0xFFFFFFFFFFFFFFFF⟩]⟩

/-- POOLGEO (Table 9-9). -/
def dPOOLGEO : RegDef := ⟨.POOLGEO, 0x07801000, 0x8, 256, 0x0, 1, .P, .isl 17,
  [⟨63, 63, .ro, .F, .pers, 0, 0, 1⟩, ⟨12, 8, .rwl, .I, .pers, 16, 1, 31⟩, ⟨1, 0, .rwl, .I, .pers, 2, 1, 3⟩]⟩

/-- FNCCFG (Table 9-10). -/
def dFNCCFG : RegDef := ⟨.FNCCFG, 0x07900000, 0x0, 1, 0x0, 1, .H, .isl 0,
  [⟨63, 48, .rw, .I, .pers, 1000, 100, 10000⟩, ⟨47, 40, .rw, .I, .pers, 2, 1, 100⟩, ⟨39, 39, .rw, .M, .num, 0, 0, 1⟩]⟩

/-- FNCSTAT (Table 9-11). -/
def dFNCSTAT : RegDef := ⟨.FNCSTAT, 0x07900008, 0x0, 1, 0x0, 1, .H, .isl 0,
  [⟨63, 63, .ro, .F, .num, 0, 0, 1⟩, ⟨62, 62, .ro, .F, .num, 0, 0, 1⟩, ⟨61, 61, .ro, .F, .num, 0, 0, 1⟩,
   ⟨60, 60, .ro, .F, .num, 0, 0, 1⟩, ⟨59, 58, .ro, .F, .num, 0, 0, 3⟩]⟩

/-- FNCCTL (Table 9-12). -/
def dFNCCTL : RegDef := ⟨.FNCCTL, 0x07900010, 0x0, 1, 0x0, 1, .H, .isl 0,
  [⟨63, 63, .wo, .M, .num, 0, 0, 1⟩]⟩

/-- LEHRCFG (Table 10-9). -/
def dLEHRCFG : RegDef := ⟨.LEHRCFG, 0x08000000, 0x0, 1, 0x0, 1, .H, .isl 2,
  [⟨7, 0, .rw, .I, .pers, 24, 24, 32⟩]⟩

/-- LEHRSTAT (Table 10-10). -/
def dLEHRSTAT : RegDef := ⟨.LEHRSTAT, 0x08000008, 0x0, 1, 0x0, 1, .H, .isl 2,
  [⟨63, 63, .ro, .F, .num, 0, 0, 1⟩, ⟨62, 62, .ro, .F, .num, 0, 0, 1⟩, ⟨55, 48, .ro, .F, .num, 0, 0, 255⟩,
   ⟨47, 32, .ro, .F, .num, 90, 0, 65535⟩, ⟨31, 16, .ro, .F, .num, 0, 0, 65535⟩]⟩

/-- LEHRUSE (Table 10-11). -/
def dLEHRUSE : RegDef := ⟨.LEHRUSE, 0x08000010, 0x0, 1, 0x0, 1, .H, .isl 2,
  [⟨47, 32, .ro, .F, .num, 0, 0, 65535⟩, ⟨31, 16, .ro, .F, .num, 0, 0, 65535⟩]⟩

/-- SPILLSTAT (Table 10-12). -/
def dSPILLSTAT : RegDef := ⟨.SPILLSTAT, 0x08000018, 0x0, 1, 0x0, 1, .S, .isl 2,
  [⟨63, 63, .ro, .F, .num, 0, 0, 1⟩, ⟨62, 62, .ro, .F, .pers, 0, 0, 1⟩, ⟨61, 60, .ro, .F, .pers, 0, 0, 3⟩,
   ⟨31, 0, .ro, .F, .pers, 0, 0, 0xFFFFFFFF⟩]⟩

/-- PLSTAT (Table 10-13). -/
def dPLSTAT : RegDef := ⟨.PLSTAT, 0x08000020, 0x0, 1, 0x0, 1, .H, .isl 16,
  [⟨63, 58, .ro, .F, .num, 0, 0, 63⟩, ⟨57, 52, .ro, .F, .num, 0, 0, 63⟩, ⟨51, 50, .ro, .F, .num, 0, 0, 3⟩,
   ⟨31, 0, .ro, .F, .num, 0, 0, 0xFFFFFFFF⟩]⟩

/-- VCG (Table 10-14). -/
def dVCG : RegDef := ⟨.VCG, 0x08100000, 0x8, 65536, 0x0, 1, .P, .isl 2,
  [⟨63, 40, .ro, .F, .pers, 0, 0, 0xFFFFFF⟩, ⟨39, 39, .ro, .F, .pers, 0, 0, 1⟩, ⟨38, 38, .ro, .F, .pers, 0, 0, 1⟩,
   ⟨37, 30, .ro, .F, .pers, 0, 0, 255⟩, ⟨24, 16, .ro, .F, .pers, 0, 0, 511⟩, ⟨9, 0, .rw, .O, .pers, 0, 0, 1023⟩]⟩

/-- REPSTAT (Table 10-15). -/
def dREPSTAT : RegDef := ⟨.REPSTAT, 0x08180000, 0x8, 256, 0x0, 1, .P, .isl 2,
  [⟨63, 62, .ro, .F, .pers, 0, 0, 3⟩, ⟨61, 61, .ro, .F, .pers, 0, 0, 1⟩, ⟨55, 40, .ro, .F, .pers, 0, 0, 65535⟩,
   ⟨39, 24, .ro, .F, .pers, 0, 0, 65535⟩, ⟨23, 0, .ro, .F, .pers, 0, 0, 0xFFFFFF⟩]⟩

/-- TLCFG (Table 12-16). -/
def dTLCFG : RegDef := ⟨.TLCFG, 0x09000000, 0x10000, 2, 0x0, 1, .H, .isl 21,
  [⟨63, 63, .rw, .I, .pers, 1, 0, 1⟩]⟩

/-- TLSTAT (Table 12-17). -/
def dTLSTAT : RegDef := ⟨.TLSTAT, 0x09000008, 0x10000, 2, 0x0, 1, .H, .isl 21,
  [⟨63, 61, .ro, .F, .num, 0, 0, 7⟩, ⟨60, 58, .ro, .F, .num, 0, 0, 7⟩, ⟨57, 54, .ro, .F, .num, 0, 0, 15⟩,
   ⟨53, 46, .ro, .F, .num, 0, 0, 255⟩, ⟨45, 42, .ro, .F, .num, 0, 0, 15⟩, ⟨41, 34, .ro, .F, .num, 0, 0, 255⟩,
   ⟨31, 0, .ro, .F, .num, 0, 0, 0xFFFFFFFF⟩]⟩

/-- TLREG (Table 12-18). -/
def dTLREG : RegDef := ⟨.TLREG, 0x09000010, 0x10000, 2, 0x0, 1, .H, .isl 21,
  [⟨63, 63, .rw, .M, .num, 0, 0, 1⟩, ⟨47, 32, .rw, .M, .num, 0, 0, 65535⟩, ⟨31, 0, .rw, .M, .num, 0, 0, 0xFFFFFFFF⟩]⟩

/-- TPSTAT (Table 12-19). -/
def dTPSTAT : RegDef := ⟨.TPSTAT, 0x09000018, 0x10000, 2, 0x0, 1, .H, .isl 21,
  [⟨63, 60, .ro, .F, .num, 0, 0, 15⟩, ⟨59, 56, .ro, .F, .num, 0, 0, 15⟩, ⟨55, 48, .ro, .F, .num, 0, 0, 255⟩,
   ⟨47, 24, .ro, .F, .num, 0, 0, 0xFFFFFF⟩, ⟨23, 16, .ro, .F, .num, 0, 0, 255⟩, ⟨15, 12, .ro, .F, .num, 1, 0, 15⟩]⟩

/-- TPSERVO (Table 12-20). -/
def dTPSERVO : RegDef := ⟨.TPSERVO, 0x09000020, 0x10000, 2, 0x0, 1, .H, .isl 21,
  [⟨63, 48, .ro, .F, .num, 0, 0, 65535⟩, ⟨47, 32, .ro, .F, .num, 0, 0, 65535⟩, ⟨31, 31, .ro, .F, .num, 0, 0, 1⟩,
   ⟨30, 30, .ro, .F, .num, 0, 0, 1⟩, ⟨29, 29, .ro, .F, .num, 0, 0, 1⟩]⟩

/-- TPCFG (Table 12-21). -/
def dTPCFG : RegDef := ⟨.TPCFG, 0x09000028, 0x10000, 2, 0x0, 1, .H, .isl 21,
  [⟨63, 48, .rw, .I, .pers, 60, 0, 3600⟩, ⟨47, 44, .rw, .I, .pers, 11, 0, 11⟩, ⟨43, 40, .rw, .I, .pers, 4, 0, 5⟩,
   ⟨39, 32, .rw, .I, .pers, 8, 1, 16⟩, ⟨31, 16, .rw, .I, .pers, 64, 1, 10368⟩]⟩

/-- TPCNT (Table 12-23). -/
def dTPCNT : RegDef := ⟨.TPCNT, 0x09000100, 0x8, 16, 0x10000, 2, .H, .isl 21,
  [⟨63, 0, .rw1c, .I, .num, 0, 0, 0xFFFFFFFFFFFFFFFF⟩]⟩

/-- TPLAD (Table 12-22). -/
def dTPLAD : RegDef := ⟨.TPLAD, 0x09020000, 0x0, 1, 0x0, 1, .P, .isl 21,
  [⟨63, 0, .wo, .I, .num, 0, 0, 0xFFFFFFFFFFFFFFFF⟩]⟩

/-- TPEQ (Table 12-22). -/
def dTPEQ : RegDef := ⟨.TPEQ, 0x09020008, 0x0, 1, 0x0, 1, .P, .isl 21,
  [⟨63, 0, .wo, .I, .num, 0, 0, 0xFFFFFFFFFFFFFFFF⟩]⟩

/-- TPLNK (Table 12-22). -/
def dTPLNK : RegDef := ⟨.TPLNK, 0x09020010, 0x0, 1, 0x0, 1, .P, .isl 21,
  [⟨63, 0, .wo, .I, .num, 0, 0, 0xFFFFFFFFFFFFFFFF⟩]⟩

/-- TPVER (Table 12-22). -/
def dTPVER : RegDef := ⟨.TPVER, 0x09020018, 0x0, 1, 0x0, 1, .P, .isl 21,
  [⟨63, 48, .ro, .F, .pers, 0, 0, 65535⟩, ⟨47, 32, .ro, .F, .pers, 0, 0, 65535⟩, ⟨31, 16, .ro, .F, .pers, 0, 0, 65535⟩]⟩

/-- TPWEAK (Table 12-22). -/
def dTPWEAK : RegDef := ⟨.TPWEAK, 0x09020020, 0x0, 1, 0x0, 1, .H, .isl 21,
  [⟨63, 32, .ro, .F, .pers, 0, 0, 0xFFFFFFFF⟩, ⟨31, 0, .ro, .F, .pers, 0, 0, 0xFFFFFFFF⟩]⟩

/-- ENGCFG (Table 13-9). -/
def dENGCFG : RegDef := ⟨.ENGCFG, 0x0A000000, 0x8, 98, 0x0, 1, .H, .engine,
  [⟨63, 63, .rw, .F, .num, 0, 0, 1⟩, ⟨62, 62, .rw, .F, .num, 0, 0, 1⟩, ⟨61, 61, .rw, .F, .num, 0, 0, 1⟩,
   ⟨60, 60, .rw, .F, .num, 0, 0, 1⟩, ⟨59, 59, .rw, .F, .num, 0, 0, 1⟩, ⟨58, 58, .rw, .F, .num, 0, 0, 1⟩,
   ⟨31, 16, .ro, .F, .num, 0, 0, 65535⟩]⟩

/-- L2CFG (Table 13-10). -/
def dL2CFG : RegDef := ⟨.L2CFG, 0x0A001000, 0x10, 12, 0x0, 1, .H, .peloton,
  [⟨63, 63, .rw, .F, .num, 0, 0, 1⟩, ⟨62, 62, .rw, .F, .num, 0, 0, 1⟩, ⟨31, 16, .rw, .M, .num, 0, 0, 65535⟩,
   ⟨15, 0, .rw, .F, .num, 0, 0, 65535⟩]⟩

/-- L2STAT (Table 13-11). -/
def dL2STAT : RegDef := ⟨.L2STAT, 0x0A001008, 0x10, 12, 0x0, 1, .H, .peloton,
  [⟨63, 48, .ro, .F, .num, 0, 0, 65535⟩, ⟨47, 0, .ro, .F, .num, 0, 0, 0xFFFFFFFFFFFF⟩]⟩

/-- ECCSTAT (Table 13-12). -/
def dECCSTAT : RegDef := ⟨.ECCSTAT, 0x0A100000, 0x10, 6, 0x0, 1, .H, .isl 0,
  [⟨63, 40, .rw1c, .I, .num, 0, 0, 0xFFFFFF⟩, ⟨39, 16, .rw1c, .I, .num, 0, 0, 0xFFFFFF⟩,
   ⟨15, 0, .rw1c, .I, .num, 0, 0, 65535⟩]⟩

/-- ECCLAST (Table 13-12). -/
def dECCLAST : RegDef := ⟨.ECCLAST, 0x0A100008, 0x10, 6, 0x0, 1, .H, .isl 0,
  [⟨63, 62, .ro, .F, .num, 0, 0, 3⟩, ⟨47, 0, .ro, .F, .num, 0, 0, 0xFFFFFFFFFFFF⟩]⟩

/-- SCRUB (Table 13-13). -/
def dSCRUB : RegDef := ⟨.SCRUB, 0x0A100080, 0x0, 1, 0x0, 1, .H, .isl 0,
  [⟨63, 48, .rw, .I, .pers, 24, 1, 168⟩, ⟨47, 32, .rw, .I, .pers, 60, 1, 1440⟩, ⟨31, 16, .rw, .I, .pers, 24, 1, 168⟩]⟩

/-- PSCFG (Table 13-13). -/
def dPSCFG : RegDef := ⟨.PSCFG, 0x0A100088, 0x0, 1, 0x0, 1, .H, .isl 0,
  [⟨63, 56, .rw, .I, .pers, 4, 1, 255⟩]⟩

/-- PSSTAT (Table 13-13). -/
def dPSSTAT : RegDef := ⟨.PSSTAT, 0x0A100090, 0x0, 1, 0x0, 1, .H, .isl 0,
  [⟨63, 63, .ro, .F, .num, 0, 0, 1⟩, ⟨62, 62, .ro, .F, .num, 0, 0, 1⟩]⟩

/-- ECCTA (Table 13-14). -/
def dECCTA : RegDef := ⟨.ECCTA, 0x0A1000A0, 0x0, 1, 0x0, 1, .H, .isl 0,
  [⟨63, 60, .rw, .M, .num, 0, 0, 4⟩, ⟨47, 0, .rw, .M, .num, 0, 0, 0xFFFFFFFFFFFF⟩]⟩

/-- ECCTD (Table 13-14). -/
def dECCTD : RegDef := ⟨.ECCTD, 0x0A1000A8, 0x0, 1, 0x0, 1, .H, .isl 0,
  [⟨63, 0, .rw, .M, .num, 0, 0, 0xFFFFFFFFFFFFFFFF⟩]⟩

/-- ECCTC (Table 13-14). -/
def dECCTC : RegDef := ⟨.ECCTC, 0x0A1000B0, 0x0, 1, 0x0, 1, .H, .isl 0,
  [⟨8, 8, .rw, .M, .num, 0, 0, 1⟩, ⟨7, 0, .rw, .M, .num, 0, 0, 255⟩]⟩

/-- ECCTCTL (Table 13-14). -/
def dECCTCTL : RegDef := ⟨.ECCTCTL, 0x0A1000B8, 0x0, 1, 0x0, 1, .H, .isl 0,
  [⟨63, 62, .wo, .M, .num, 0, 0, 3⟩]⟩

/-- POOLCFG (Table 13-15). -/
def dPOOLCFG : RegDef := ⟨.POOLCFG, 0x0A200000, 0x20, 16, 0x0, 1, .H, .isl 2,
  [⟨63, 59, .rw, .F, .pers, 0, 8, 21⟩, ⟨58, 58, .rw, .F, .pers, 0, 0, 1⟩, ⟨22, 0, .rw, .F, .pers, 0, 1, 0x400000⟩]⟩

/-- POOLBASE (Table 13-15). -/
def dPOOLBASE : RegDef := ⟨.POOLBASE, 0x0A200008, 0x20, 16, 0x0, 1, .H, .isl 2,
  [⟨36, 0, .rw, .F, .pers, 0, 0, 0x1FFFFFFFFF⟩]⟩

/-- POOLTHR (Table 13-16). -/
def dPOOLTHR : RegDef := ⟨.POOLTHR, 0x0A200010, 0x20, 16, 0x0, 1, .H, .isl 2,
  [⟨63, 56, .rw, .I, .pers, 25, 0, 255⟩, ⟨55, 48, .rw, .I, .pers, 10, 0, 255⟩, ⟨47, 40, .rw, .I, .pers, 5, 0, 255⟩,
   ⟨31, 24, .rw, .I, .pers, 1, 1, 100⟩, ⟨23, 16, .rw, .I, .pers, 10, 1, 100⟩, ⟨15, 8, .rw, .I, .pers, 25, 1, 100⟩]⟩

/-- POOLSTAT (Table 13-17). -/
def dPOOLSTAT : RegDef := ⟨.POOLSTAT, 0x0A200018, 0x20, 16, 0x0, 1, .H, .isl 2,
  [⟨63, 62, .ro, .F, .num, 0, 0, 3⟩, ⟨54, 32, .ro, .F, .num, 0, 0, 0x7FFFFF⟩, ⟨22, 0, .ro, .F, .num, 0, 0, 0x7FFFFF⟩]⟩

/-- KEYSTAT (Table 14-11). -/
def dKEYSTAT : RegDef := ⟨.KEYSTAT, 0x0B000000, 0x0, 1, 0x0, 1, .P, .isl 0,
  [⟨63, 63, .ro, .F, .pers, 0, 0, 1⟩, ⟨55, 48, .ro, .F, .pers, 0, 0, 255⟩, ⟨47, 40, .ro, .F, .pers, 0, 0, 255⟩,
   ⟨39, 32, .ro, .F, .pers, 0, 0, 255⟩, ⟨31, 0, .ro, .F, .num, 0, 0, 0xFFFFFFFF⟩]⟩

/-- KEYENR (Table 14-11). -/
def dKEYENR : RegDef := ⟨.KEYENR, 0x0B000008, 0x0, 1, 0x0, 1, .P, .isl 0,
  [⟨63, 0, .wo, .I, .num, 0, 0, 0xFFFFFFFFFFFFFFFF⟩]⟩

/-- MKACC (Table 14-11). -/
def dMKACC : RegDef := ⟨.MKACC, 0x0B000010, 0x0, 1, 0x0, 1, .P, .isl 0,
  [⟨63, 63, .rw, .I, .pers, 0, 0, 1⟩, ⟨15, 0, .rw, .M, .pers, 0, 0, 65535⟩]⟩

/-- KEYIMP (Table 14-11). -/
def dKEYIMP : RegDef := ⟨.KEYIMP, 0x0B000018, 0x0, 1, 0x0, 1, .P, .isl 0,
  [⟨63, 0, .wo, .I, .num, 0, 0, 0xFFFFFFFFFFFFFFFF⟩]⟩

/-- FWCFG (Table 14-13). -/
def dFWCFG : RegDef := ⟨.FWCFG, 0x0B000020, 0x0, 1, 0x0, 1, .P, .isl 0,
  [⟨63, 48, .rw, .I, .pers, 300, 60, 3600⟩]⟩

/-- FWSTAT (Table 14-13). -/
def dFWSTAT : RegDef := ⟨.FWSTAT, 0x0B000028, 0x0, 1, 0x0, 1, .H, .isl 0,
  [⟨63, 63, .ro, .F, .pers, 0, 0, 1⟩, ⟨62, 62, .ro, .F, .pers, 0, 0, 1⟩, ⟨61, 61, .ro, .F, .pers, 0, 0, 1⟩,
   ⟨60, 60, .ro, .F, .pers, 0, 0, 1⟩, ⟨47, 32, .ro, .F, .num, 0, 0, 65535⟩, ⟨31, 0, .ro, .F, .pers, 0, 0, 0xFFFFFFFF⟩]⟩

/-- FWSEC (Table 14-13). -/
def dFWSEC : RegDef := ⟨.FWSEC, 0x0B000030, 0x0, 1, 0x0, 1, .H, .isl 0,
  [⟨63, 32, .ro, .F, .num, 0, 0, 0xFFFFFFFF⟩, ⟨31, 0, .ro, .F, .pers, 0, 0, 0xFFFFFFFF⟩]⟩

/-- IDKEY (Table 14-14). -/
def dIDKEY : RegDef := ⟨.IDKEY, 0x0B000040, 0x8, 4, 0x0, 1, .H, .isl 0,
  [⟨63, 0, .ro, .F, .num, 0, 0, 0xFFFFFFFFFFFFFFFF⟩]⟩

/-- KEYX (Table 14-14). -/
def dKEYX : RegDef := ⟨.KEYX, 0x0B000060, 0x8, 4, 0x0, 1, .H, .isl 0,
  [⟨63, 0, .ro, .F, .num, 0, 0, 0xFFFFFFFFFFFFFFFF⟩]⟩

/-- HKSTAT (Table 14-12). -/
def dHKSTAT : RegDef := ⟨.HKSTAT, 0x0B000100, 0x8, 16, 0x0, 1, .P, .isl 0,
  [⟨63, 63, .ro, .F, .pers, 0, 0, 1⟩, ⟨55, 48, .ro, .F, .pers, 0, 0, 255⟩, ⟨47, 46, .ro, .F, .pers, 0, 0, 3⟩]⟩

/-- KEYINFO (Table 14-12). -/
def dKEYINFO : RegDef := ⟨.KEYINFO, 0x0B000800, 0x8, 74, 0x0, 1, .P, .isl 0,
  [⟨63, 63, .ro, .F, .pers, 0, 0, 1⟩, ⟨62, 62, .ro, .F, .num, 0, 0, 1⟩, ⟨55, 48, .ro, .F, .pers, 0, 0, 255⟩]⟩

/-- KEYPUB (Table 14-14). -/
def dKEYPUB : RegDef := ⟨.KEYPUB, 0x0B001000, 0x8, 296, 0x0, 1, .P, .isl 0,
  [⟨63, 0, .ro, .F, .pers, 0, 0, 0xFFFFFFFFFFFFFFFF⟩]⟩

/-- DGCTX (Table 14-15). -/
def dDGCTX : RegDef := ⟨.DGCTX, 0x0B100000, 0x8, 16, 0x0, 1, .H, .isl 15,
  [⟨63, 62, .wo, .O, .num, 0, 0, 3⟩, ⟨61, 60, .rw, .O, .num, 0, 0, 3⟩, ⟨59, 56, .rw, .O, .num, 0, 0, 15⟩,
   ⟨55, 48, .ro, .F, .num, 255, 0, 255⟩, ⟨47, 0, .ro, .F, .num, 0, 0, 0xFFFFFFFFFFFF⟩]⟩

/-- DGRES (Table 14-15). -/
def dDGRES : RegDef := ⟨.DGRES, 0x0B101000, 0x8, 128, 0x0, 1, .H, .isl 15,
  [⟨63, 0, .ro, .F, .num, 0, 0, 0xFFFFFFFFFFFFFFFF⟩]⟩

/-- EVNEW (Table 15-5). -/
def dEVNEW : RegDef := ⟨.EVNEW, 0x0C000000, 0x0, 1, 0x0, 1, .H, .isl 0,
  [⟨63, 0, .ro, .F, .pers, 0, 0, 0xFFFFFFFFFFFFFFFF⟩]⟩

/-- EVFLOOR (Table 15-5). -/
def dEVFLOOR : RegDef := ⟨.EVFLOOR, 0x0C000008, 0x0, 1, 0x0, 1, .H, .isl 0,
  [⟨63, 0, .ro, .F, .pers, 0, 0, 0xFFFFFFFFFFFFFFFF⟩]⟩

/-- EVSTAT (Table 15-5). -/
def dEVSTAT : RegDef := ⟨.EVSTAT, 0x0C000010, 0x0, 1, 0x0, 1, .H, .isl 0,
  [⟨63, 63, .ro, .F, .num, 0, 0, 1⟩, ⟨31, 0, .ro, .F, .num, 0, 0, 0xFFFFFFFF⟩]⟩

/-- EVTIME (Table 15-5). -/
def dEVTIME : RegDef := ⟨.EVTIME, 0x0C000018, 0x0, 1, 0x0, 1, .H, .isl 0,
  [⟨63, 0, .rw, .I, .num, 0, 0, 0xFFFFFFFFFFFFFFFF⟩]⟩

/-- RSTSTAT (Table 16-8). -/
def dRSTSTAT : RegDef := ⟨.RSTSTAT, 0x0D000000, 0x0, 1, 0x0, 1, .H, .isl 0,
  [⟨63, 60, .ro, .F, .pers, 0, 0, 15⟩, ⟨59, 58, .ro, .F, .num, 0, 0, 3⟩, ⟨57, 57, .ro, .F, .num, 0, 0, 1⟩,
   ⟨56, 56, .ro, .F, .num, 0, 0, 1⟩, ⟨55, 55, .ro, .F, .num, 0, 0, 1⟩, ⟨52, 48, .ro, .F, .num, 0, 0, 31⟩,
   ⟨31, 0, .ro, .F, .pers, 0, 0, 0xFFFFFFFF⟩]⟩

/-- ISRST (Table 16-9). -/
def dISRST : RegDef := ⟨.ISRST, 0x0D000008, 0x0, 1, 0x0, 1, .H, .isl 0,
  [⟨63, 62, .wo, .M, .num, 0, 0, 3⟩, ⟨4, 0, .wo, .M, .num, 0, 0, 31⟩]⟩

/-- ISCFG (Table 16-9). -/
def dISCFG : RegDef := ⟨.ISCFG, 0x0D000010, 0x0, 1, 0x0, 1, .H, .isl 0,
  [⟨63, 48, .rw, .I, .pers, 20, 1, 1000⟩]⟩

/-- WDCFG (Table 16-11). -/
def dWDCFG : RegDef := ⟨.WDCFG, 0x0D000018, 0x0, 1, 0x0, 1, .H, .isl 0,
  [⟨63, 48, .rw, .F, .num, 1000, 100, 60000⟩, ⟨47, 47, .rw, .F, .num, 1, 0, 1⟩]⟩

/-- WDKICK (Table 16-11). -/
def dWDKICK : RegDef := ⟨.WDKICK, 0x0D000020, 0x0, 1, 0x0, 1, .H, .isl 0,
  [⟨63, 0, .wo, .F, .num, 0, 0, 0xFFFFFFFFFFFFFFFF⟩]⟩

/-- TRIMSTAT (Table 16-11). -/
def dTRIMSTAT : RegDef := ⟨.TRIMSTAT, 0x0D000028, 0x0, 1, 0x0, 1, .H, .isl 0,
  [⟨63, 62, .rws, .M, .num, 0, 0, 3⟩]⟩

/-- CLKSTAT (Table 16-11). -/
def dCLKSTAT : RegDef := ⟨.CLKSTAT, 0x0D000030, 0x0, 1, 0x0, 1, .H, .isl 0,
  [⟨63, 56, .ro, .F, .num, 0, 0, 255⟩, ⟨55, 51, .rws, .I, .num, 0, 0, 31⟩, ⟨50, 50, .ro, .F, .num, 0, 0, 1⟩]⟩

/-- BOOTCFG (Table 16-11). -/
def dBOOTCFG : RegDef := ⟨.BOOTCFG, 0x0D000038, 0x0, 1, 0x0, 1, .H, .isl 0,
  [⟨63, 48, .rw, .I, .pers, 50, 20, 1000⟩]⟩

/-- CVRCFG (Table 16-12). -/
def dCVRCFG : RegDef := ⟨.CVRCFG, 0x0D000040, 0x0, 1, 0x0, 1, .H, .isl 0,
  [⟨63, 63, .rw, .M, .num, 0, 0, 1⟩, ⟨55, 48, .rw, .M, .num, 150, 140, 170⟩, ⟨47, 40, .rw, .M, .num, 10, 1, 50⟩]⟩

/-- CVRSTAT (Table 16-12). -/
def dCVRSTAT : RegDef := ⟨.CVRSTAT, 0x0D000048, 0x0, 1, 0x0, 1, .H, .isl 0,
  [⟨63, 56, .ro, .F, .num, 150, 0, 255⟩, ⟨55, 40, .ro, .F, .num, 0, 0, 65535⟩, ⟨39, 39, .ro, .F, .num, 0, 0, 1⟩,
   ⟨38, 36, .ro, .F, .num, 0, 0, 7⟩]⟩

/-- THERMCFG (Table 16-12). -/
def dTHERMCFG : RegDef := ⟨.THERMCFG, 0x0D000050, 0x0, 1, 0x0, 1, .H, .isl 0,
  [⟨63, 56, .rw, .I, .pers, 100, 85, 105⟩, ⟨55, 48, .rw, .I, .pers, 112, 0, 255⟩]⟩

/-- THERMSTAT (Table 16-12). -/
def dTHERMSTAT : RegDef := ⟨.THERMSTAT, 0x0D000058, 0x0, 1, 0x0, 1, .H, .isl 0,
  [⟨63, 56, .ro, .F, .num, 0, 0, 255⟩, ⟨55, 48, .rws, .I, .num, 0, 0, 255⟩, ⟨47, 47, .ro, .F, .num, 0, 0, 1⟩,
   ⟨46, 46, .rws, .I, .num, 0, 0, 1⟩]⟩

/-- ISTAT (Table 16-10). -/
def dISTAT : RegDef := ⟨.ISTAT, 0x0D000100, 0x8, 22, 0x0, 1, .H, .isl 0,
  [⟨63, 61, .ro, .F, .num, 0, 0, 7⟩, ⟨60, 60, .ro, .F, .num, 0, 0, 1⟩, ⟨59, 59, .rw1c, .I, .num, 0, 0, 1⟩,
   ⟨31, 0, .ro, .F, .num, 0, 0, 0xFFFFFFFF⟩]⟩

end Reg

/-- Registers of addresses 0x00……. -/
def regs00 : List RegDef :=
  [Reg.dSSINFO, Reg.dTVEC, Reg.dTPC, Reg.dTCAUSE, Reg.dTADDR, Reg.dVS, Reg.dICOUNT, Reg.dCHARGE]

/-- Registers of addresses 0x04……. -/
def regs04 : List RegDef :=
  [Reg.dQCFG, Reg.dQSTAT, Reg.dQIDLE, Reg.dQTRAPS, Reg.dADMSTAT, Reg.dALIM, Reg.dADMTAB, Reg.dRUSE, Reg.dCSTAT,
   Reg.dCREM, Reg.dCCNT, Reg.dCBKT]

/-- Registers of addresses 0x05……. -/
def regs05 : List RegDef :=
  [Reg.dCPTCFG, Reg.dCPTTIM, Reg.dCPTSTAT, Reg.dCLASS, Reg.dHADDR4, Reg.dHADDR6H, Reg.dHADDR6L, Reg.dHADDRV,
   Reg.dCPTCNT, Reg.dHPCFG, Reg.dHPOL]

/-- Registers of addresses 0x06……. -/
def regs06 : List RegDef :=
  [Reg.dDRSTAT, Reg.dDRGEAR, Reg.dDRHUF, Reg.dDRVER, Reg.dDRLIM, Reg.dDRCNT, Reg.dDRCFG]

/-- Registers of addresses 0x07……. -/
def regs07 : List RegDef :=
  [Reg.dNFCFG, Reg.dNFGC, Reg.dNFSTAT, Reg.dNFIDLE, Reg.dNFFAM, Reg.dNFLDPC, Reg.dNFVER, Reg.dNFCNT, Reg.dPOOLSP,
   Reg.dPOOLENC, Reg.dPOOLCTL, Reg.dVOLCTL, Reg.dDIE, Reg.dSTCFG, Reg.dSTSTAT, Reg.dRBSTAT, Reg.dSTCNT,
   Reg.dPOOLGEO, Reg.dFNCCFG, Reg.dFNCSTAT, Reg.dFNCCTL]

/-- Registers of addresses 0x08……. -/
def regs08 : List RegDef :=
  [Reg.dLEHRCFG, Reg.dLEHRSTAT, Reg.dLEHRUSE, Reg.dSPILLSTAT, Reg.dPLSTAT, Reg.dVCG, Reg.dREPSTAT]

/-- Registers of addresses 0x09……. -/
def regs09 : List RegDef :=
  [Reg.dTLCFG, Reg.dTLSTAT, Reg.dTLREG, Reg.dTPSTAT, Reg.dTPSERVO, Reg.dTPCFG, Reg.dTPCNT, Reg.dTPLAD, Reg.dTPEQ,
   Reg.dTPLNK, Reg.dTPVER, Reg.dTPWEAK]

/-- Registers of addresses 0x0A……. -/
def regs0A : List RegDef :=
  [Reg.dENGCFG, Reg.dL2CFG, Reg.dL2STAT, Reg.dECCSTAT, Reg.dECCLAST, Reg.dSCRUB, Reg.dPSCFG, Reg.dPSSTAT,
   Reg.dECCTA, Reg.dECCTD, Reg.dECCTC, Reg.dECCTCTL, Reg.dPOOLCFG, Reg.dPOOLBASE, Reg.dPOOLTHR, Reg.dPOOLSTAT]

/-- Registers of addresses 0x0B……. -/
def regs0B : List RegDef :=
  [Reg.dKEYSTAT, Reg.dKEYENR, Reg.dMKACC, Reg.dKEYIMP, Reg.dFWCFG, Reg.dFWSTAT, Reg.dFWSEC, Reg.dIDKEY, Reg.dKEYX,
   Reg.dHKSTAT, Reg.dKEYINFO, Reg.dKEYPUB, Reg.dDGCTX, Reg.dDGRES]

/-- Registers of addresses 0x0C……. -/
def regs0C : List RegDef :=
  [Reg.dEVNEW, Reg.dEVFLOOR, Reg.dEVSTAT, Reg.dEVTIME]

/-- Registers of addresses 0x0D……. -/
def regs0D : List RegDef :=
  [Reg.dRSTSTAT, Reg.dISRST, Reg.dISCFG, Reg.dWDCFG, Reg.dWDKICK, Reg.dTRIMSTAT, Reg.dCLKSTAT, Reg.dBOOTCFG,
   Reg.dCVRCFG, Reg.dCVRSTAT, Reg.dTHERMCFG, Reg.dTHERMSTAT, Reg.dISTAT]

/-- The registers whose addresses have the given bits [30:24] (R498). -/
def regsAt (top : Nat) : List RegDef :=
  match top with
  | 0 => regs00
  | 4 => regs04
  | 5 => regs05
  | 6 => regs06
  | 7 => regs07
  | 8 => regs08
  | 9 => regs09
  | 10 => regs0A
  | 11 => regs0B
  | 12 => regs0C
  | 13 => regs0D
  | _ => []

/-- The row of a register. -/
def Reg.row : Reg → RegDef
  | .SSINFO => Reg.dSSINFO
  | .TVEC => Reg.dTVEC
  | .TPC => Reg.dTPC
  | .TCAUSE => Reg.dTCAUSE
  | .TADDR => Reg.dTADDR
  | .VS => Reg.dVS
  | .ICOUNT => Reg.dICOUNT
  | .CHARGE => Reg.dCHARGE
  | .QCFG => Reg.dQCFG
  | .QSTAT => Reg.dQSTAT
  | .QIDLE => Reg.dQIDLE
  | .QTRAPS => Reg.dQTRAPS
  | .ADMSTAT => Reg.dADMSTAT
  | .ALIM => Reg.dALIM
  | .ADMTAB => Reg.dADMTAB
  | .RUSE => Reg.dRUSE
  | .CSTAT => Reg.dCSTAT
  | .CREM => Reg.dCREM
  | .CCNT => Reg.dCCNT
  | .CBKT => Reg.dCBKT
  | .CPTCFG => Reg.dCPTCFG
  | .CPTTIM => Reg.dCPTTIM
  | .CPTSTAT => Reg.dCPTSTAT
  | .CLASS => Reg.dCLASS
  | .HADDR4 => Reg.dHADDR4
  | .HADDR6H => Reg.dHADDR6H
  | .HADDR6L => Reg.dHADDR6L
  | .HADDRV => Reg.dHADDRV
  | .CPTCNT => Reg.dCPTCNT
  | .HPCFG => Reg.dHPCFG
  | .HPOL => Reg.dHPOL
  | .DRSTAT => Reg.dDRSTAT
  | .DRGEAR => Reg.dDRGEAR
  | .DRHUF => Reg.dDRHUF
  | .DRVER => Reg.dDRVER
  | .DRLIM => Reg.dDRLIM
  | .DRCNT => Reg.dDRCNT
  | .DRCFG => Reg.dDRCFG
  | .NFCFG => Reg.dNFCFG
  | .NFGC => Reg.dNFGC
  | .NFSTAT => Reg.dNFSTAT
  | .NFIDLE => Reg.dNFIDLE
  | .NFFAM => Reg.dNFFAM
  | .NFLDPC => Reg.dNFLDPC
  | .NFVER => Reg.dNFVER
  | .NFCNT => Reg.dNFCNT
  | .POOLSP => Reg.dPOOLSP
  | .POOLENC => Reg.dPOOLENC
  | .POOLCTL => Reg.dPOOLCTL
  | .VOLCTL => Reg.dVOLCTL
  | .DIE => Reg.dDIE
  | .STCFG => Reg.dSTCFG
  | .STSTAT => Reg.dSTSTAT
  | .RBSTAT => Reg.dRBSTAT
  | .STCNT => Reg.dSTCNT
  | .POOLGEO => Reg.dPOOLGEO
  | .FNCCFG => Reg.dFNCCFG
  | .FNCSTAT => Reg.dFNCSTAT
  | .FNCCTL => Reg.dFNCCTL
  | .LEHRCFG => Reg.dLEHRCFG
  | .LEHRSTAT => Reg.dLEHRSTAT
  | .LEHRUSE => Reg.dLEHRUSE
  | .SPILLSTAT => Reg.dSPILLSTAT
  | .PLSTAT => Reg.dPLSTAT
  | .VCG => Reg.dVCG
  | .REPSTAT => Reg.dREPSTAT
  | .TLCFG => Reg.dTLCFG
  | .TLSTAT => Reg.dTLSTAT
  | .TLREG => Reg.dTLREG
  | .TPSTAT => Reg.dTPSTAT
  | .TPSERVO => Reg.dTPSERVO
  | .TPCFG => Reg.dTPCFG
  | .TPCNT => Reg.dTPCNT
  | .TPLAD => Reg.dTPLAD
  | .TPEQ => Reg.dTPEQ
  | .TPLNK => Reg.dTPLNK
  | .TPVER => Reg.dTPVER
  | .TPWEAK => Reg.dTPWEAK
  | .ENGCFG => Reg.dENGCFG
  | .L2CFG => Reg.dL2CFG
  | .L2STAT => Reg.dL2STAT
  | .ECCSTAT => Reg.dECCSTAT
  | .ECCLAST => Reg.dECCLAST
  | .SCRUB => Reg.dSCRUB
  | .PSCFG => Reg.dPSCFG
  | .PSSTAT => Reg.dPSSTAT
  | .ECCTA => Reg.dECCTA
  | .ECCTD => Reg.dECCTD
  | .ECCTC => Reg.dECCTC
  | .ECCTCTL => Reg.dECCTCTL
  | .POOLCFG => Reg.dPOOLCFG
  | .POOLBASE => Reg.dPOOLBASE
  | .POOLTHR => Reg.dPOOLTHR
  | .POOLSTAT => Reg.dPOOLSTAT
  | .KEYSTAT => Reg.dKEYSTAT
  | .KEYENR => Reg.dKEYENR
  | .MKACC => Reg.dMKACC
  | .KEYIMP => Reg.dKEYIMP
  | .FWCFG => Reg.dFWCFG
  | .FWSTAT => Reg.dFWSTAT
  | .FWSEC => Reg.dFWSEC
  | .IDKEY => Reg.dIDKEY
  | .KEYX => Reg.dKEYX
  | .HKSTAT => Reg.dHKSTAT
  | .KEYINFO => Reg.dKEYINFO
  | .KEYPUB => Reg.dKEYPUB
  | .DGCTX => Reg.dDGCTX
  | .DGRES => Reg.dDGRES
  | .EVNEW => Reg.dEVNEW
  | .EVFLOOR => Reg.dEVFLOOR
  | .EVSTAT => Reg.dEVSTAT
  | .EVTIME => Reg.dEVTIME
  | .RSTSTAT => Reg.dRSTSTAT
  | .ISRST => Reg.dISRST
  | .ISCFG => Reg.dISCFG
  | .WDCFG => Reg.dWDCFG
  | .WDKICK => Reg.dWDKICK
  | .TRIMSTAT => Reg.dTRIMSTAT
  | .CLKSTAT => Reg.dCLKSTAT
  | .BOOTCFG => Reg.dBOOTCFG
  | .CVRCFG => Reg.dCVRCFG
  | .CVRSTAT => Reg.dCVRSTAT
  | .THERMCFG => Reg.dTHERMCFG
  | .THERMSTAT => Reg.dTHERMSTAT
  | .ISTAT => Reg.dISTAT

/-- The index of an address within a row, where it names the register. -/
def RegDef.index (d : RegDef) (a : Nat) : Option Nat :=
  if a < d.base then none
  else
    let o := a - d.base
    let j := if d.stride2 = 0 then 0 else o / d.stride2
    let o' := if d.stride2 = 0 then o else o % d.stride2
    if d.stride = 0 then (if o' = 0 ∧ j < d.count2 then some j else none)
    else if o' % d.stride = 0 ∧ o' / d.stride < d.count ∧ j < d.count2 then some (d.count * j + o' / d.stride)
    else none

/-- The first row of a list that an address names, with the index. -/
def findReg : List RegDef → Nat → Option (RegDef × Nat)
  | [], _ => none
  | d :: r, a =>
    match d.index a with
    | some i => some (d, i)
    | none => findReg r a

/-- The register that bits [30:0] of an address name, with its index (R498). Port registers of one port stand
0x1_0000 apart, so their rows have a stride of that size. -/
def regOf (a : Nat) : Option (RegDef × Nat) := findReg (regsAt (a >>> 24)) a

/-- The island that serves a register (Table 18-2). -/
def RegDef.island (d : RegDef) (i : Nat) : Nat :=
  match d.serve with
  | .isl n => n
  | .engine => if i < 96 then 3 + i / 8 else 0
  | .peloton => 3 + i
  | .die => 17 + i / 512

end Sys2Proof.Machine
end

