-- ==== Sys2Proof/Machine/Regs.lean ====
section
/-! DEFINITION. The register file: stored fields by side copy, register and index; defaults (R7); settings read by
other rules; counters; what a reset does to stored fields (R6, R7, R461). Also the small views of the head that every
chapter uses: its side, the service of islands, whether the pair is whole. -/

namespace Sys2Proof.Machine

/-! ## The register file -/

/-- Where a register's stored fields stand: side copy (0 and 1; 2 for the mirror of the peer's H registers), register,
index. -/
def regKey (copy : Nat) (r : Reg) (i : Nat) : Nat := (copy * 128 + r.ctorIdx) * 1048576 + i

/-- Defaults of Table 5-9, (TGT, DSCP) by class. -/
def classDefaults : List (Nat × Nat) :=
  [(4, 48), (8, 46), (10, 34), (16, 26), (24, 18), (32, 10), (64, 0), (128, 8)]

/-- What a register's fields hold where nothing was ever written. -/
def regDefault (d : RegDef) (i : Nat) : Word :=
  match d.reg with
  | .CLASS => let e := nth (0, 0) classDefaults i; pack [(0, e.1), (8, e.2)]
  | _ => pack (d.flds.map (fun f => (f.lo, f.dflt)))

/-- The stored fields of a register in a side copy. Entries hold the difference from the default, so that an entry
equal to the default is not listed. -/
def Head.stored (h : Head) (copy : Nat) (r : Reg) (i : Nat) : Word :=
  look 0 h.regs (regKey copy r i) ^^^ regDefault r.row i

/-- The head with a register's stored fields replaced. -/
def Head.store (h : Head) (copy : Nat) (r : Reg) (i : Nat) (v : Word) : Head :=
  { h with regs := place 0 h.regs (regKey copy r i) (v ^^^ regDefault r.row i) }

/-- Field [hi:lo] of the stored fields of a register of scope H or P. -/
def Head.cfg (h : Head) (r : Reg) (i hi lo : Nat) : Nat := bits (h.stored 0 r i).toNat hi lo

/-- Field [hi:lo] of the stored fields of an S register of a side. -/
def Head.cfgS (h : Head) (side : Nat) (r : Reg) (i hi lo : Nat) : Nat := bits (h.stored side r i).toNat hi lo

/-- The head with one field of a stored register set. -/
def Head.setFld (h : Head) (copy : Nat) (r : Reg) (i hi lo v : Nat) : Head :=
  let w := (h.stored copy r i).toNat
  h.store copy r i (BitVec.ofNat 64 (w - (bits w hi lo <<< lo) + ((v % 2 ^ (hi + 1 - lo)) <<< lo)))

/-- A wrapping event counter of a register family raised by `n` (R147 and its kin). -/
def Head.count (h : Head) (r : Reg) (i n : Nat) : Head :=
  h.store 0 r i (h.stored 0 r i + BitVec.ofNat 64 n)

/-- The bits of a register that a reset leaves: P fields always; RWS fields unless the reset is a power reset (R6, R7,
R461). -/
def keepMask (d : RegDef) (power : Bool) : Nat :=
  d.flds.foldl (fun m f => if f.keep = .pers || (f.acc = .rws && !power) then m ||| maskBits f.hi f.lo else m) 0

/-- The register row that a number of the register file names. -/
def rowOfKey (k : Nat) : Option RegDef :=
  let n := (k / 1048576) % 128
  let all := regs00 ++ regs04 ++ regs05 ++ regs06 ++ regs07 ++ regs08 ++ regs09 ++ regs0A ++ regs0B ++ regs0C ++ regs0D
  all.find? (fun d => d.reg.ctorIdx = n)

/-- The register file after the reset of the islands that `isl` names: fields that do not persist return to their reset
values (R7). -/
def resetRegs (m : Sparse Word) (isl : Nat → Bool) (power : Bool) : Sparse Word :=
  m.foldl (fun acc e =>
    match rowOfKey e.1 with
    | none => place 0 acc e.1 e.2
    | some d =>
      if isl (d.island (e.1 % 1048576)) && d.scope ≠ .T then
        place 0 acc e.1 (e.2 &&& BitVec.ofNat 64 (keepMask d power))
      else place 0 acc e.1 e.2) []

/-! ## Views of the head -/

/-- The side of the head: SIDE_SEL as sampled (R13, R458). -/
def Head.side (h : Head) : Nat := h.sys.rst.straps % 2

/-- The other side. -/
def Head.far (h : Head) : Nat := 1 - h.side

/-- The state of an island. -/
def Head.island (h : Head) (i : Nat) : IState :=
  match h.sys.islands[i]? with
  | some x => x.st
  | none => .inReset

/-- The island runs. -/
def Head.runs (h : Head) (i : Nat) : Bool := h.island i = .running

/-- Frames of the mirror channel count for durability: the peer is in service and this head does not serve alone
(R278, R280). -/
def Head.mirroring (h : Head) : Bool := h.pair.fence.peer = .inService && !h.pair.solo

/-- The head serves SMBus only until its next head reset: it is FENCED (R267), or both heads reported the same side (R14). -/
def Head.dark (h : Head) : Bool := h.pair.fence.fenced || h.pair.fence.conflict

/-- The pair is whole (R280, R281, ADMSTAT.WHOLE): both heads in service and no hand-off activation running; a hand-off whose copy has
ended no longer counts (R281). -/
def Head.whole (h : Head) : Bool :=
  h.mirroring && !h.dark && !h.pair.remir && h.pair.handoff.all (fun o => o.step = 6) && h.pair.link.state = .up

/-- The head serves a side (R505 SERVE). -/
def Head.serves (h : Head) (s : Nat) : Bool := h.pair.serve.at s

/-- This head holds the admission ledger (R92): side 0 while it serves its side, side 1 from the fence of side 0, or from step 4 of a
hand-off activation, until side 0's queues have returned to it. -/
def Head.ledger (h : Head) : Bool := h.serves 0 || (h.side = 1 && h.pair.fence.peer = .fenced)

/-- The tier of a credential slot (Table 3-1). -/
def slotTier (n : Nat) : Tier := if n < 64 then .O else if n < 72 then .I else if n < 74 then .M else .F

/-- Tiers in the encoding of Table 2-1. -/
def Tier.num : Tier → Nat
  | .O => 0
  | .I => 1
  | .M => 2
  | .F => 3

/-- A tier is at least another. -/
def Tier.le (a b : Tier) : Bool := decide (Tier.num a ≤ Tier.num b)

end Sys2Proof.Machine
end

