-- ==== Sys2Proof/Machine/Tokens.lean ====
section
/-! DEFINITION. The tokens of the cadence (R22, R87, R88, R106): what contracts hold of a resource in an epoch, what best-effort work
may still take of it. -/

namespace Sys2Proof.Machine

/-- The contracts that are not FREE, with their numbers. -/
def Head.openContracts (h : Head) : List (Nat × Contract) :=
  (h.work.contracts.map (fun e => match e.2 with | some k => [(e.1, k)] | none => [])).flatten

/-- A contract that is not FREE. -/
def Head.contract (h : Head) (c : Nat) : Option Contract := look none h.work.contracts c

/-! ## Tokens (R22, R87, R88, R106) -/

/-- Tokens of 16 bytes that a resource gives in an epoch (Table 1-4): 0 HOST_IN, 1 PAIR_LINK at its width, 2 the NAND buses of the
sides served, 3 JOURNAL, for which Table 1-4 has no figure and the cap stands (DEDUCED, log entry 87). -/
def Head.capacity (h : Head) (r : Nat) : Nat :=
  match r with
  | 0 => 250000
  | 1 => 250000 * min h.pair.link.txw h.pair.link.rxw / 32
  | 2 => 144000 * max 1 ((upto 2).countP h.serves)
  | _ => nth 0 h.work.cost.caps 4

/-- A contract has work: some command under it is in flight. While it has none it leaves its tokens unused (R88). -/
def Head.hasWork (h : Head) (c : Nat) : Bool :=
  h.work.cmds.any (fun x => x.con && x.contract = c && (match x.phase with | .final => false | _ => true))

/-- Tokens of the epoch that contracts hold on a resource. -/
def Head.kept (h : Head) (r : Nat) : Nat :=
  sum (h.openContracts.map (fun k => if h.hasWork k.1 then nth 0 k.2.tokens r else 0))

/-- Best-effort work may start on a resource: some capacity that no contract holds is left in the epoch; it then finishes its unit
(R88). -/
def Head.spare (h : Head) (r : Nat) : Bool := decide (nth 0 h.work.spent r + h.kept r < h.capacity r)

/-- Tokens drawn on a resource: under a contract its own first (R88). -/
def Head.draw (h : Head) (r n : Nat) (con : Option Nat) : Head :=
  let h := { h with work := { h.work with spent := setNth h.work.spent r (nth 0 h.work.spent r + n) } }
  match con with
  | none => h
  | some c => { h with work := { h.work with
      contracts := h.work.contracts.map (fun e => if e.1 = c then
        (e.1, e.2.map (fun k => { k with tokens := setNth k.tokens r (nth 0 k.tokens r - n) })) else e) } }

/-- Tokens drawn on a resource for data of contracts, whose own the state does not say: the contracts with work give theirs in the order of
their numbers (DESIGN CHOICE, log entry 87). -/
def Head.drawHeld (h : Head) (r n : Nat) : Head :=
  let x := h.work.contracts.foldl (fun (acc : List (Nat × Option Contract) × Nat) e =>
    match e.2 with
    | some k =>
      let t := if h.hasWork e.1 then min acc.2 (nth 0 k.tokens r) else 0
      (acc.1 ++ [(e.1, some { k with tokens := setNth k.tokens r (nth 0 k.tokens r - t) })], acc.2 - t)
    | none => (acc.1 ++ [e], acc.2)) ([], n)
  { h with work := { h.work with spent := setNth h.work.spent r (nth 0 h.work.spent r + n), contracts := x.1 } }

/-- Tokens of the epoch that contracts have drawn on a resource. -/
def Head.heldSpent (h : Head) (r : Nat) : Nat := sum (h.openContracts.map (fun k => nth 0 k.2.loads r - nth 0 k.2.tokens r))

/-- Best-effort work has used less than half of what contracts leave it on a resource in the epoch (R475). -/
def Head.halfSpare (h : Head) (r : Nat) : Bool :=
  decide (2 * (nth 0 h.work.spent r - h.heldSpent r) < h.capacity r - (h.kept r + h.heldSpent r))

end Sys2Proof.Machine
end

