-- ==== Sys2Proof/Machine/Mirror.lean ====
section
/-! DEFINITION. Sending on the pair link (R278, R284-R288): control frames, the mirror and bulk channels with their
credits, the tags by which the head knows that a mirrored frame is on the peer; mirrored records and lehr pages. -/

namespace Sys2Proof.Machine

/-- Payload flits of a frame (R285): bytes in flits of 32; a record of a PSTORE structure takes one (DESIGN CHOICE, log
entry 12: the spec gives no record above 32 bytes a length in flits); what stands for many writes on flash, none (log entry 73). -/
def PlFrame.flits : PlFrame → Nat
  | .place _ _ _ b => 1 + ceilDiv b.length 32
  | .copypage _ _ _ b => 1 + ceilDiv b.length 32
  | .prec (.media _ _) => 0
  | .prec _ => 2
  | .copyrec (.media _ _) => 0
  | .copyrec (.image _ _ b) => 1 + ceilDiv b.length 32
  | .copyrec _ => 2
  | _ => 1

/-- A frame numbered and sent on a credited channel, or kept waiting for credits (R286). -/
def TxChan.push (c : TxChan) (f : PlFrame) : TxChan × List (Nat × PlFrame) :=
  let c' := { c with next := (c.next + 1) % 4294967296 }
  if c.waiting.isEmpty ∧ f.flits ≤ c.credit then
    ({ c' with unacked := c.unacked ++ [(c.next, f)], credit := c.credit - f.flits }, [(c.next, f)])
  else ({ c' with waiting := c.waiting ++ [(c.next, f)] }, [])

/-- A contracted PLACE frame goes ahead of the best-effort PLACE frames that wait last (R286): `free` says which frames those are.
Nothing else changes its place, so that no frame whose acknowledgement somebody waits for gets another number. -/
def TxChan.ahead (c : TxChan) (free : PlFrame → Bool) : TxChan :=
  match c.waiting.reverse with
  | [] => c
  | last :: r =>
    let run := (r.takeWhile (fun f => free f.2)).reverse
    let first := (r.dropWhile (fun f => free f.2)).reverse
    let ns := (run.map (fun f => f.1)) ++ [last.1]
    { c with waiting := first ++ ns.zip (last.2 :: run.map (fun f => f.2)) }

/-- Waiting frames sent in order while credits last: the frames left, the credits left, the frames sent. -/
def drainWaiting : List (Nat × PlFrame) → Nat → List (Nat × PlFrame) × Nat × List (Nat × PlFrame)
  | [], n => ([], n, [])
  | f :: r, n =>
    if f.2.flits ≤ n then
      let x := drainWaiting r (n - f.2.flits)
      (x.1, x.2.1, f :: x.2.2)
    else (f :: r, n, [])

/-- A channel with credits returned (R286). -/
def TxChan.credits (c : TxChan) (n : Nat) : TxChan × List (Nat × PlFrame) :=
  let x := drainWaiting c.waiting (c.credit + n)
  ({ c with waiting := x.1, credit := x.2.1, unacked := c.unacked ++ x.2.2 }, x.2.2)

/-- A channel after an acknowledgement up to and including `a` (modulo 2^32). -/
def TxChan.acked (c : TxChan) (a : Nat) : TxChan :=
  { c with unacked := c.unacked.filter (fun f => 2147483648 ≤ (a + 4294967296 - f.1) % 4294967296) }

/-- The frames of a channel from SEQ `s` on, to be sent again (R287). -/
def TxChan.from (c : TxChan) (s : Nat) : List (Nat × PlFrame) :=
  c.unacked.filter (fun f => (f.1 + 4294967296 - s) % 4294967296 < 2147483648)

/-- The head with its link replaced. -/
def Head.setLink (h : Head) (l : Link) : Head := { h with pair := { h.pair with link := l } }

/-! ## Frames as bytes (R285, Tables 10-1 and 10-2) -/

/-- The structure and the index of a record (Table 10-2, PREC); a structure that the table does not list has the code 0 (DESIGN
CHOICE, log entry 12). -/
def PRec.place : PRec → Nat × Nat
  | .journal _ r => (1, r.seq)
  | .held _ r => (2, r.seq)
  | .delta _ n _ => (3, n)
  | .stripe _ i _ _ _ _ _ _ => (4, i)
  | .bitmap _ i _ => (5, i)
  | .gcSlot _ i _ _ _ => (6, i)
  | .ledger c _ => (7, c)
  | .pageTab o p _ _ => (8, o * 2 ^ 31 + p)
  | .atomic a _ => (9, a.vid)
  | .epoch v => (10, v.num)
  | .volGone v => (10, v)
  | .repl i _ => (11, i)
  | .spill s _ _ => (12, s)
  | .setting _ reg i _ => (13, reg * 1048576 + i)
  | .evres s _ => (14, s)
  | .tapeJob s p _ => (15, 2 * s + p)
  | _ => (0, 0)

/-- The bytes of a record as they stand in a frame. -/
def PRec.bytes : PRec → List Byte
  | .image _ _ b => b
  | .media _ _ => []
  | r => fit 0 32 (Config.recordBytes r)

/-- TYPE, ARG0 and ARG1 of a frame, and its payload (Table 10-2). -/
def PlFrame.parts : PlFrame → Nat × Nat × Nat × List Byte
  | .heartbeat n st => (0x01, n, st * 2 ^ 62, [])
  | .ack m b => (0x02, m * 2 ^ 32 + b, 0, [])
  | .nak c s => (0x03, c * 2 ^ 32 + s, 0, [])
  | .credit m b => (0x04, m * 2 ^ 32 + b, 0, [])
  | .pfail => (0x05, 0, 0, [])
  | .control st a => (0x06, Config.stepCode st % 65536, a, [])
  | .place o p off b => (0x10, o * 2 ^ 63 + p * 2 ^ 32 + off, b.length, b)
  | .lpage o p use key => (0x11, o * 2 ^ 63 + p * 2 ^ 32, use * 2 ^ 56 + key, [])
  | .prec r => (0x12, r.place.1 * 2 ^ 56 + r.place.2 % 2 ^ 48, r.bytes.length, r.bytes)
  | .copypage o p off b => (0x20, o * 2 ^ 63 + p * 2 ^ 32 + off, b.length, b)
  | .copyrec r => (0x21, r.place.1 * 2 ^ 56 + r.place.2 % 2 ^ 48, r.bytes.length, r.bytes)

/-- The bytes of a frame on a channel: the header flit, with CHK over header and payload, and the payload padded to flits. -/
def PlFrame.bytes (f : PlFrame) (chan seq : Nat) : List Byte :=
  let (typ, a0, a1, pay) := f.parts
  let n := ceilDiv pay.length 32
  let body := fit 0 (32 * n) pay
  let hd := fun (chk : Nat) => leBytes 8 (pack [(56, typ), (54, chan), (32, n), (0, seq)]).toNat ++ leBytes 8 a0 ++ leBytes 8 a1 ++ leBytes 8 chk
  hd (crc32c (hd 0 ++ body)) ++ body

/-- Frames put on the wire, oldest first; while the link is not up they wait for the next training (R287, R288). -/
def Head.wire (h : Head) (chan : Nat) (fs : List (Nat × PlFrame)) : Head :=
  if h.pair.link.state = .up then fs.foldl (fun h f => h.emit (.pl (f.2.bytes chan f.1) f.2)) h else h

/-- A channel-0 frame sent (R286): not credited, not acknowledged; nothing is sent while the link is down. -/
def Head.sendCtl (h : Head) (f : PlFrame) : Head :=
  if h.pair.link.state = .up then h.emit (.pl (f.bytes 0 0) f) else h

/-- The contract whose lehr reservation the page of a PLACE frame is drawn from (R96). -/
def Head.placeUnder (h : Head) (f : PlFrame) : Option Nat :=
  match f with
  | .place o p _ _ => (h.pair.drawn.find? (fun d => d.1 = o * 1048576 + p)).map (fun d => d.2)
  | _ => none

/-- A PLACE frame of best-effort bytes. -/
def Head.freePlace (h : Head) (f : PlFrame) : Bool :=
  match f with
  | .place _ _ _ _ => (h.placeUnder f).isNone
  | _ => false

/-- A frame sent on the mirror channel, with the tag by which its acknowledgement is known: none where the head needs
only its own copy (R280). While it re-mirrors its peer, changes are sent again although the head does not wait for
them (R281). -/
def Head.mirror (h : Head) (f : PlFrame) : Head × Option Nat :=
  if h.mirroring || (h.pair.remir && h.pair.link.state = .up) then
    let tag := h.pair.link.mir.next
    let x := h.pair.link.mir.push f
    let con := h.placeUnder f
    let mir := if con.isSome && x.2.isEmpty then x.1.ahead h.freePlace else x.1
    let h := ((h.setLink { h.pair.link with mir := mir }).draw 1 (2 * f.flits) con).wire 1 x.2
    (h, if h.mirroring then some tag else none)
  else (h, none)

/-- As `mirror`, where nobody waits for the frame. -/
def Head.mirror' (h : Head) (f : PlFrame) : Head := (h.mirror f).1

/-- A record of a mirrored structure sent (Table 10-2, PREC). -/
def Head.record (h : Head) (r : PRec) : Head × Option Nat := h.mirror (.prec r)

/-- As `record`, where nobody waits for it. -/
def Head.record' (h : Head) (r : PRec) : Head := (h.record r).1

/-- Frames of the bulk channel that wait go out while credits last and best-effort work finds the link free in this epoch (R88,
R286). -/
def Head.bulkOut : Nat → Head → Head
  | 0, h => h
  | n + 1, h =>
    match h.pair.link.bulk.waiting with
    | [] => h
    | f :: r =>
      let b := h.pair.link.bulk
      if h.spare 1 && decide (f.2.flits ≤ b.credit) then
        Head.bulkOut n (((h.setLink { h.pair.link with
          bulk := { b with waiting := r, credit := b.credit - f.2.flits, unacked := b.unacked ++ [f] } }).draw 1 (2 * f.2.flits) none).wire 2 [f])
      else h

/-- A frame sent on the bulk channel. -/
def Head.bulk (h : Head) (f : PlFrame) : Head :=
  let b := h.pair.link.bulk
  Head.bulkOut (b.waiting.length + 1) (h.setLink { h.pair.link with
    bulk := { b with next := (b.next + 1) % 4294967296, waiting := b.waiting ++ [(b.next, f)] } })

/-- The bulk frames that wait, tried again. -/
def Head.bulkGo (h : Head) : Head := Head.bulkOut h.pair.link.bulk.waiting.length h

/-- The frame of a tag is on the peer, or need not be: it was acknowledged, or the head has come to serve alone. -/
def Head.landed (h : Head) (tag : Option Nat) : Bool :=
  match tag with
  | none => true
  | some t =>
    !h.mirroring ||
      !((h.pair.link.mir.unacked.any (fun f => f.1 = t)) || (h.pair.link.mir.waiting.any (fun f => f.1 = t)))

/-- Every PLACE frame for the pages of a list is on the peer (R279). -/
def Head.placesLanded (h : Head) (pages : List Nat) : Bool :=
  !h.mirroring ||
    !((h.pair.link.mir.unacked ++ h.pair.link.mir.waiting).any (fun f =>
        match f.2 with
        | .place o p _ _ => pages.contains (o * 1048576 + p)
        | _ => false))

/-! ## Lehr pages (R275, R276)

A page identity (o, p) is written o × 2^20 + p. -/

/-- The lehr size in force, in GiB: the smaller of the two heads' (R275), its own of a head that serves alone (R280). Of a head that it
rejoins, this head takes the size it last knew (DESIGN CHOICE, log entry 72). -/
def Head.lehrSize (h : Head) : Nat := if h.pair.solo && !h.pair.remir then h.pair.size else min h.pair.size h.pair.peerSize

/-- Pages a lehr of the size in force holds. -/
def Head.lehrPages (h : Head) : Nat := h.lehrSize * 16384

/-- The lowest `n` page numbers below `bound` that a predicate does not find taken, from `k` on. -/
def lowestFree (taken : Nat → Bool) : Nat → Nat → Nat → List Nat
  | 0, _, _ => []
  | fuel + 1, k, n =>
    if n = 0 then [] else if taken k then lowestFree taken fuel (k + 1) n else k :: lowestFree taken fuel (k + 1) (n - 1)

/-- Live pages that this head allocated. -/
def Head.primaries (h : Head) : Nat := h.pair.lehr.countP (fun p => p.o = h.side)

/-- Live pages that the peer allocated. -/
def Head.mirrors (h : Head) : Nat := h.pair.lehr.countP (fun p => p.o ≠ h.side)

/-- Pages still free in the lehr: distinct pages across the pair are bounded by its size (R275). -/
def Head.freePages (h : Head) : Nat := h.lehrPages - h.pair.lehr.length

/-- `n` fresh lehr pages for a use and a window key, each announced by an LPAGE frame (R278); their page numbers as
identities. -/
def Head.allocPages (h : Head) (n : Nat) (use : LUse) (key : Nat) : Head × List Nat :=
  let taken := fun p => h.pair.lehr.any (fun e => e.o = h.side && e.p = p)
  let ps := lowestFree taken (n + h.primaries) 0 n
  let h := ps.foldl (fun h p =>
    ({ h with pair := { h.pair with lehr := h.pair.lehr ++ [LPage.mk h.side p use key [] []] } }).mirror'
      (.lpage h.side p (match use with | .window => 1 | .image => 2) key)) h
  (h, ps.map (fun p => h.side * 1048576 + p))

/-- A side's spill sets without the copies of some pages. -/
def Spill.forget (s : Spill) (ids : List Nat) : Spill :=
  let keep := fun (x : Nat × LPage) => !(ids.contains (x.2.o * 1048576 + x.2.p))
  { s with holds := s.holds.filter keep, olds := s.olds.filter keep }

/-- Pages released or written since: the spill sets hold them no more (R292, R296). -/
def Head.unspill (h : Head) (ids : List Nat) : Head :=
  { h with pair := { h.pair with spill := ⟨h.pair.spill.s0.forget ids, h.pair.spill.s1.forget ids⟩ } }

/-- Pages released, each announced by an LPAGE frame of use 0. -/
def Head.freePagesOf (h : Head) (ids : List Nat) : Head :=
  let gone := ids.filter (fun i => h.pair.lehr.any (fun e => e.o * 1048576 + e.p = i))
  let h := h.unspill ids
  let h := { h with pair := { h.pair with
    lehr := h.pair.lehr.filter (fun e => !(ids.contains (e.o * 1048576 + e.p)))
    drawn := h.pair.drawn.filter (fun d => !(ids.contains d.1)) } }
  gone.foldl (fun h i => h.mirror' (.lpage (i / 1048576) (i % 1048576) 0 0)) h

/-- A page with bytes written at an offset; whole granules written clear their poison. -/
def LPage.write (p : LPage) (off : Nat) (b : List Byte) : LPage :=
  { p with
    data := writeBytes p.data off b
    pois := p.pois.filter (fun g => !(decide (off ≤ g * 4096) && decide (g * 4096 + 4096 ≤ off + b.length))) }

/-- Bytes placed in a lehr page, on this head and (R278) by a PLACE frame on the peer; while the peer is re-mirrored the page is sent
whole, since its copy may come later (R281). -/
def Head.placePage (h : Head) (id off : Nat) (b : List Byte) : Head :=
  if b.isEmpty then h
  else
    let h := h.unspill [id]
    let h := { h with pair := { h.pair with
      lehr := mapFirst (fun e => e.o * 1048576 + e.p = id) (fun e => e.write off b) h.pair.lehr } }
    match h.pair.lehr.find? (fun e => e.o * 1048576 + e.p = id) with
    | some e =>
      if h.pair.remir then h.mirror' (.place (id / 1048576) (id % 1048576) 0 (readBytes e.data 0 65536))
      else h.mirror' (.place (id / 1048576) (id % 1048576) off b)
    | none => h.mirror' (.place (id / 1048576) (id % 1048576) off b)

/-- The page of an identity. -/
def Head.page (h : Head) (id : Nat) : Option LPage := h.pair.lehr.find? (fun e => e.o * 1048576 + e.p = id)

/-- Bytes [off, off + n) of memory given by a list of pages, read from this head's copy. -/
def Head.pageBytes (h : Head) (pages : List Nat) (off n : Nat) : List Byte :=
  (upto n).map (fun i =>
    match h.page (nth 0 pages ((off + i) / 65536)) with
    | some p => readByte p.data ((off + i) % 65536)
    | none => 0)

/-- Some granule of bytes [off, off + n) of a list of pages carries poison. -/
def Head.pagesPoisoned (h : Head) (pages : List Nat) (off n : Nat) : Bool :=
  decide (0 < n) &&
  (upto ((off + n - 1) / 4096 + 1 - off / 4096)).any (fun k =>
    let g := off / 4096 + k
    match h.page (nth 0 pages (g / 16)) with
    | some p => p.pois.contains (g % 16)
    | none => false)

end Sys2Proof.Machine
end

