-- ==== Sys2Proof/Machine/Recorder.lean ====
section
/-! DEFINITION. The event recorder (R445-R451): writing a record or folding it into the newest, the buffer before PSTORE
is ready, the volatile ring with its reserved numbers, reading and clearing. -/

namespace Sys2Proof.Machine

/-- The recorder's newest record, wherever it stands. -/
def Recorder.last (r : Recorder) : Option Event :=
  if r.vol then r.volRing.getLast?
  else if r.ready then
    (match look none (r.ring.map (fun e => (e.1, some e.2))) (r.newest % 65536) with
     | some e => if e.seq = r.newest then some e else none
     | none => none)
  else r.buffer.getLast?

/-- Two events are repeats of one another (R448). -/
def Event.repeats (a b : Event) : Bool :=
  a.code = b.code && a.slot = b.slot && a.srck = b.srck && a.srci = b.srci && a.arg0 = b.arg0 && a.arg1 = b.arg1 &&
    a.arg2 = b.arg2 && decide (a.rpt < 0xFFFFFFFF) && a.code ≠ 0x0F01

/-- The record with one repeat folded in. -/
def Event.fold (a : Event) (now : Nat) : Event := { a with rpt := a.rpt + 1, last := now }

/-- An empty record: what an unlisted slot of the ring holds. -/
def Event.blank : Event := ⟨0, 0, 0, 0, 0, false, 0, 0, 0, 0, 0, 0, 0, 0, 0⟩

/-- The head with its recorder replaced. -/
def Head.setRcd (h : Head) (r : Recorder) : Head := { h with rcd := r }

/-- The next number of a volatile record (R446): the next of the reserved block, the first of a new block that is first
reserved on the peer, or 2^63 + k where the pair is not whole. -/
def Head.volNumber (h : Head) : Head × Nat :=
  let r := h.rcd
  if r.volNext < r.resEnd then (h.setRcd { r with volNext := r.volNext + 1 }, r.volNext + 1)
  else if h.whole then
    let base := (max (max r.newest r.volNext) (h.pair.evres.at h.side) / 1048576 + 1) * 1048576
    let stop := base + 1048575
    let h := ({ h with pair := { h.pair with evres := h.pair.evres.put h.side stop } }).record' (.evres h.side stop)
    (h.setRcd { r with volNext := base, resEnd := stop }, base)
  else (h.setRcd { r with volK := r.volK + 1 }, 2 ^ 63 + r.volK)

/-- A record written as new (R445, R446), without a test for a repeat. -/
def Head.newRecord (h : Head) (e : Event) : Head :=
  let r := h.rcd
  if r.vol then
    let x := h.volNumber
    let ring := (x.1.rcd.volRing ++ [{ e with seq := x.2 }])
    x.1.setRcd { x.1.rcd with volRing := ring.drop (ring.length - 1024) }
  else if r.ready then
    let n := r.newest + 1
    h.setRcd { r with ring := place Event.blank r.ring (n % 65536) { e with seq := n }, newest := n }
  else if r.buffer.length < 256 then h.setRcd { r with buffer := r.buffer ++ [e] }
  else h.setRcd { r with drop := satAdd 0xFFFFFFFF r.drop 1 }

/-- The newest record replaced by itself with one repeat (R448). -/
def Recorder.foldLast (r : Recorder) (e : Event) (now : Nat) : Recorder :=
  if r.vol then { r with volRing := r.volRing.dropLast ++ [e.fold now] }
  else if r.ready then { r with ring := place Event.blank r.ring (r.newest % 65536) (e.fold now) }
  else { r with buffer := r.buffer.dropLast ++ [e.fold now] }

/-- An event raised (R447-R449): folded into the newest record where it repeats it, else a new record. -/
def Head.event (h : Head) (code sev slot srck srci a0 a1 a2 : Nat) : Head :=
  let e : Event := ⟨0, h.now, h.now, code, sev, h.tset, slot, 0, srck, srci, h.side, h.sys.rst.bootn % 2 ^ 32,
    a0 % 2 ^ 64, a1 % 2 ^ 64, a2 % 2 ^ 32⟩
  match h.rcd.last with
  | some p => if p.repeats e then h.setRcd (h.rcd.foldLast p h.now) else h.newRecord e
  | none => h.newRecord e

/-- An event of the head without a slot. -/
def Head.headEvent (h : Head) (code sev a0 a1 : Nat) : Head := h.event code sev 0xFF 0 0 a0 a1 0

/-- The recorder starts to keep its records in the PSTORE ring (R446): buffered records are written in order, above the
side's reservation and the newest number of the ring; discards are reported. -/
def Head.recorderStart (h : Head) (reservation : Nat) : Head :=
  if h.rcd.ready || h.rcd.vol then h
  else
    let buf := h.rcd.buffer
    let drop := h.rcd.drop
    let h := h.setRcd { h.rcd with ready := true, buffer := [], newest := max h.rcd.newest reservation }
    let h := buf.foldl (fun h e => h.newRecord e) h
    if 0 < drop then h.headEvent 0x0F02 2 drop 0 else h

/-- The recorder turns to its volatile ring (R446): `why` is 1 where PSTORE was declared failed, 2 where it could not
be read at boot. -/
def Head.recorderVolatile (h : Head) (why : Nat) : Head :=
  if h.rcd.vol then h
  else
    let buf := h.rcd.buffer
    let drop := h.rcd.drop
    let h := h.setRcd { h.rcd with vol := true, ready := false, buffer := [], volRing := [], volNext := 0, resEnd := 0, volK := 0, pfloor := h.rcd.floor }
    let h := buf.foldl (fun h e => h.newRecord e) h
    h.headEvent 0x0F02 2 drop why

/-! ## Reading (R450) -/

/-- The record numbered `s`, where it is present: in its slot, not below FLOOR unless it is an EVENT_CLEAR record. -/
def Head.eventAt (h : Head) (s : Nat) : Option Event :=
  let r := h.rcd
  let here (e : Event) : Bool := e.seq = s && (decide (r.floor ≤ s) || e.code = 0x0F01)
  if r.vol then r.volRing.find? here
  else
    let e := look Event.blank r.ring (s % 65536)
    if s ≠ 0 && here e then some e else none

/-- The newest number: of the ring, or of the volatile ring while that is in use. -/
def Head.newestEvent (h : Head) : Nat :=
  if h.rcd.vol then (match h.rcd.volRing.getLast? with | some e => e.seq | none => h.rcd.newest) else h.rcd.newest

/-- The 64 bytes of a record (Table 15-1), with its CHK over all of them. -/
def Event.bytes (e : Event) : List Byte :=
  let w (c : Nat) : List Byte :=
    leBytes 8 e.seq ++ leBytes 8 e.time ++ leBytes 8 e.last ++
    leBytes 8 ((e.code <<< 48) + (e.sev <<< 46) + (bnat e.tset <<< 45) + (e.slot <<< 32) + e.rpt) ++
    leBytes 8 ((e.srck <<< 56) + (e.srci <<< 40) + (e.side <<< 39) + e.boot) ++
    leBytes 8 e.arg0 ++ leBytes 8 e.arg1 ++ leBytes 8 ((e.arg2 <<< 32) + c)
  w (crc32c (w 0))

/-! ## Clearing (R451) -/

/-- EVENT.CLEAR: the clear record with number c, FLOOR := c, the records below c removed except EVENT_CLEAR records;
the answer is c. While the volatile ring is in use the PSTORE ring is out of reach, and so is the FLOOR that stands there
(DESIGN CHOICE, log entry 79). -/
def Head.clearEvents (h : Head) (slot : Nat) : Head × Nat :=
  let r := h.rcd
  let live (e : Event) : Bool := decide (r.floor ≤ e.seq) && e.code ≠ 0x0F01
  let removed := if r.vol then r.volRing.countP live else (r.ring.countP (fun x => live x.2))
  let e : Event := ⟨0, h.now, h.now, 0x0F01, 1, h.tset, slot, 0, 0, 0, h.side, h.sys.rst.bootn % 2 ^ 32,
    r.floor, removed, 0⟩
  let h := h.newRecord e
  let c := h.newestEvent
  let r := h.rcd
  (h.setRcd { r with
    floor := c
    ring := if r.vol then r.ring else r.ring.filter (fun x => x.2.code = 0x0F01 || decide (c ≤ x.2.seq))
    volRing := r.volRing.filter (fun x => x.code = 0x0F01 || decide (c ≤ x.seq)) }, c)

end Sys2Proof.Machine
end

