-- ==== Sys2Proof/Machine/Wire.lean ====
section
/-! DEFINITION. CPT packets as bytes (R109, R110, R112-R115, Tables 5-1 to 5-5): the packet a message makes, and what the bytes of a
received frame say. -/

namespace Sys2Proof.Machine

/-! ## Packets made (R112-R114) -/

/-- TYPE (Table 5-3). -/
def CptMsg.typ : CptMsg → Nat
  | .write _ _ _ _ _ => 1
  | .submit _ _ _ => 2
  | .complete _ _ _ => 3
  | .ack _ _ _ _ => 4
  | .connect _ _ _ _ _ _ => 5
  | .close _ => 6
  | .event _ _ _ => 7
  | .session _ _ => 8
  | .keepalive => 9

/-- The bytes of a completion record: four little-endian words (R60). -/
def CRec.bytes (r : CRec) : List Byte :=
  leBytes 8 r.c0.toNat ++ leBytes 8 r.c1.toNat ++ leBytes 8 r.c2.toNat ++ leBytes 8 r.c3.toNat

/-- The type header (Table 5-4), big-endian (R4). -/
def CptMsg.head : CptMsg → List Byte
  | .write key gen off _ _ => Sha.beBytes 4 key ++ Sha.beBytes 2 gen ++ [0, 0] ++ Sha.beBytes 8 off
  | .submit q slot es => Sha.beBytes 2 q ++ [BitVec.ofNat 8 es.length, 0] ++ Sha.beBytes 4 slot
  | .complete q qnext rs => Sha.beBytes 2 q ++ [BitVec.ofNat 8 rs.length, 0] ++ Sha.beBytes 4 qnext
  | .ack cum tse adly rs => Sha.beBytes 4 cum ++ Sha.beBytes 4 tse ++ Sha.beBytes 4 adly ++ [BitVec.ofNat 8 rs.length, 0, 0, 0]
  | .connect scon isn tse maxpay flags reason =>
    Sha.beBytes 4 scon ++ Sha.beBytes 4 isn ++ Sha.beBytes 4 tse ++ Sha.beBytes 2 maxpay ++ [BitVec.ofNat 8 flags, BitVec.ofNat 8 reason]
  | .close reason => BitVec.ofNat 8 reason :: List.replicate 7 0
  | .event code detail arg => Sha.beBytes 2 code ++ [0, 0] ++ Sha.beBytes 4 detail ++ Sha.beBytes 8 arg.toNat
  | .session step _ => BitVec.ofNat 8 step :: List.replicate 7 0
  | .keepalive => []

/-- The payload, whose length is LEN. -/
def CptMsg.pay : CptMsg → List Byte
  | .write _ _ _ b _ => b
  | .submit _ _ es => es.flatten
  | .complete _ _ rs => rs.flatMap CRec.bytes
  | .ack _ _ _ rs => rs.flatMap (fun r => Sha.beBytes 4 r.1 ++ Sha.beBytes 4 r.2)
  | .session _ b => b
  | _ => []

/-- LAST of a message. -/
def CptMsg.last : CptMsg → Bool
  | .write _ _ _ _ l => l
  | _ => false

/-- The bytes of a packet: base header (Table 5-2), type header, payload and CHK (R109). -/
def cptPacket (dconn psn tsv : Nat) (acknow retx : Bool) (m : CptMsg) : List Byte :=
  let b := [BitVec.ofNat 8 (16 + m.typ), BitVec.ofNat 8 (128 * bnat m.last + 64 * bnat acknow + 32 * bnat retx)] ++
    Sha.beBytes 2 m.pay.length ++ Sha.beBytes 4 dconn ++ Sha.beBytes 4 psn ++ Sha.beBytes 4 tsv ++ m.head ++ m.pay
  b ++ Sha.beBytes 4 (crc32c b)

/-! ## Addresses and checksums (R109, R110) -/

/-- An IPv4 address as an IPv6 one. -/
def mapped4 (a : Nat) : Nat := 0xFFFF * 2 ^ 32 + a

/-- An address that stands for an IPv4 one. -/
def isV4 (a : Nat) : Bool := a / 2 ^ 32 = 0xFFFF

/-- The 16-bit words of bytes added up; an odd last byte counts as the upper one. -/
def sum16 : List Byte → Nat
  | a :: b :: r => 256 * a.toNat + b.toNat + sum16 r
  | [a] => 256 * a.toNat
  | [] => 0

/-- A sum folded to 16 bits with its carries. -/
def fold16 (n : Nat) : Nat :=
  let m := n % 65536 + n / 65536
  let m := m % 65536 + m / 65536
  m % 65536 + m / 65536

/-- The pseudo header of UDP, as a sum. -/
def pseudo16 (src dst n : Nat) : Nat :=
  if isV4 dst then sum16 (Sha.beBytes 4 (src % 2 ^ 32) ++ Sha.beBytes 4 (dst % 2 ^ 32)) + 17 + n
  else sum16 (Sha.beBytes 16 src ++ Sha.beBytes 16 dst) + 17 + n % 65536 + n / 65536

/-- The UDP checksum sent (Table 5-1): 0 over IPv4, computed over IPv6. -/
def udpSumSent (src dst sport dport : Nat) (b : List Byte) : Nat :=
  if isV4 dst then 0
  else
    let s := fold16 (pseudo16 src dst (8 + b.length) + sport + dport + (8 + b.length) + sum16 b)
    if s = 0xFFFF then 0xFFFF else 0xFFFF - s

/-! ## Frames received (R110, R115) -/

/-- A big-endian field of bytes; what lies past their end reads 0. -/
def beAt (b : List Byte) (at_ n : Nat) : Nat := beNat (fit 0 n ((b.drop at_).take n))

/-- EtherType behind the tags of a frame: the tags, the EtherType, the place of what follows it. -/
def etherOf (b : List Byte) : Nat → Nat → Nat → Nat × Nat × Nat
  | 0, at_, n => (n, beAt b at_ 2, at_ + 2)
  | fuel + 1, at_, n =>
    let t := beAt b at_ 2
    if t = 0x8100 || t = 0x88A8 then etherOf b fuel (at_ + 4) (n + 1) else (n, t, at_ + 2)

/-- What an IP header says: valid under R110, source, destination, and the bytes that UDP has: none where the protocol is another. -/
structure IpInfo where
  ok  : Bool
  src : Nat
  dst : Nat
  udp : List Byte
deriving DecidableEq, Repr

/-- The IPv4 or IPv6 header at the front of bytes (Table 5-1). -/
def ipOf (etherType : Nat) (b : List Byte) : IpInfo :=
  if etherType = 0x0800 then
    let total := beAt b 2 2
    ⟨beAt b 0 1 = 0x45 && decide (20 ≤ total) && decide (total ≤ b.length) && beAt b 6 2 % 16384 = 0 && fold16 (sum16 (b.take 20)) = 0xFFFF,
      mapped4 (beAt b 12 4), mapped4 (beAt b 16 4), if beAt b 9 1 = 17 then (b.take total).drop 20 else []⟩
  else if etherType = 0x86DD then
    let len := beAt b 4 2
    ⟨beAt b 0 1 / 16 = 6 && decide (40 + len ≤ b.length) && beAt b 6 1 = 17, beAt b 8 16, beAt b 24 16, (b.drop 40).take len⟩
  else ⟨false, 0, 0, []⟩

/-- Bytes of the type header (Table 5-4), for a TYPE that is listed. -/
def typeHead : Nat → Option Nat
  | 1 => some 16
  | 2 => some 8
  | 3 => some 8
  | 4 => some 16
  | 5 => some 16
  | 6 => some 8
  | 7 => some 16
  | 8 => some 8
  | 9 => some 0
  | _ => none

/-- LEN is one that the type header allows (Table 5-4). -/
def lenFits (typ len : Nat) (head : List Byte) : Bool :=
  match typ with
  | 1 => decide (1 ≤ len) && decide (len ≤ 8192)
  | 2 => len = 128 * beAt head 2 1 && decide (beAt head 2 1 ≤ 8)
  | 3 => len = 32 * beAt head 2 1 && decide (beAt head 2 1 ≤ 32)
  | 4 => len = 8 * beAt head 12 1 && decide (beAt head 12 1 ≤ 4)
  | 8 => len = (match beAt head 0 1 with | 1 => 40 | 2 => 128 | 3 => 64 | 4 => 8 | _ => len + 1)
  | _ => len = 0

/-- The reserved fields of the base header, the type header and the SESSION payloads are 0 (R115). -/
def reservedOk (typ flags : Nat) (head pay : List Byte) : Bool :=
  flags % 32 = 0 &&
  (match typ with
   | 1 => beAt head 6 2 = 0
   | 2 => beAt head 3 1 = 0
   | 3 => beAt head 3 1 = 0
   | 4 => beAt head 13 3 = 0
   | 5 => beAt head 14 1 / 8 % 2 = 0
   | 6 => beAt head 1 7 = 0
   | 7 => beAt head 2 2 = 0
   | 8 => beAt head 1 7 = 0 &&
     (match beAt head 0 1 with | 1 => beAt pay 1 7 = 0 | 4 => beAt pay 3 5 = 0 | _ => true)
   | _ => true)

/-- A received frame read: the flags of the checks and the fields of the packet. -/
def Rx.pkt (r : Rx) : Pkt :=
  let f := r.frame
  let n := f.length
  let e := etherOf f 8 12 0
  let ip := ipOf e.2.1 ((f.take (n - 4)).drop e.2.2)
  let ulen := beAt ip.udp 4 2
  let sumOk := decide (8 ≤ ulen) && decide (ulen ≤ ip.udp.length) &&
    (beAt ip.udp 6 2 = 0 || fold16 (pseudo16 ip.src ip.dst ulen + sum16 (ip.udp.take ulen)) = 0xFFFF)
  let p := (ip.udp.take ulen).drop 8
  let typ := beAt p 0 1 % 16
  let flags := beAt p 1 1
  let len := beAt p 2 2
  let hd := (typeHead typ).getD 0
  let head := (p.drop 16).take hd
  let pay := (p.drop (16 + hd)).take len
  { frame := {
      fcsOk := decide (18 ≤ n) && crc32 (f.take (n - 4)) = leNat (f.drop (n - 4)), length := n, tags := e.1, etherType := e.2.1
      ipOk := ip.ok, dst := ip.dst, udpPort := beAt ip.udp 2 2, udpSumOk := sumOk, ver := beAt p 0 1 / 16
      lenOk := (typeHead typ).isSome && p.length = 16 + hd + len + 4 && lenFits typ len head
      chkOk := crc32c (p.take (p.length - 4)) = beNat (p.drop (p.length - 4))
      resOk := reservedOk typ flags head pay }
    arr := r.arr, src := ip.src, sport := beAt ip.udp 0 2, dconn := beAt p 4 4, psn := beAt p 8 4, tsv := beAt p 12 4
    last := bit flags 7, acknow := bit flags 6, retx := bit flags 5, typ := typ, head := head, pay := pay }

/-- A field of the type header. -/
def Pkt.th (k : Pkt) (at_ n : Nat) : Nat := beAt k.head at_ n

/-- STEP of a SESSION packet; 0 for another type. -/
def Pkt.sessionStep (k : Pkt) : Nat := if k.typ = 8 then k.th 0 1 else 0

/-- Bytes in parts of `n`. -/
def partsOf (n : Nat) : Nat → List Byte → List (List Byte)
  | 0, _ => []
  | k + 1, b => b.take n :: partsOf n k (b.drop n)

/-- The completion record of 32 bytes. -/
def crecOf (b : List Byte) : CRec :=
  let w := fun (k : Nat) => BitVec.ofNat 64 (leNat ((b.drop (8 * k)).take 8))
  ⟨w 0, w 1, w 2, w 3⟩

/-- The ranges of an ACK. -/
def Pkt.ranges (k : Pkt) : List (Nat × Nat) :=
  (partsOf 8 (k.th 12 1) k.pay).map (fun b => (beAt b 0 4, beAt b 4 4))

end Sys2Proof.Machine
end

