-- ==== Sys2Proof/Machine/Cpt.lean ====
section
/-! DEFINITION. Connections as senders and receivers share them (R109-R132, R146): frames on the host links, finding a connection,
sending a reliable packet, events to connections and to subscribers, completion packets, the end of a connection. -/

namespace Sys2Proof.Machine

/-! ## Frames sent (R109-R111) -/

/-- A head address of a side (R111): IPv4 as ::ffff:a.b.c.d, or IPv6; 0 where none is set. -/
def Head.addr4 (h : Head) (side : Nat) : Nat := let a := h.cfgS side .HADDR4 0 31 0; if a = 0 then 0 else mapped4 a
def Head.addr6 (h : Head) (side : Nat) : Nat := h.cfgS side .HADDR6H 0 63 0 * 2 ^ 64 + h.cfgS side .HADDR6L 0 63 0

/-- The VLAN of the tag that a side's frames carry (HADDRV). -/
def Head.vlan (h : Head) (side : Nat) : Option Nat :=
  if h.cfgS side .HADDRV 0 12 12 = 1 then some (h.cfgS side .HADDRV 0 11 0) else none

/-- The UDP source port of a frame. -/
def EthBody.port : EthBody → Nat
  | .cpt _ _ _ _ _ sport _ _ _ => sport
  | _ => 0

/-- A frame leaves on a link that is up and that no pause stops (R110); it waits while pauses stop every link that it may take. With no
such link up it goes nowhere (log entry 92). A head whose lanes idle sends nothing (R267). -/
def Head.sendEth (h : Head) (f : EthOut) : Head :=
  let ups := (upto 32).filter (fun i => h.net.up.getLsbD i && (match f.link with | some l => i = l | none => true))
  let free := ups.filter (fun i => decide (look 0 h.net.paused i ≤ h.now))
  if h.dark || ups.isEmpty then h
  else if free.isEmpty then { h with net := { h.net with txq := h.net.txq ++ [f] } }
  else
    let l := nth 0 free (Config.txLink h.now f.body.port % free.length)
    h.emit (.eth l ((Config.macBase + l) % 2 ^ 48) f.vlan f.body)

/-- Frames that waited for a link are sent where they now may. -/
def Head.flushTx (h : Head) : Head := h.net.txq.foldl Head.sendEth { h with net := { h.net with txq := [] } }

/-- The UDP source port of a path of a connection (R132). -/
def pathPort (n path : Nat) : Nat := 49152 + (Config.pathBase n + path) % 16384

/-- The bytes of a packet on their way from a side's address (R109, R110, Table 5-1). -/
def Head.sendPacket (h : Head) (side dst dscp sport dport : Nat) (b : List Byte) : Head :=
  let src := if isV4 dst then h.addr4 side else h.addr6 side
  h.sendEth ⟨none, h.vlan side, .cpt src dst dscp 64 (isV4 dst) sport dport (udpSumSent src dst sport dport b) b⟩

/-- CPTCFG.UDPPORT. -/
def Head.udpPort (h : Head) : Nat := h.cfg .CPTCFG 0 63 48

/-! ## Connections -/

/-- The head with its connections replaced. -/
def Head.setConns (h : Head) (l : List Conn) : Head := { h with net := { h.net with conns := l } }

/-- The connection of a number. -/
def Head.conn (h : Head) (n : Nat) : Option Conn := h.net.conns.find? (fun c => c.num = n)

/-- The head with one connection changed. -/
def Head.updConn (h : Head) (n : Nat) (f : Conn → Conn) : Head :=
  h.setConns (mapFirst (fun c => c.num = n) f h.net.conns)

/-- A connection is the one that a packet concerns: it comes first in the order of use that the context cache keeps (R119). -/
def Head.noteUse (h : Head) (n : Nat) : Head :=
  { h with net := { h.net with recent := n :: h.net.recent.filter (fun m => m ≠ n) } }

/-- A connection is never evicted from the context cache (R119): it is attached to a queue with an open contract, or its last-flag packet
fired an entry under contract within the last second. -/
def Head.connPinned (h : Head) (c : Conn) : Bool :=
  h.work.queues.any (fun e => e.2.conn = some c.num && h.work.contracts.any (fun k =>
    match k.2 with | some k => k.state = .opened && k.side = e.1 / 65536 && k.queue = e.1 % 65536 | none => false)) ||
  (c.firedAt ≠ 0 && decide (h.now < c.firedAt + 1000000000))

/-- The connections that the context cache holds (R119): those that are never evicted, and of the others the most recently used, 65,536 in
all. What it evicts is the model's choice (DESIGN CHOICE, log entry 92). -/
def Head.cachedConns (h : Head) : List Nat :=
  let pin := (h.net.conns.filter h.connPinned).map (fun c => c.num)
  pin ++ (h.net.recent.filter (fun n => !pin.contains n)).take (65536 - pin.length)

/-- The DSCP of a packet: of the connection's class for WRITE and SUBMIT, of class 0 for every other type (R130). -/
def Head.dscpOf (h : Head) (c : Conn) (m : CptMsg) : Nat := h.cfg .CLASS (if m.typ ≤ 2 then c.tclass else 0) 13 8

/-- A packet of a connection sent on a path: the time of the last sending is kept for R128. -/
def Head.sendMsg (h : Head) (c : Conn) (psn path : Nat) (retx : Bool) (dport : Nat) (m : CptMsg) : Head :=
  let h := if h.dark then h else h.updConn c.num (fun c => { c with lastTx := h.now })
  h.sendPacket c.side c.addr (h.dscpOf c m) (pathPort c.num path) dport
    (cptPacket c.far psn (h.now % 4294967296) false retx m)

/-- The UDP port that a connection's packets go to (R109, R145). -/
def Head.dport (h : Head) (c : Conn) : Nat := if c.dport = 0 then h.udpPort else c.dport

/-- Sending paths of a connection. -/
def Head.paths (h : Head) : Nat := max 1 (h.cfg .CPTCFG 0 7 0)

/-- The path for a number: the paths are used in turn, those suspended by R132 left out where another is free. -/
def Head.pathOf (h : Head) (n k : Nat) : Nat :=
  let ok := (upto h.paths).filter (fun p => !(h.net.paths.any (fun x => x.conn = n && x.path = p)))
  if ok.isEmpty then k % h.paths else nth 0 ok (k % ok.length)

/-- A packet that is not numbered, on an open or opening connection (R113). -/
def Head.sendFree (h : Head) (n : Nat) (m : CptMsg) : Head :=
  match h.conn n with
  | some c => h.sendMsg c 0 (h.pathOf n 0) false (h.dport c) m
  | none => h

/-- A PSN may be sent (R127): no more than 65,536 lie between the lowest one unacknowledged and the next. -/
def Conn.fits (c : Conn) (psn : Nat) : Bool :=
  match c.unacked with
  | [] => true
  | p :: _ => decide ((psn + 4294967296 - p.psn) % 4294967296 < 65536)

/-- A reliable packet on an open connection (R113, R126, R127): it takes the next PSN, is sent where the limit of R127 lets it and
kept until acknowledged. The answer is its PSN. -/
def Head.reliable (h : Head) (n : Nat) (m : CptMsg) : Head × Nat :=
  match h.conn n with
  | none => (h, 0)
  | some c =>
    let psn := c.txNext
    let path := h.pathOf n psn
    let go := c.fits psn
    let h := h.updConn n (fun c =>
      { c with
        txNext := (psn + 1) % 4294967296
        unacked := c.unacked ++ [⟨psn, h.now, h.now, path, m, go⟩]
        progAt := if c.unacked.isEmpty then h.now else c.progAt })
    (if go then h.sendMsg c psn path false (h.dport c) m else h, psn)

/-- As `reliable`, where the PSN is not needed. -/
def Head.reliable' (h : Head) (n : Nat) (m : CptMsg) : Head := (h.reliable n m).1

/-- Packets that waited for the limit of R127 and now lie within it are sent. -/
def Head.releaseTx (h : Head) (n : Nat) : Head :=
  match h.conn n with
  | none => h
  | some c =>
    (c.unacked.filter (fun p => !p.out && c.fits p.psn)).foldl (fun h p =>
      (h.updConn n (fun c => { c with
        unacked := mapFirst (fun q => q.psn = p.psn) (fun q => { q with first := h.now, sent := h.now, out := true }) c.unacked })).sendMsg
        c p.psn p.path false (h.dport c) p.msg) h

/-! ## Events (R146) -/

/-- An event counted under its code. -/
def Head.countEvent (h : Head) (code : Nat) : Head :=
  { h with net := { h.net with evs := place 0 h.net.evs code (look 0 h.net.evs code + 1) } }

/-- A connection event. -/
def Head.connEvent (h : Head) (n code detail : Nat) (arg : Word) : Head :=
  (h.countEvent code).reliable' n (.event code detail arg)

/-- A connection event sent once per connection for one argument (R118, R120, R121, R136). -/
def Head.connEventOnce (h : Head) (n code key detail : Nat) (arg : Word) : Head :=
  match h.conn n with
  | none => h
  | some c =>
    if c.once.contains (code, key) then h
    else (h.updConn n (fun c => { c with once := (code, key) :: c.once })).connEvent n code detail arg

/-- A device event: counted, recorded (R449) and sent to every open connection that asked for events. -/
def Head.deviceEvent (h : Head) (code detail : Nat) (arg : Nat) : Head :=
  let h := (h.countEvent code).headEvent code (if code = 0x0110 then 2 else 1) detail arg
  (h.net.conns.filter (fun c => c.evsub && c.state = .opened)).foldl
    (fun h c => h.reliable' c.num (.event code detail (BitVec.ofNat 64 arg))) h

/-- A head counter of received packets raised (Table 5-19). -/
def Head.rxCount (h : Head) (n : Nat) : Head := h.count .CPTCNT n 1

/-! ## Queues, as connections see them -/

/-- An empty queue: never attached, QNEXT 0 (R120). -/
def Queue.fresh : Queue :=
  { qnext := 0, slots := [], conn := none, doze := 0, rst := false, fence := false, abandN := 0, doneN := 0,
    traps := 0, srEv := [], said := 0, idle := false }

/-- Key of a queue or stream of a side. -/
def sq (side q : Nat) : Nat := side * 65536 + q

/-- A queue of a side. -/
def Head.queue (h : Head) (side q : Nat) : Queue := look Queue.fresh h.work.queues (sq side q)

/-- The head with a queue replaced. -/
def Head.setQueue (h : Head) (side q : Nat) (x : Queue) : Head :=
  { h with work := { h.work with queues := place Queue.fresh h.work.queues (sq side q) x } }

/-- The head with a queue changed. -/
def Head.updQueue (h : Head) (side q : Nat) (f : Queue → Queue) : Head := h.setQueue side q (f (h.queue side q))

/-- QNEXT of a queue and how far its QRESET has come go to the peer (R120, R170). -/
def Head.sayQueue (h : Head) (side q : Nat) : Head :=
  let x := h.queue side q
  h.record' (.queue side q x.qnext x.rst x.fence x.abandN x.doneN)

/-- A COMPLETE packet (R122) with the queue's QNEXT. -/
def Head.sendComplete (h : Head) (n side q : Nat) (recs : List CRec) : Head :=
  let qn := (h.queue side q).qnext
  let h := h.updQueue side q (fun x => { x with said := qn })
  h.reliable' n (.complete q qn recs)

/-- A completion record sent on a connection, or dropped where that connection no longer takes it (R61). -/
def Head.postTo (h : Head) (n side q : Nat) (r : CRec) : Head :=
  match h.conn n with
  | some c => if c.state = .opened then h.sendComplete n side q [r] else h
  | none => h

/-- A completion record (Table 3-3). -/
def crec (tag queue status : Nat) (tko pmap : Bool) (jseq : Nat) (result : Word) (aux : Nat) : CRec :=
  { c0 := pack [(32, tag), (16, queue), (0, status)]
    c1 := pack [(63, bnat tko), (62, bnat pmap), (0, jseq)]
    c2 := result
    c3 := pack [(0, aux % 2 ^ 32)] }

/-! ## The end of a connection (R118) -/

/-- A replication slot whose target connection is gone (R311): a cycle in progress is RETRYING. -/
def Rep.lost (x : Rep) : Rep :=
  { x with conn := none, phase := 0, left := 0, win := 0, state := if x.state = 1 ∧ x.phase ≠ 0 then 2 else x.state }

/-- The replication slots of a connection that is gone; their records are mirrored. -/
def Head.repsLost (h : Head) (n : Nat) : Head :=
  let mine := fun (e : Nat × Option Rep) => match e.2 with | some x => x.conn = some n | none => false
  let hit := h.pair.reps.filter mine
  if hit.isEmpty then h
  else
    let h := { h with pair := { h.pair with reps := h.pair.reps.map (fun e => if mine e then (e.1, e.2.map Rep.lost) else e) } }
    hit.foldl (fun h e => h.record' (.repl e.1 (e.2.map Rep.lost))) h

/-- A connection reaches CLOSED: its context, session and held packets go; the queues attached to it are detached and
emptied, and what it brought to other queues is discarded (R58, R118); its outbound windows are released. Verbs that deliver into them learn it when commands
next settle. -/
def Head.connClosed (h : Head) (n : Nat) : Head :=
  let h := h.setConns (h.net.conns.filter (fun c => c.num ≠ n))
  let qs : Sparse Queue := h.work.queues.map (fun e =>
    (e.1, { e.2 with
      conn := if e.2.conn = some n then none else e.2.conn
      slots := if e.2.conn = some n then [] else e.2.slots.filter (fun s => s.2.2 ≠ n)
      srEv := e.2.srEv.filter (fun c => c ≠ n) }))
  let h := h.repsLost n
  { h with
    work := { h.work with queues := qs.filter (fun e => e.2 ≠ Queue.fresh) }
    net := { h.net with
      windows := h.net.windows.filter (fun w => !(w.out && w.conn = n))
      goneOut := h.net.goneOut ++ (h.net.windows.filter (fun w => w.out && w.conn = n)).map (fun w => (w.side, w.salt * 1048576 + w.idx))
      recent := h.net.recent.filter (fun m => m ≠ n)
      paths := h.net.paths.filter (fun p => p.conn ≠ n)
      hellos := h.net.hellos.filter (fun x => x.conn ≠ some n) }
    keys := { h.keys with keyx := h.keys.keyx.filter (fun e => e.1 ≠ n) } }

/-- The head closes a connection with a reason: CLOSE is sent and the connection drains (R117). -/
def Head.closeConn (h : Head) (n reason : Nat) : Head :=
  match h.conn n with
  | none => h
  | some c =>
    if c.state = .opened then
      let h := h.updConn n (fun c => { c with state := .draining, closeWith := reason })
      h.reliable' n (.close reason)
    else h.connClosed n

/-- A connection set to LOST (R128): one CLOSE with reason LOST, and CLOSED at once. -/
def Head.loseConn (h : Head) (n : Nat) : Head :=
  ((h.conn n).elim h (fun c => h.sendMsg c c.txNext (h.pathOf n c.txNext) false (h.dport c) (.close 4))).connClosed n

/-- Ascending numbers as ranges. -/
def ranges : List Nat → List (Nat × Nat)
  | [] => []
  | a :: r =>
    match ranges r with
    | (x, y) :: t => if x = a + 1 then (a, y) :: t else (a, a) :: (x, y) :: t
    | [] => [(a, a)]

/-- PSNs received above CUMPSN in ascending order as ranges, the lowest four (R124). -/
def Conn.sack (c : Conn) : List (Nat × Nat) :=
  let offs := sortNat (c.recv.map (fun p => (p + 4294967296 - c.cum) % 4294967296))
  ((ranges offs).take 4).map (fun r => ((c.cum + r.1) % 4294967296, (c.cum + r.2) % 4294967296))

/-- The ACK of R124: CUMPSN, up to four ranges, the TSV of the newest packet since the last ACK and the time since its arrival, to its
source port. -/
def Head.sendAck (h : Head) (n : Nat) : Head :=
  match h.conn n with
  | none => h
  | some c =>
    let h := h.updConn n (fun c => { c with ackCnt := 0 })
    h.sendMsg c 0 (h.pathOf n 0) false c.newest.2.2 (.ack c.cum c.newest.1 (h.now - c.newest.2.1) c.sack)

end Sys2Proof.Machine
end

