-- ==== Sys2Proof/Machine/Windows.lean ====
section
/-! DEFINITION. Windows (R56, R133-R144): references, memory, placement, sealing, the advance and release of
generations, delivery into a window. -/

namespace Sys2Proof.Machine

/-- The head with its windows replaced. -/
def Head.setWindows (h : Head) (l : List Window) : Head := { h with net := { h.net with windows := l } }

/-- The key of a window: salt in [31:20], index in [19:0] (R134). -/
def Window.key (w : Window) : Nat := w.salt * 1048576 + w.idx

/-- The window of a side that a key names, salt and all. -/
def Head.window (h : Head) (side key : Nat) : Option Window :=
  h.net.windows.find? (fun w => w.side = side && w.idx = key % 1048576 && w.salt = key / 1048576)

/-- The window of an index of a side. -/
def Head.windowAt (h : Head) (side idx : Nat) : Option Window :=
  h.net.windows.find? (fun w => w.side = side && w.idx = idx)

/-- The head with one window changed; the change is mirrored (R142, DESIGN CHOICE of the structure: log entry 12). -/
def Head.updWindow (h : Head) (side idx : Nat) (f : Window → Window) : Head :=
  let h := h.setWindows (mapFirst (fun w => w.side = side && w.idx = idx) f h.net.windows)
  match h.windowAt side idx with
  | some w => h.record' (.window w)
  | none => h

/-- The head with one window changed by something that needs no record of its own. -/
def Head.updWindow' (h : Head) (side idx : Nat) (f : Window → Window) : Head :=
  h.setWindows (mapFirst (fun w => w.side = side && w.idx = idx) f h.net.windows)

/-- The parts of a window reference (R56): key, generation, byte position. -/
def refKey (r : Word) : Nat := bits r.toNat 31 0
def refGen (r : Word) : Nat := bits r.toNat 47 32
def refOff (r : Word) : Nat := 4096 * bits r.toNat 63 48

/-- A window reference with WOFF 0. -/
def mkRef (key gen : Nat) : Word := pack [(0, key), (32, gen)]

/-- What a window reference names for a caller of a side: INVALID where no window has the key, WINDOW_STALE where the
generation is not current (R56, R71) or the window is an outbound one whose connection has closed (R144). A program that is re-run
finds a released window stale (R165). -/
def Head.ref (h : Head) (side : Nat) (replay : Bool) (r : Word) : Except Status Window :=
  match h.window side (refKey r) with
  | none => .error (if replay || h.net.goneOut.contains (side, refKey r) then .windowStale else .invalid)
  | some w => if w.gen = refGen r then .ok w else .error .windowStale

/-- The pages of the unmirrored area taken by windows. -/
def Head.unmFree (h : Head) : Nat := 65536 - h.pair.unm.length

/-- Bytes [off, off + n) of a window's memory. -/
def Head.winBytes (h : Head) (w : Window) (off n : Nat) : List Byte :=
  if w.unmir then
    (upto n).map (fun i =>
      match h.pair.unm.find? (fun p => p.p = nth 0 w.pages ((off + i) / 65536)) with
      | some p => readByte p.data ((off + i) % 65536)
      | none => 0)
  else h.pageBytes w.pages off n

/-- Some granule of those bytes carries poison. -/
def Head.winPoisoned (h : Head) (w : Window) (off n : Nat) : Bool :=
  if w.unmir then false else h.pagesPoisoned w.pages off n

/-- Bytes cut at the 64 KiB pages they fall in: (page index, offset in it, bytes). -/
def cutPages : Nat → Nat → List Byte → List (Nat × Nat × List Byte)
  | 0, _, _ => []
  | fuel + 1, off, b =>
    if b.isEmpty then []
    else
      let k := 65536 - off % 65536
      (off / 65536, off % 65536, b.take k) :: cutPages fuel (off + k) (b.drop k)

/-- Bytes written into a window's memory at an offset; for a lehr window they are handed to mirroring (R136).
What is placed is known to the peer by the PLACE frames themselves (R142); while it is re-mirrored, by the window's record. -/
def Head.winWrite (h : Head) (w : Window) (off : Nat) (b : List Byte) : Head :=
  let cuts := cutPages (b.length / 65536 + 2) off b
  let h :=
    if w.unmir then
      cuts.foldl (fun h c =>
        { h with pair := { h.pair with
            unm := mapFirst (fun p => p.p = nth 0 w.pages c.1) (fun p => p.write c.2.1 c.2.2) h.pair.unm } }) h
    else cuts.foldl (fun h c => h.placePage (nth 0 w.pages c.1) c.2.1 c.2.2) h
  let f := fun (w : Window) => { w with placed := addRange w.placed off b.length }
  if h.pair.remir then h.updWindow w.side w.idx f else h.updWindow' w.side w.idx f

/-- Pages that a contract's lehr reservation still holds back (R96). -/
def Head.lehrLeft (h : Head) (c : Nat) : Nat :=
  match look none h.work.contracts c with
  | some k => 16 * k.lehr - h.pair.drawn.countP (fun d => d.2 = c)
  | none => 0

/-- Free lehr pages that no contract's reservation holds back. -/
def Head.freeLehr (h : Head) : Nat := h.freePages - sum (h.work.contracts.map (fun e => h.lehrLeft e.1))

/-- Fresh memory for a window of a size: page identities, or unmirrored page numbers. None where the free space is too
small (R134). Under a contract the reservation gives its pages first (R139). -/
def Head.winMemory (h : Head) (size : Nat) (unmir : Bool) (key : Nat) (con : Option Nat) : Option (Head × List Nat) :=
  let n := ceilDiv size 65536
  if unmir then
    if h.unmFree < n then none
    else
      let ps := lowestFree (fun p => h.pair.unm.any (fun e => e.p = p)) (n + h.pair.unm.length) 0 n
      some ({ h with pair := { h.pair with
        unm := h.pair.unm ++ ps.map (fun p => LPage.mk h.side p .window key [] []) } }, ps)
  else
    let left := match con with | some c => h.lehrLeft c | none => 0
    if min h.freePages (h.freeLehr + left) < n then none
    else
      let x := h.allocPages n .window key
      match con with
      | none => some x
      | some c => some ({ x.1 with pair := { x.1.pair with
          drawn := x.1.pair.drawn ++ (x.2.take left).map (fun p => (p, c)) } }, x.2)

/-- Memory given back. -/
def Head.winFree (h : Head) (unmir : Bool) (pages : List Nat) : Head :=
  if unmir then { h with pair := { h.pair with unm := h.pair.unm.filter (fun e => !(pages.contains e.p)) } }
  else h.freePagesOf pages

/-- The lehr pages that hold the bytes of a write, or of the part of one. -/
def VWrite.held (w : VWrite) : List Nat :=
  let a := (w.first.2 + w.off - w.first.1) / 65536
  let b := (w.first.2 + w.off + w.len - 1 - w.first.1) / 65536
  (w.pages.drop a).take (b + 1 - a)

/-- Pages of a window's memory that a write not yet destaged holds (R276). -/
def Head.pagesHeld (h : Head) (pages : List Nat) : List Nat :=
  let held := (h.vols.vols.map (fun v => (v.writes.filter (fun x => !x.done)).map VWrite.held)).flatten.flatten
  let busy := (h.work.verbs.map (fun v => match v.op with | some p => p.pages | none => [])).flatten
  pages.filter (fun p => held.contains p || busy.contains p)

/-- Memory given back, but for pages that a write still holds until it is destaged. -/
def Head.winDrop (h : Head) (unmir : Bool) (pages : List Nat) : Head :=
  let keep := if unmir then [] else h.pagesHeld pages
  h.winFree unmir (pages.filter (fun p => !(keep.contains p)))

/-- A window released, with its memory (R141). -/
def Head.winRelease (h : Head) (side idx : Nat) : Head :=
  match h.windowAt side idx with
  | none => h
  | some w =>
    let h := h.setWindows (h.net.windows.filter (fun x => !(x.side = side && x.idx = idx)))
    let h := h.winDrop w.unmir (w.pages ++ (w.olds.map (fun g => g.pages)).flatten)
    h.record' (.winGone side idx)

/-- The commands of a list that are not final: they are still among the commands. -/
def Head.open' (h : Head) (l : List (Nat × Nat)) : List (Nat × Nat) :=
  l.filter (fun x => h.work.cmds.any (fun c => c.side = x.1 && c.seq = x.2 &&
    (match c.phase with | .final => false | _ => true)))

/-- A sealed generation is consumed (R139): some command has named it or was fired by it, and every such command is
final. -/
def Head.consumed (h : Head) (w : Window) : Bool :=
  w.state = .sealed && !w.users.isEmpty && (h.open' w.users).isEmpty

/-- The contract, still open, that a window's armed entry is under (R139). -/
def Head.armedUnder (h : Head) (w : Window) : Option Nat :=
  match w.armed with
  | none => none
  | some a =>
    let c := bits a.entry.h1.toNat 63 52
    if bit a.entry.h1.toNat 17 then
      (match look none h.work.contracts c with
       | some k => if k.state = .opened then some c else none
       | none => none)
    else none

/-- A window's generation advances after its sealed one was consumed (R139): OPEN at the next generation with fresh
memory; the old memory stays with writes that still hold it. Waits (`waitAdv`) where the lehr has no room. -/
def Head.advance (h : Head) (w : Window) : Head :=
  match h.winMemory w.size w.unmir w.key (h.armedUnder w) with
  | none => h.updWindow' w.side w.idx (fun w => { w with waitAdv := true })
  | some (h, ps) =>
    let old := w.pages
    let h := h.updWindow w.side w.idx (fun w =>
      { w with gen := (w.gen + 1) % 65536, state := .opened, pages := ps, placed := [], msgEnd := none,
               users := [], waitAdv := false })
    h.winDrop w.unmir old

/-- Delivery of bytes to the destination a reference names (R56, R144): for an outbound window, WRITE packets of at most
MAXPAY bytes on its connection, LAST on the final one; for an inbound window of the head, the bytes in its memory
(DEDUCED, log entry 14). The answer gives the connection and PSNs to await. -/
def Head.deliver (h : Head) (side : Nat) (replay : Bool) (r : Word) (b : List Byte) :
    Except Status (Head × Nat × List Nat) :=
  match h.ref side replay r with
  | .error e => .error e
  | .ok w =>
    if w.size < refOff r + b.length then .error .invalid
    else if w.out then
      match h.conn w.conn with
      | none => .error .windowStale
      | some c =>
        if c.state ≠ .opened then .error .windowStale
        else
          let n := ceilDiv b.length c.maxpay
          let x := (upto n).foldl (fun (acc : Head × List Nat) i =>
            let part := (b.drop (i * c.maxpay)).take c.maxpay
            let y := acc.1.reliable c.num (.write w.rkey w.rgen (refOff r + i * c.maxpay) part (i + 1 = n))
            (y.1, acc.2 ++ [y.2])) (h, [])
          .ok (x.1, c.num, x.2)
    else .ok (h.winWrite w (refOff r) b, 0, [])

/-- A destination is there and holds `n` bytes: the check before a verb delivers. -/
def Head.dest (h : Head) (side : Nat) (replay : Bool) (r : Word) (n : Nat) : Except Status Window :=
  match h.ref side replay r with
  | .error e => .error e
  | .ok w => if w.size < refOff r + n then .error .invalid else .ok w

/-- `n` bytes that a reference names as a source, with whether any granule is poisoned. -/
def Head.source (h : Head) (side : Nat) (replay : Bool) (r : Word) (n : Nat) : Except Status (List Byte × Bool) :=
  match h.ref side replay r with
  | .error e => .error e
  | .ok w =>
    if w.out ∨ w.size < refOff r + n then .error .invalid
    else .ok (h.winBytes w (refOff r) n, h.winPoisoned w (refOff r) n)

end Sys2Proof.Machine
end

