-- ==== Sys2Proof/Machine/Volumes.lean ====
section
/-! DEFINITION. Volumes as their readers and writers see them (R64, R66, R155, R226-R228, R300, R302-R307): the bytes
of a volume at an epoch through its clone parents, writes that become final, drops, snapshots and their handles. -/

namespace Sys2Proof.Machine

/-- The head with its volumes replaced. -/
def Head.setVols (h : Head) (l : List Volume) : Head := { h with vols := { h.vols with vols := l } }

/-- A volume that exists. -/
def Head.vol (h : Head) (v : Nat) : Option Volume := h.vols.vols.find? (fun x => x.num = v)

/-- The head with one volume changed, and its record mirrored (structure 10 of Table 10-2; log entry 12). -/
def Head.updVol (h : Head) (v : Nat) (f : Volume → Volume) : Head × Option Nat :=
  let h := h.setVols (mapFirst (fun x => x.num = v) f h.vols.vols)
  match h.vol v with
  | some x => h.record (.epoch x)
  | none => (h, none)

/-- As `updVol`, without a record. -/
def Head.updVol' (h : Head) (v : Nat) (f : Volume → Volume) : Head :=
  h.setVols (mapFirst (fun x => x.num = v) f h.vols.vols)

/-- Byte `o` of the data of a write that covers it: a byte, or poison. -/
def VWrite.at (w : VWrite) (o : Nat) : Option Byte :=
  match w.data with
  | .bytes b => some (nth 0 b (o - w.off))
  | .zeros => some 0
  | .poison => none

/-- What the newest write of an epoch at most `e` says of byte `o`: nothing, or a byte, or poison. -/
def resolve (ws : List VWrite) (e o : Nat) : Option (Option Byte) :=
  match ws.find? (fun w => decide (w.epoch ≤ e) && decide (w.off ≤ o) && decide (o < w.off + w.len)) with
  | some w => some (w.at o)
  | none => none

/-- Byte `o` of a volume as of epoch `e` (R305, R307): its own newest write, else its parent's as of the cloned epoch,
else 0. None is poison. A chain of clone parents has at most 8 links. -/
def volByte : Nat → List Volume → Nat → Nat → Nat → Option Byte
  | 0, _, _, _, _ => some 0
  | fuel + 1, vs, v, e, o =>
    match vs.find? (fun x => x.num = v) with
    | none => some 0
    | some x =>
      match resolve x.writes e o with
      | some r => r
      | none =>
        match x.parent with
        | some p => volByte fuel vs p.1 p.2 o
        | none => some 0

/-- Bytes [off, off + n) of a volume as of an epoch, none for a poisoned byte. -/
def Head.volRead (h : Head) (v e off n : Nat) : List (Option Byte) :=
  (upto n).map (fun i => volByte 9 h.vols.vols v e (off + i))

/-- The largest epoch a volume can have (R302): reading as of it reads the present contents. -/
def lastEpoch : Nat := 16777215

/-- Granules that a range touches (R66). -/
def granules (off n : Nat) : List Nat :=
  if n = 0 then [] else (upto ((off + n - 1) / 4096 + 1 - off / 4096)).map (fun k => off / 4096 + k)

/-- Ranges of writes of a volume, its parents included, that carry poison and meet a range. -/
def Head.granulePoisoned (h : Head) (v g : Nat) : Bool :=
  (upto 4096).any (fun i => (volByte 9 h.vols.vols v lastEpoch (g * 4096 + i)).isNone)

/-- A range of volume bytes that reaches 2^50 (R228). -/
def pastEnd (off n : Nat) : Bool := decide (2 ^ 50 < off + n) || decide (2 ^ 50 ≤ off)

/-- A write cut by ranges dropped after it: the parts that stay, as (offset in the write, bytes). -/
def cutOut (off : Nat) (b : List Byte) : List (Nat × Nat) → List (Nat × List Byte)
  | [] => if b.isEmpty then [] else [(off, b)]
  | (o, n) :: r =>
    let parts := cutOut off b r
    (parts.map (fun p =>
      let lo := max p.1 o
      let hi := min (p.1 + p.2.length) (o + n)
      if lo < hi then
        ([(p.1, p.2.take (lo - p.1)), (hi, p.2.drop (hi - p.1))]).filter (fun x => !x.2.isEmpty)
      else [p])).flatten

/-- Where a source begins in its first page. -/
def Src.phase : Src → Nat
  | .inl _ => 0
  | .win _ _ woff => woff % 65536

/-- Small writes that a coarse unit takes (R230): the times of those within NFCFG.FWIN; a unit that has FPROM of them is
due for promotion and keeps them. -/
def smallWrite (now most win : Nat) (l : List (Nat × Nat × Nat)) (v u : Nat) : List (Nat × Nat × Nat) :=
  let mine := l.filter (fun x => x.1 = v && x.2.1 = u)
  if most ≤ mine.length then l
  else l.filter (fun x => !(x.1 = v && x.2.1 = u && decide (x.2.2 + win < now))) ++ [(v, u, now)]

/-- A write of less than 256 KiB counts for the coarse units it touches. -/
def Head.countSmall (h : Head) (v off n : Nat) : Head :=
  if n = 0 || 262144 ≤ n then h
  else
    let us := (upto ((off + n - 1) / 1048576 + 1 - off / 1048576)).map (fun k => off / 1048576 + k)
    { h with vols := { h.vols with
      small := us.foldl (fun l u => smallWrite h.now (h.cfg .NFCFG 0 31 24) (1000000 * h.cfg .NFCFG 0 23 8) l v u) h.vols.small } }

/-- A write becomes final (R155, R302): its bytes stand in the volume under the volume's present epoch. The peer learns it with the final
state of the command. -/
def Head.applyWrite (h : Head) (src : Nat × Nat) (p : PutOp) : Head :=
  match p.off with
  | none => h
  | some off =>
    let parts := cutOut off p.bytes p.cuts
    let h := h.updVol' p.vol (fun v =>
      { v with writes := (p.pois.map (fun r => ⟨v.vepoch, off + r.1, r.2, .poison, src, [], false, (off, 0)⟩)) ++ (parts.map (fun b => ⟨v.vepoch, b.1, b.2.length, .bytes b.2, src, p.pages, false, (off, p.src.phase)⟩)) ++ v.writes })
    h.countSmall p.vol off p.len

/-- A DROP passes its commit point (R238): the range reads zeros from then on, and writes already past their commit
points leave it out. -/
def Head.applyDrop (h : Head) (src : Nat × Nat) (v off n : Nat) : Head × Option Nat :=
  let h := { h with work := { h.work with
    verbs := h.work.verbs.map (fun (x : HVerb) =>
      match x.op with
      | some p => if x.past && p.vol = v then { x with op := some { p with cuts := (off, n) :: p.cuts } } else x
      | none => x) } }
  let h := { h with vols := { h.vols with drops := h.vols.drops ++ [DropRec.mk src.1 src.2 v off n] } }
  h.updVol v (fun x => { x with writes := ⟨x.vepoch, off, n, .zeros, src, [], false, (off, 0)⟩ :: x.writes })

/-! ## Snapshots (R303, R304) -/

/-- A snapshot handle (Table 10-7). -/
def mkHandle (subj : Nat) (grp : Bool) (epoch : Nat) : Word :=
  let hi := (subj <<< 48) + (bnat grp <<< 47) + (epoch <<< 16)
  let chk := crc32c ((leBytes 8 hi).drop 2) % 65536
  pack [(0, hi + chk)]

/-- A well-formed handle: CHK holds and the reserved bits are 0. -/
def handleOk (x : Word) : Bool :=
  let n := x.toNat
  bits n 46 40 = 0 && crc32c ((leBytes 8 n).drop 2) % 65536 = bits n 15 0

/-- The live snapshots that a handle names: (volume, epoch) pairs, the members of a group cut in ascending volume
order; none where it names no live snapshot (R304). -/
def Head.handle (h : Head) (x : Word) : List (Nat × Nat) :=
  let n := x.toNat
  if !handleOk x then []
  else if bit n 47 then
    (sortBy (fun p => p.1) ((h.vols.vols.map (fun v =>
      (v.snaps.filter (fun s => s.live && s.group = bits n 63 48 && s.cut = bits n 39 16)).map
        (fun s => (v.num, s.epoch)))).flatten))
  else
    match h.vol (bits n 63 48) with
    | some v => if v.snaps.any (fun s => s.live && s.group = 0 && s.epoch = bits n 39 16) then
        [(v.num, bits n 39 16)] else []
    | none => []

/-- Live snapshots of a volume. -/
def Volume.liveSnaps (v : Volume) : Nat := v.snaps.countP (fun s => s.live)

/-- The cut of a SNAP (R303): each volume's present epoch becomes a snapshot and its counter rises; a group cut is
numbered from the group's own counter, all its members in one record. The answer is the handle. -/
def Head.snapCut (h : Head) (subj : Nat) (grp : Bool) (members : List Nat) (src : Option (Nat × Nat × Nat)) :
    Head × Option Nat × Word :=
  let cut := if grp then look 0 h.vols.cuts subj + 1 else 0
  let e := match h.vol subj with | some v => v.vepoch | none => 0
  let turn := fun (v : Volume) =>
    { v with snaps := v.snaps ++ [⟨v.vepoch, if grp then subj else 0, cut, true, [], src⟩], vepoch := v.vepoch + 1 }
  let x : Head × Option Nat :=
    if grp then
      let h := members.foldl (fun h m => h.updVol' m turn) { h with vols := { h.vols with cuts := place 0 h.vols.cuts subj cut } }
      h.record (.cuts subj cut (members.filterMap h.vol))
    else members.foldl (fun (acc : Head × Option Nat) m => acc.1.updVol m turn) (h, none)
  (x.1, x.2, mkHandle subj grp (if grp then cut else e))

/-- The members of a consistency group, in ascending volume order. -/
def Head.members (h : Head) (g : Nat) : List Nat :=
  sortNat ((h.vols.vols.filter (fun v => v.group = g && g ≠ 0)).map (fun v => v.num))

/-- Epochs of a volume that live snapshots and clone parents hold (R305). -/
def Volume.heldEpochs (v : Volume) : List Nat :=
  (v.snaps.filter (fun s => s.live || !s.clones.isEmpty)).map (fun s => s.epoch)

/-- The clone depth of a volume (R307). -/
def cloneDepth : Nat → List Volume → Nat → Nat
  | 0, _, _ => 0
  | fuel + 1, vs, v =>
    match vs.find? (fun x => x.num = v) with
    | some x => match x.parent with | some p => 1 + cloneDepth fuel vs p.1 | none => 0
    | none => 0

end Sys2Proof.Machine
end

