-- ==== Sys2Proof/Machine/Contracts.lean ====
section
/-! DEFINITION. Contracts as arithmetic (R84-R108): loads, reservations, the ordered checks of
admission, the bucket, the reservation that remains, delivery bounds and misses. -/

namespace Sys2Proof.Machine

/-- The load of one class record on resource k (R93). -/
def classLoad (c : CostClass) (k re f w p : Nat) : Nat :=
  let m := if bit c.geo k then w + p else w
  let a := (nth 0 c.fix k * re * 256 + f - 1) / f
  let b := (nth 0 c.perg k * re * m * 256 + 4096 * w - 1) / (4096 * w)
  (a + b + 255) / 256

/-- The load on resource k: the maximum over the class records (R93). -/
def loadOn (t : CostTable) (k re f w p : Nat) : Nat :=
  t.classes.foldl (fun m c => max m (classLoad c k re f w p)) 0

/-- A pool that exists. -/
def Head.pool (h : Head) (n : Nat) : Option Pool := h.fl.pools.find? (fun p => p.num = n)

/-- The head with a contract of the ledger replaced, in both PSTOREs (R92). -/
def Head.setContract (h : Head) (c : Nat) (k : Option Contract) : Head × Option Nat :=
  ({ h with
      work := { h.work with contracts := place none h.work.contracts c k }
      pair := { h.pair with drawn := if k.isSome then h.pair.drawn else h.pair.drawn.filter (fun d => d.2 ≠ c) } }).record
    (.ledger c k)

/-- The head with a contract of the ledger changed. -/
def Head.updContract (h : Head) (c : Nat) (f : Contract → Contract) : Head :=
  match h.contract c with
  | none => h
  | some k => (h.setContract c (some (f k))).1

/-- A contract is bound to a queue (QSTAT.CTR). A DRAINED contract is; a CLOSING one is not, though it still holds its load (DESIGN
CHOICE, log entry 85: no rule says whether a contract that closes still counts as bound). -/
def Head.bound (h : Head) (side q : Nat) : Bool :=
  h.openContracts.any (fun k => k.2.side = side && k.2.queue = q && k.2.state ≠ .closing)

/-- The sums of Table 4-5 over the ledger, by resource 0 HOST_IN, 1 PAIR_LINK of a side, 2 NAND over the pair, 3 NAND of
a side, 4 JOURNAL, 5 slots, 6 lehr in MiB. -/
def committed (l : List Contract) (side r : Nat) : Nat :=
  match r with
  | 0 => sum (l.map (fun k => nth 0 k.loads 0))
  | 1 => sum ((l.filter (fun k => k.side = side)).map (fun k => nth 0 k.loads 1))
  | 2 => sum (l.map (fun k => nth 0 k.loads 2))
  | 3 => sum ((l.filter (fun k => k.side = side)).map (fun k => nth 0 k.loads 2))
  | 4 => sum (l.map (fun k => nth 0 k.loads 3))
  | 5 => sum (l.map (fun k => k.slots))
  | _ => sum (l.map (fun k => k.lehr))

/-- The limit of resource r (Table 4-9 CAP): the caps of the table, then ALIM. Cap 1 shrinks with the link (R289). -/
def Head.capOf (h : Head) (r : Nat) : Nat :=
  match r with
  | 5 => h.cfg .ALIM 0 15 0
  | 6 => h.cfg .ALIM 0 47 32
  | 1 => nth 0 h.work.cost.caps 1 * min h.pair.link.txw h.pair.link.rxw / 32
  | r => nth 0 h.work.cost.caps r

/-- The write margin of a pool side: 256 GiB of raw space (R96). -/
def writeMargin : Nat := 274877906944

/-- Reservations of R96 for a descriptor: space, lehr in MiB, slots. -/
def reserveSpace (resv w p : Nat) : Nat := ceilDiv (ceilDiv (resv * (w + p)) w) 1048576 * 1048576
def reserveLehr (burst f re : Nat) : Nat := ceilDiv (burst + 2 * f + 4000 * re) 1048576
def reserveSlots (burst f re : Nat) : Nat := ceilDiv (4000 * re) f + ceilDiv burst f + 2

/-- A refusal (R95): reason code and shortfall. -/
def refusal (code short : Nat) : Word := pack [(0, code), (32, short)]

/-- The ordered checks of Table 4-5 for a contract drawn up; `free` is the unreserved free space of the pool side and
`worn` says that it is WORN (R242). None where every check passes. -/
def Head.admission (h : Head) (k : Contract) (free : Int) (worn : Bool) : Option Word :=
  let l := (h.openContracts.map (fun x => x.2)) ++ [k]
  let burst := sum (l.map (fun x => x.burst))
  let need := 150 + ceilDiv burst 400000
  let low := l.foldl (fun m x => min m x.bound) k.bound
  let overs := fun (r code : Nat) =>
    let u := committed l k.side r
    if h.capOf r < u then some (refusal code (u - h.capOf r)) else none
  if !h.whole then some (refusal 1 0)
  else if 4096 < l.length then some (refusal 2 1)
  else if low < need then some (refusal 3 (need - low))
  else
    match overs 0 4 with
    | some x => some x
    | none =>
    match overs 1 5 with
    | some x => some x
    | none =>
    match overs 2 6 with
    | some x => some x
    | none =>
    match overs 3 7 with
    | some x => some x
    | none =>
    match overs 4 8 with
    | some x => some x
    | none =>
    match overs 5 9 with
    | some x => some x
    | none =>
    match overs 6 10 with
    | some x => some x
    | none =>
      let left : Int := free - (k.space : Int) - (writeMargin : Int)
      if worn ∨ left < 0 then some (refusal 11 (ceilDiv (Int.toNat (-left)) 1073741824)) else none

/-- The lowest free contract number (R86). -/
def Head.freeContract (h : Head) : Nat :=
  nth 0 (lowestFree (fun n => (h.contract n).isSome) 4097 0 1) 0

/-! ## Commands under contract (R97, R99-R103) -/

/-- A command is accepted under a contract: F is deducted, and the contract drains where less than F is left (R97). -/
def Head.chargeAccept (h : Head) (c : Nat) : Head :=
  h.updContract c (fun k =>
    let rem := k.rem - k.frame
    { k with rem := rem, state := if rem < k.frame ∧ k.state = .opened then .drained else k.state })

/-- Bytes returned to a reservation for a command (R97), once. -/
def Head.chargeBack (h : Head) (c n : Nat) (key : Nat × Nat) : Head :=
  h.updContract c (fun k => if k.back.contains key then k else { k with rem := k.rem + n, back := key :: k.back })

/-- A contracted write passes its commit point (R99): conforming where the level reaches its length; otherwise counted
and, at the first of a run, recorded. The answer says whether it conforms. A re-run write was metered in its first run: `key` finds
it among those of the ledger (log entry 86). -/
def Head.bucket (h : Head) (c len : Nat) (key : Nat × Nat × Nat) : Head × Bool :=
  match h.contract c with
  | none => (h, true)
  | some k =>
    match k.met.find? (fun m => m.1 = key) with
    | some m => (h, m.2)
    | none =>
      if len ≤ k.level then
        (h.updContract c (fun k => { k with level := k.level - len, overRun := false, met := (key, true) :: k.met }), true)
      else
        let h := h.updContract c (fun k => { k with
          overs := satAdd 0xFFFFFFFF k.overs 1, overRun := true, met := (key, false) :: k.met })
        (if k.overRun then h else h.event 0x0501 1 0xFF 7 c key.2.1 0 0, false)

/-- A command under a contract is final: what was kept for its re-run is forgotten. -/
def Head.unmeter (h : Head) (c side seq : Nat) : Head :=
  match h.contract c with
  | none => h
  | some k =>
    if k.met.any (fun m => m.1.1 = side && m.1.2.1 = seq) || k.back.contains (side, seq) then
      h.updContract c (fun k => { k with
        met := k.met.filter (fun m => !(m.1.1 = side && m.1.2.1 = seq)), back := k.back.filter (fun b => b ≠ (side, seq)) })
    else h

/-- The start of the event whose takeover allowance covers a command with a bound start (R103): in flight at the start,
or bound start within 100 ms of it. -/
def Head.allowance (h : Head) (acc bs : Nat) : Option Nat :=
  let covers := fun (e : Nat) => decide (acc ≤ e) || (decide (e ≤ bs) && decide (bs ≤ e + 100000000))
  match h.work.event.s0, h.work.event.s1 with
  | some a, some b => if covers (max a b) then some (max a b) else if covers (min a b) then some (min a b) else none
  | some a, none => if covers a then some a else none
  | none, some b => if covers b then some b else none
  | none, none => none

/-- A contracted command becomes durable (R100, R103, R105): the allowance counts where it applies; a command later
than its bound or its allowance counts as a miss and raises CONTRACT_MISS. -/
def Head.durable (h : Head) (c seq acc bs : Nat) (binds : Bool) : Head :=
  match h.contract c with
  | none => h
  | some k =>
    let late := fun (h : Head) =>
      (h.updContract c (fun k => { k with miss := satAdd 0xFFFF k.miss 1 })).deviceEvent 0x0130 c seq
    match h.allowance acc bs with
    | some e =>
      let h := h.updContract c (fun k => { k with allow := satAdd 0xFFFF k.allow 1 })
      if max bs e + 40000000 < h.now then late h else h
    | none =>
      let start := if bs < h.sys.rst.pwrAt + 150000000 then h.sys.rst.pwrAt + 150000000 else bs
      if binds && decide (start + k.bound * 1000 < h.now) then late h else h

end Sys2Proof.Machine
end

