-- ==== Sys2Proof/Machine/Journal.lean ====
section
/-! DEFINITION. The command journal (R76-R79, R150, R157): numbers, ring, held table, the records as bytes, what
JOURNAL.READ gives. -/

namespace Sys2Proof.Machine

/-- Ring slots of a journal, and places of the held table (R76, R78). -/
def ringSlots : Nat := 1048576
def heldPlaces : Nat := 65536

/-- A final state (Table 3-8). -/
def JState.isFinal : JState → Bool
  | .completed => true
  | .failed => true
  | .abandoned => true
  | _ => false

/-- The code of a state (Table 3-8). -/
def JState.code : JState → Nat
  | .accepted => 1
  | .committed => 2
  | .completed => 3
  | .failed => 4
  | .abandoned => 5

/-- The final state that a status gives (Table 3-7). -/
def Status.final : Status → JState
  | .ok => .completed
  | .empty => .completed
  | .shared => .completed
  | .partially => .completed
  | .abandoned => .abandoned
  | _ => .failed

/-- The status of a value of Table 3-7; a value that is no status reads as INVALID. -/
def statusOf (n : Nat) : Status :=
  (([.ok, .empty, .shared, .partially, .abandoned, .lengthShort, .lengthMismatch, .windowStale, .poison, .checkFail,
     .outputFull, .capacity, .contractRefused, .busyActivation, .headLost, .tier, .invalid] : List Status).find?
      (fun s => s.code = n)).getD .invalid

/-- A record that stands nowhere: what an unlisted ring slot holds. -/
def JRec.blank : JRec := ⟨0, 0, 0, 0, 0, .accepted, 0, 0, 0, false, false, 0⟩

/-- The 32 bytes of a record (Table 3-8); the caller may be denied TAG and RESULT (R79). -/
def JRec.bytes (r : JRec) (deny : Bool) : List Byte :=
  let w (c : Nat) : List Byte :=
    leBytes 8 ((r.seq <<< 16) + r.queue) ++
    leBytes 8 (((if deny then 0 else r.tag) <<< 32) + (r.stream <<< 16) + (r.cls <<< 8) + r.state.code) ++
    leBytes 8 (if deny then 0 else r.result.toNat) ++
    leBytes 8 ((r.status <<< 48) + (r.contract <<< 36) + (bnat r.con <<< 35) + (bnat r.ord <<< 34) +
      (r.origin <<< 33) + c)
  w (crc32c (w 0))

/-- The journal of a side. -/
def Head.jour (h : Head) (side : Nat) : Journal := h.work.jour.at side

/-- The head with a side's journal replaced. -/
def Head.setJour (h : Head) (side : Nat) (j : Journal) : Head :=
  { h with work := { h.work with jour := h.work.jour.put side j } }

/-- The number after a sequence number (R76). -/
def nextSeq (s : Nat) : Nat := if s + 1 < 281474976710656 then s + 1 else 1

/-- The number before 1: 2^48 - 1 where the numbers have wrapped, so that its record stands in the ring; else none, 0 (R76). -/
def Journal.newestBefore (j : Journal) : Nat :=
  if (look JRec.blank j.ring (281474976710655 % ringSlots)).seq = 281474976710655 then 281474976710655 else 0

/-- The newest sequence number assigned; 0 before the first. -/
def Journal.newest (j : Journal) : Nat := if j.next ≤ 1 then j.newestBefore else j.next - 1

/-- The record that a number has in its ring slot, where it still stands there (R78). -/
def Journal.inRing (j : Journal) (s : Nat) : Option JRec :=
  let r := look JRec.blank j.ring (s % ringSlots)
  if r.seq = s ∧ s ≠ 0 then some r else none

/-- The record of a sequence number: in the held table, or in its ring slot. -/
def Journal.get (j : Journal) (s : Nat) : Option JRec :=
  match j.held.find? (fun e => e.1.seq = s) with
  | some e => some e.1
  | none => j.inRing s

/-- A record moved to the held table (R78): a free place where there is one, else that of the record that became final earliest. -/
def Journal.hold (j : Journal) (r : JRec) : Journal :=
  if j.held.length < heldPlaces then { j with held := j.held ++ [(r, none)] }
  else
    let first := j.held.foldl (fun m e => match e.2 with
      | some n => (match m with | some x => some (min x n) | none => some n)
      | none => m) (none : Option Nat)
    { j with held := mapFirst (fun e => e.2.isSome && e.2 = first) (fun _ => (r, none)) j.held }

/-- A record written where it stands (R77, R78): the held table if it was moved there, else its ring slot. -/
def Journal.write (j : Journal) (r : JRec) : Journal × Bool :=
  if j.held.any (fun e => e.1.seq = r.seq) then
    ({ j with
        held := j.held.map (fun e => if e.1.seq = r.seq then (r, if r.state.isFinal then some j.finals else none) else e)
        finals := if r.state.isFinal then j.finals + 1 else j.finals }, true)
  else ({ j with ring := place JRec.blank j.ring (r.seq % ringSlots) r }, false)

/-- A record of a side written and mirrored (R77, R150); the tag tells when it is in both PSTOREs. -/
def Head.jwrite (h : Head) (side : Nat) (r : JRec) : Head × Option Nat :=
  let x := (h.jour side).write r
  (h.setJour side x.1).record (if x.2 then .held side r else .journal side r)

/-- A new sequence number of a side assigned with its record (R59, R76): a record that is not final is moved out of the
ring slot first (R78). `say` is the frame that carries the record to the peer. -/
def Head.jaccept (h : Head) (side : Nat) (r : JRec) (say : PRec) : Head :=
  let j := h.jour side
  let old := look JRec.blank j.ring (j.next % ringSlots)
  let moves := old.seq ≠ 0 && !old.state.isFinal
  let j := if moves then j.hold old else j
  let h := h.setJour side { j with next := nextSeq j.next }
  let h := if moves then h.record' (.held side old) else h
  let h := h.setJour side { (h.jour side) with ring := place JRec.blank (h.jour side).ring (r.seq % ringSlots) r }
  h.record' say

end Sys2Proof.Machine
end

