-- ==== Sys2Proof/Machine/Commands.lean ====
section
/-! DEFINITION. Commands from their entries to their completion records (R51-R63, R149-R160, R163-R164): the submission
entry, acceptance, threads that run programs, the end of a program. -/

namespace Sys2Proof.Machine

/-! ## Threads -/

/-- A thread that never ran a program. -/
def Thread.fresh : Thread :=
  { run := .free, tier := .O, pc := 0, g := [], p := 0, vs := 0, tvec := 0, tpc := 0, taddr := 0, xw := 0,
    tcause := 0, icount := 0, charge := 0, sigs := 0, verbs := [], buf := false, len := 0, paddr := 0, cmd := none,
    priv := [] }

/-- Thread `t`. -/
def Head.thread (h : Head) (t : Nat) : Thread := look Thread.fresh h.core.threads t

/-- The head with thread `t` replaced. -/
def Head.setThread (h : Head) (t : Nat) (x : Thread) : Head :=
  { h with core := { h.core with threads := place Thread.fresh h.core.threads t x } }

/-- The engine of a thread (R387): 8 threads each for engines 0 to 95, 4 each for the stewards 96 and 97. -/
def engineOf (t : Nat) : Nat := if t < 768 then t / 8 else 96 + (t - 768) / 4

/-- The island of a thread's engine. -/
def islandOf (t : Nat) : Nat := if t < 768 then 3 + t / 64 else 0

/-- General register `r` of a thread: g0 reads 0 (R23). -/
def Thread.reg (x : Thread) (r : Nat) : Word := if r = 0 then 0 else look 0 x.g r

/-- The thread with a general register written; a write of g0 is discarded (R23). -/
def Thread.setReg (x : Thread) (r : Nat) (v : Word) : Thread := if r = 0 then x else { x with g := place 0 x.g r v }

/-- Predicate `n`: p0 reads 1 (R23). -/
def Thread.pred (x : Thread) (n : Nat) : Bool := n = 0 || x.p.getLsbD n

/-- The thread with a predicate written; a write of p0 is discarded (R23). -/
def Thread.setPred (x : Thread) (n : Nat) (b : Bool) : Thread :=
  if n = 0 then x
  else { x with p := if b then x.p ||| (1#8 <<< n) else x.p &&& ~~~(1#8 <<< n) }

/-- The VS rule of R41: a status other than OK is kept where VS holds OK. -/
def Thread.note (x : Thread) (s : Status) : Thread := if s ≠ .ok ∧ x.vs = 0 then { x with vs := s.code } else x

/-- A thread started with the state of R25 at a tier; TVEC, TPC and TADDR keep what they held. TCAUSE is cleared (DESIGN CHOICE,
log entry 84: no rule says what it holds in the next program, after a double trap for instance). -/
def Thread.begin (x : Thread) (tier : Tier) (regs : List Word) (buf : Bool) (len paddr : Nat) (charge : Word)
    (cmd : Option (Nat × Nat)) : Thread :=
  let y : Thread := { x with
    run := .running, tier := tier, pc := 0, g := [], p := 0, vs := 0, icount := 0, charge := charge, tcause := 0,
    verbs := [], buf := buf, len := len, paddr := paddr, cmd := cmd, priv := [] }
  (upto regs.length).foldl (fun y i => y.setReg (i + 1) (nth 0 regs i)) y

/-! ## The submission entry (R54-R56) -/

/-- The named fields of a header (Table 3-1). -/
def Entry.tag (e : Entry) : Nat := bits e.h0.toNat 63 32
def Entry.queue (e : Entry) : Nat := bits e.h0.toNat 31 16
def Entry.stream (e : Entry) : Nat := bits e.h0.toNat 15 0
def Entry.contract (e : Entry) : Nat := bits e.h1.toNat 63 52
def Entry.cred (e : Entry) : Nat := bits e.h1.toNat 47 40
def Entry.dlen (e : Entry) : Nat := bits e.h1.toNat 39 33
def Entry.quiet (e : Entry) : Bool := bit e.h1.toNat 19
def Entry.ext (e : Entry) : Bool := bit e.h1.toNat 18
def Entry.con (e : Entry) : Bool := bit e.h1.toNat 17
def Entry.ord (e : Entry) : Bool := bit e.h1.toNat 16
def Entry.plen (e : Entry) : Nat := bits e.h1.toNat 8 0

/-- Words spelled by bytes, eight to a word. -/
def wordsOf : Nat → List Byte → List Word
  | 0, _ => []
  | n + 1, b => BitVec.ofNat 64 (leNat (b.take 8)) :: wordsOf n (b.drop 8)

/-- The entry's own program and inline data (R55); an external program is given. -/
def Entry.program (e : Entry) (ext : List Word) : List Word :=
  if e.ext then ext.take e.plen else wordsOf e.plen e.inl
def Entry.inline (e : Entry) : List Byte :=
  ((if e.ext then e.inl else e.inl.drop (8 * e.plen))).take e.dlen

/-- Check 1 of Table 3-2, without the queue: reserved fields and unused bytes 0, PLEN in range, R55, ORD with STREAM,
CON with CONTRACT, EXT with PWIN. -/
def Entry.formOk (e : Entry) : Bool :=
  let n := e.h1.toNat
  let used := if e.ext then e.dlen else 8 * e.plen + e.dlen
  bits n 51 48 = 0 && bits n 32 20 = 0 && bits n 15 9 = 0 && e.h3 = 0 &&
  decide (1 ≤ e.plen) && decide (e.plen ≤ 256) && decide (e.dlen ≤ 96) && decide (used ≤ 96) &&
  (e.ext || (decide (e.plen ≤ 12) && e.h2 = 0)) &&
  (e.ord || e.stream = 0) && (e.con || e.contract = 0) &&
  decide (e.inl.length = 96) && (e.inl.drop used).all (fun b => b = 0)

/-- The 128 bytes of an entry. -/
def Entry.bytes (e : Entry) : List Byte :=
  leBytes 8 e.h0.toNat ++ leBytes 8 e.h1.toNat ++ leBytes 8 e.h2.toNat ++ leBytes 8 e.h3.toNat ++ fit 0 96 e.inl

/-- An entry spelled by 128 bytes. -/
def entryOf (b : List Byte) : Entry :=
  { h0 := BitVec.ofNat 64 (leNat (b.take 8)), h1 := BitVec.ofNat 64 (leNat ((b.drop 8).take 8))
    h2 := BitVec.ofNat 64 (leNat ((b.drop 16).take 8)), h3 := BitVec.ofNat 64 (leNat ((b.drop 24).take 8))
    inl := fit 0 96 (b.drop 32) }

/-- The bytes of words, each little-endian (R4). -/
def wordBytes (l : List Word) : List Byte := (l.map (fun (w : Word) => leBytes 8 w.toNat)).flatten

/-- The verb word of lowest address: its VC and the IMM it carries (R59; the verb class). -/
def firstVerb : List Word → Option (Nat × Nat)
  | [] => none
  | w :: r => if bits w.toNat 63 58 = 0x30 then some (bits w.toNat 40 33, bits w.toNat 31 0) else firstVerb r

/-- The verb class of a program (R59). -/
def classOf (p : List Word) : Nat := match firstVerb p with | some v => v.1 | none => 0

/-- A program holds a verb word of a code. -/
def holdsVerb (p : List Word) (vc : Nat) : Bool := p.any (fun w => bits w.toNat 63 58 = 0x30 && bits w.toNat 40 33 = vc)

/-- The MARK words of a program, of queue scope and of stream scope (R153). -/
def marksOf (p : List Word) : Nat × Nat :=
  let mark := fun (w : Word) (s : Nat) => bits w.toNat 63 58 = 0x30 && bits w.toNat 40 33 = 5 && bits w.toNat 31 0 % 2 = s
  (p.countP (fun w => mark w 0), p.countP (fun w => mark w 1))

/-! ## Commands -/

/-- The head with its commands replaced. -/
def Head.setCmds (h : Head) (l : List Cmd) : Head := { h with work := { h.work with cmds := l } }

/-- A command by side and sequence number. -/
def Head.cmd (h : Head) (x : Nat × Nat) : Option Cmd := h.work.cmds.find? (fun c => c.side = x.1 && c.seq = x.2)

/-- The head with one command changed. -/
def Head.updCmd (h : Head) (x : Nat × Nat) (f : Cmd → Cmd) : Head :=
  h.setCmds (mapFirst (fun c => c.side = x.1 && c.seq = x.2) f h.work.cmds)

/-- The next verb number: the two heads number theirs apart, so that a slot taken over keeps its own. -/
def Head.nextVerb (h : Head) : Head := { h with work := { h.work with vid := h.work.vid + 2 } }

/-- The command is final in both PSTOREs. -/
def Cmd.isFinal (c : Cmd) : Bool := match c.phase with | .final => true | _ => false

/-- The commands of a queue in flight (R51). -/
def Head.inflight (h : Head) (side q : Nat) : List Cmd :=
  h.work.cmds.filter (fun c => c.side = side && c.queue = q && !c.isFinal)

/-- The journal record of a command in a state. -/
def Cmd.record (c : Cmd) (st : JState) (result : Word) (status : Nat) : JRec :=
  { seq := c.seq, queue := c.queue, tag := c.tag, stream := c.stream, cls := c.cls, state := st, result := result,
    status := status, contract := c.contract, con := c.con, ord := c.ord, origin := c.origin }

/-- An operator or higher session may use a queue (check 3 of Table 3-2): the slot is the queue's OWNER or an installer
or maker slot. -/
def Head.mayUse (h : Head) (side q slot : Nat) : Bool :=
  slot = h.cfgS side .QCFG q 55 48 || decide (64 ≤ slot ∧ slot < 74)

/-- A queue is enabled. -/
def Head.qEnabled (h : Head) (side q : Nat) : Bool := h.cfgS side .QCFG q 63 63 = 1

/-- Checks 1 to 6 of Table 3-2 for an entry, made in order; the answer is the external program where it has one. `live`
says whether a session of slot CRED is bound to the entry's connection. `held` gives the program that ARM copied: checks 1, 3 and 4
of an armed entry, which nothing that happens after the ARM can change or is to change, are not made again at its firing; checks 2, 5
and 6 are (R67, R101; DEDUCED, log entry 88). -/
def Head.checkEntry (h : Head) (side q : Nat) (e : Entry) (live : Bool) (held : Option (List Word)) :
    Except Status (List Word) :=
  if held.isNone && (!e.formOk || e.queue ≠ q) then .error .invalid
  else if !h.qEnabled side q then .error .invalid
  else if held.isNone && (!live || !h.mayUse side q e.cred) then .error .tier
  else
    match (if held.isSome then .ok (held.getD [])
      else if e.ext then
        (match h.ref side false e.h2 with
         | .error .windowStale => .error .windowStale
         | .error _ => .error .invalid
         | .ok w =>
           if w.out || decide (w.size < refOff e.h2 + 8 * e.plen) then .error .invalid
           else .ok (wordsOf e.plen (h.winBytes w (refOff e.h2) (8 * e.plen))))
      else (.ok [] : Except Status (List Word))) with
    | .error s => .error s
    | .ok ext =>
      let bnd := look 0 h.work.streams (sq side e.stream)
      if e.ord && bnd ≠ 0 && bnd ≠ q + 1 then .error .invalid
      else if (h.inflight side q).any (fun c => c.tag = e.tag) then .error .invalid
      else if e.con && !(match h.contract e.contract with
          | some k => k.state = .opened && k.side = side && k.queue = q
          | none => false) then .error .invalid
      else .ok ext

/-- Command slots that best-effort commands may still take: those not reserved by contracts and not in flight (R51,
R96). -/
def Head.slotFree (h : Head) (con : Bool) : Bool :=
  con || decide ((h.work.cmds.countP (fun c => !c.isFinal)) +
    sum (h.openContracts.map (fun k => k.2.slots - h.work.cmds.countP (fun c => !c.isFinal && c.con && c.contract = k.1)))
      < 65536)

/-- Checks 7 and 8 of Table 3-2. -/
def Head.checkRun (h : Head) (e : Entry) (ext : List Word) : Except Status Unit :=
  let cls := classOf (e.program ext)
  if h.pair.handoff.isSome && (cls = 0x1A || cls = 0x1B) then .error .busyActivation
  else if !h.slotFree e.con then .error .capacity
  else if !e.con && h.work.readMostly && (cls = 1 || cls = 2) then .error .capacity
  else .ok ()

/-- What the page table holds in place of a window key for the entry image of a command (DESIGN CHOICE, log entry 12). -/
def imageKey (side seq : Nat) : Nat := side * 2147483648 + seq % 2147483648

/-- Entries of the verb log that the first page of an image has room for, after the image, 256 program words and g1 to g4, and that
each further page has (DESIGN CHOICE, log entry 89). -/
def logFirst : Nat := 3958
def logNext : Nat := 4096

/-- Where entry `n` of a verb log stands: which page of the image, and the offset in it. -/
def logPlace (n : Nat) : Nat × Nat :=
  if n < logFirst then (0, 2208 + 16 * n) else (1 + (n - logFirst) / logNext, 16 * ((n - logFirst) % logNext))

/-- The bound of R100 holds for a command of a stream only where every earlier command of the stream that is not durable yet is
conforming. -/
def Head.follows (h : Head) (side stream : Nat) (ord : Bool) : Bool :=
  !ord || h.work.cmds.all (fun d => !(d.ord && d.side = side && d.stream = stream) || d.passed || (d.con && d.conform))

/-- What a command that is accepted now would cover (R153, R154). -/
def Head.coverNow (h : Head) (side q : Nat) : List (Nat × Option Nat) :=
  (h.inflight side q).map (fun x => (x.seq, if x.ord then some x.stream else none))

/-- The head has a lehr page for the entry image of a command: without one acceptance waits (DESIGN CHOICE, log entry 89: R163 has the
image in the lehr with the ACCEPTED record, and no rule says what an entry that finds no page does). -/
def Head.imageRoom (h : Head) : Bool := decide (0 < h.freePages)

/-- A command is accepted (R59, R163): the entry image in the lehr, the next number, the ACCEPTED record, the stream
bound, what its MARK or FLUSH covers. The program starts when `startPrograms` finds a thread for it. `say` is the frame of the record. -/
def Head.accept (h : Head) (side q : Nat) (e : Entry) (ext : List Word) (conn : Nat) (tag : Nat) (regs : List Word)
    (srcs : List (Nat × Nat × Nat)) (say : JRec → PRec) : Head × Nat :=
  let seq := (h.jour side).next
  let prog := e.program ext
  let mk := marksOf prog
  let cover := h.coverNow side q
  let covers := holdsVerb prog 4 || holdsVerb prog 5
  let c : Cmd :=
    { side := side, seq := seq, origin := h.side, queue := q, tag := tag, stream := if e.ord then e.stream else 0,
      ord := e.ord, con := e.con, quiet := e.quiet, contract := if e.con then e.contract else 0, cred := e.cred,
      conn := conn, cls := classOf prog, prog := prog, inl := e.inline, regs := regs, pages := [], thread := none,
      ended := false, phase := .accepted, passed := false, log := [], replay := [], vs := 0, result := 0, aux := 0,
      pmap := false, tko := false, accAt := h.now, bound := none, conform := h.follows side e.stream e.ord, allow := none, mute := false,
      cover := cover.map (fun x => (x.1, x.2, none)), markQ := mk.1, markS := mk.2, marksQ := 0, marksS := 0, srcs := srcs, returned := false
      issued := 0, cp := false, wrote := false, again := false, await := false }
  let x := h.allocPages (min 1 h.freePages) .image (imageKey side seq)
  let h := x.2.foldl (fun h p =>
    let h := h.placePage p 0 e.bytes
    let h := if e.ext then h.placePage p 128 (wordBytes prog) else h
    if regs.isEmpty then h else h.placePage p 2176 (wordBytes regs)) x.1
  let h := if covers then
      ({ h with work := { h.work with covers := h.work.covers ++ [((side, seq), cover)] } }).record' (.cover side seq cover)
    else h
  let r := c.record .accepted 0 0
  let h := (h.jaccept side r (say r)).draw 3 256 (if e.con then some e.contract else none)
  let h := h.setCmds (h.work.cmds ++ [{ c with pages := x.2 }])
  let h := if e.ord && look 0 h.work.streams (sq side e.stream) ≠ q + 1 then
      ({ h with work := { h.work with streams := place 0 h.work.streams (sq side e.stream) (q + 1) } }).record'
        (.stream side e.stream (q + 1))
    else h
  (if e.con then h.chargeAccept e.contract else h, seq)

/-- A refused entry (R58): a completion record with JSEQ 0, and nothing else. -/
def Head.refuse (h : Head) (side q : Nat) (e : Entry) (conn tag : Nat) (st : Status) : Head :=
  h.postTo conn side q (crec tag e.queue st.code false false 0 0 0)

/-! ## Programs and threads -/

/-- A data thread on which a program can start: lowest number, engine running (DESIGN CHOICE, log entry 9). -/
def Head.freeThread (h : Head) : Option Nat :=
  (upto 768).find? (fun t => (h.thread t).run = .free && h.runs (islandOf t))

/-- Whether the program of the stream's previous command has ended (R53): no command before this one in its stream has
a program that has not ended. `before` holds the commands accepted before it. -/
def streamReady (c : Cmd) (before : List Cmd) : Bool :=
  !c.ord || before.all (fun d => !(d.ord && d.side = c.side && d.stream = c.stream) || d.ended || d.isFinal)

/-- Programs started in acceptance order (R53, R388): each on the lowest free data thread, with the registers of R25 or
R143, the tier of its credential (R24), and the charge of its queue. -/
def Head.startPrograms (h : Head) : Head :=
  if h.pair.fence.fatal || h.dark then h
  else
    (h.work.cmds.foldl (fun (acc : Head × List Cmd) c =>
      let go := h.serves c.side && c.thread.isNone && !c.ended && !c.await && !c.isFinal && streamReady c acc.2 &&
        (match c.phase with | .finalising _ => false | _ => true)
      match (if go then acc.1.freeThread else none) with
      | none => (acc.1, acc.2 ++ [c])
      | some t =>
        let x := (acc.1.thread t).begin (slotTier c.cred) c.regs true c.prog.length 0
          (pack [(16, 0), (0, c.queue)]) (some (c.side, c.seq))
        let h := (acc.1.setThread t x).updCmd (c.side, c.seq) (fun c => { c with thread := some t })
        (h, acc.2 ++ [{ c with thread := some t }])) (h, [])).1

/-- A thread's program is over: the thread is free; a host command has its status and result word (R36, R48). -/
def Head.programEnded (h : Head) (t : Nat) (status : Nat) (result : Word) : Head :=
  let x := h.thread t
  let h := h.setThread t { x with run := .free, verbs := [], cmd := none, buf := false, len := 0 }
  match x.cmd with
  | none => h
  | some k => h.updCmd k (fun c => { c with ended := true, thread := none, vs := status, result := result })

/-- The result registers of completed verbs written and the VS rule applied in issue order (R45); the list is then
empty. -/
def Thread.collect (x : Thread) : Thread :=
  let y := x.verbs.foldl (fun (y : Thread) v =>
    match v.ans with
    | some a => (if v.taken then y else y.setReg v.rd.toNat a.result).note a.status
    | none => y) x
  { y with verbs := [] }

/-- Every verb of the thread has been answered. -/
def Thread.verbsDone (x : Thread) : Bool := x.verbs.all (fun v => v.ans.isSome)

/-- A thread that waits goes on as soon as what it waits for has come (R36, R44, R45, R48). The Bool says whether
anything changed. -/
def Head.wake (h : Head) (t : Nat) : Head × Bool :=
  let x := h.thread t
  match x.run with
  | .waitVerb vid =>
    match x.verbs.find? (fun v => v.vid = vid) with
    | some v =>
      match v.ans with
      | some a =>
        let y : Thread := { (x.setReg v.rd.toNat a.result) with verbs := x.verbs.filter (fun w => w.vid ≠ vid), run := .running }
        let y : Thread := (y.setPred 7 (a.status = .ok)).note a.status
        let overs := y.buf && decide (y.len ≤ y.pc.toNat / 8)
        (h.setThread t (if overs then { y with run := .ending 0 } else y), true)
      | none => (h, false)
    | none => (h, false)
  | .waitAll =>
    if x.verbsDone then
      let y := x.collect
      let overs := y.buf && decide (y.len ≤ y.pc.toNat / 8)
      (h.setThread t { y with run := if overs then .ending 0 else .running }, true)
    else (h, false)
  | .ending r =>
    if x.verbsDone then
      let y := x.collect
      ((h.setThread t y).programEnded t y.vs r, true)
    else (h, false)
  | .trapped c => if x.verbsDone then (h.programEnded t c.status.code 0, true) else (h, false)
  | _ => (h, false)

/-- A verb's answer reaches its thread. -/
def Head.giveThread (h : Head) (t vid : Nat) (a : VRes) : Head :=
  let x := h.thread t
  h.setThread t { x with verbs := x.verbs.map (fun v => if v.vid = vid then { v with ans := some a } else v) }

/-- An entry of the verb log (R163), mirrored like source bytes. -/
def Head.logVerb (h : Head) (k : Nat × Nat) (vc : Nat) (a : VRes) : Head :=
  match h.cmd k with
  | none => h
  | some c =>
    let h := h.updCmd k (fun c => { c with log := c.log ++ [⟨a.result, a.status, vc, a.aux⟩] })
    let at_ := logPlace c.log.length
    match c.pages[at_.1]? with
    | none => h
    | some p =>
      h.placePage p at_.2 (leBytes 8 a.result.toNat ++ leBytes 2 a.status.code ++ leBytes 1 vc ++ [0] ++ leBytes 4 a.aux)

/-- The entries of a command's verb log are cleared in its pages: it is run again with an empty log (R164). -/
def Head.wipeLog (h : Head) (c : Cmd) : Head :=
  (upto c.log.length).foldl (fun h n =>
    match c.pages[(logPlace n).1]? with
    | some p => h.placePage p (logPlace n).2 (List.replicate 16 0)
    | none => h) h

/-- The verb log of a command has filled its pages, with the verbs that its thread has outstanding: one more verb needs a further page. -/
def Head.logFull (h : Head) (k : Option (Nat × Nat)) (outs : Nat) : Bool :=
  match k.bind h.cmd with
  | none => false
  | some c => !c.pages.isEmpty && decide (c.pages.length ≤ (logPlace (c.log.length + outs)).1)

/-- A verb waits to issue while its log is full and the lehr has no page (DESIGN CHOICE, log entry 89). -/
def Head.logWaits (h : Head) (k : Option (Nat × Nat)) (outs : Nat) : Bool := h.logFull k outs && !h.imageRoom

/-- The head with a further page for the verb log of a command, where its log is full. -/
def Head.logGrown (h : Head) (k : Option (Nat × Nat)) (outs : Nat) : Head :=
  if h.logFull k outs then
    match k.bind h.cmd with
    | none => h
    | some c =>
      let x := h.allocPages 1 .image (imageKey c.side c.seq)
      x.1.updCmd (c.side, c.seq) (fun c => { c with pages := c.pages ++ x.2 })
  else h

end Sys2Proof.Machine
end

