-- ==== Sys2Proof/Machine/Operands.lean ====
section
/-! DEFINITION. Operand forms of the Twizon instructions (R31, R33, R36, R42): the second operand, the function codes of
the ALU with the encodings that are legal, effective addresses, branch targets, the operand words of a verb. -/

namespace Sys2Proof.Machine

/-- A predicate field selects execution (R28): p[PS] ^ PN is 1. -/
def Thread.takes (x : Thread) (pn : Bool) (ps : BitVec 3) : Bool := x.pred ps.toNat != pn

/-! ## ALU (R31, Table 2-5) -/

/-- The function codes that both forms have and that take any second operand. -/
def aluPlain : List Nat := [0x00, 0x01, 0x02, 0x03, 0x04, 0x05, 0x08, 0x09, 0x0A, 0x0B, 0x18, 0x19]

/-- Shifts and rotates. -/
def aluShift : List Nat := [0x10, 0x11, 0x12, 0x13, 0x14]

/-- Operations of one operand. -/
def aluUnary : List Nat := [0x20, 0x21, 0x22, 0x23]

/-- The register form's encoding is legal: FN known, IMM unused, RB 0 for one operand. -/
def aluRegLegal (w : GWord) : Bool :=
  let fn := w.fn.toNat
  w.imm = 0 && (aluPlain.contains fn || aluShift.contains fn || (aluUnary.contains fn && w.rb = 0))

/-- EXT and INS: IMM[7:6] and IMM[31:14] are 0 and the field lies inside the word. -/
def fieldLegal (i : Nat) : Bool := bits i 7 6 = 0 && bits i 31 14 = 0 && decide (bits i 5 0 + bits i 13 8 ≤ 63)

/-- The immediate form's encoding is legal. -/
def aluImmLegal (w : GWord) : Bool :=
  let fn := w.fn.toNat
  let i := w.imm.toNat
  w.rb = 0 &&
    (aluPlain.contains fn || (aluShift.contains fn && bits i 31 6 = 0) || (aluUnary.contains fn && w.imm = 0) ||
      ((fn = 0x28 || fn = 0x29) && fieldLegal i))

/-- The second operand of the immediate form: IMM sign-extended; the low six bits for shifts, which are not negative. -/
def aluImmOperand (i : BitVec 32) : Word := sext32 i

/-- The number of 1 bits. -/
def popcount (a : Word) : Nat := (upto 64).countP (fun k => a.getLsbD k)

/-- Leading zeros, 64 for 0. -/
def clz (a : Word) : Nat := match (upto 64).find? (fun k => a.getLsbD (63 - k)) with | some k => k | none => 64

/-- Trailing zeros, 64 for 0. -/
def ctz (a : Word) : Nat := match (upto 64).find? (fun k => a.getLsbD k) with | some k => k | none => 64

/-- The bytes of a word reversed. -/
def bswap (a : Word) : Word := BitVec.ofNat 64 (leNat (leBytes 8 a.toNat).reverse)

/-- Table 2-5 for every code but INS, which needs the old RD; `a` is RA, `b` the second operand, `i` IMM. -/
def aluResult (fn : Nat) (a b : Word) (i : Nat) : Word :=
  let n := b.toNat % 64
  match fn with
  | 0x00 => a + b
  | 0x01 => a - b
  | 0x02 => a * b
  | 0x03 => BitVec.ofNat 64 (a.toNat * b.toNat / 2 ^ 64)
  | 0x04 => if b = 0 then BitVec.allOnes 64 else a / b
  | 0x05 => if b = 0 then a else a % b
  | 0x08 => a &&& b
  | 0x09 => a ||| b
  | 0x0A => a ^^^ b
  | 0x0B => a &&& (b ^^^ BitVec.allOnes 64)
  | 0x10 => a <<< n
  | 0x11 => a >>> n
  | 0x12 => a.sshiftRight n
  | 0x13 => a.rotateLeft n
  | 0x14 => a.rotateRight n
  | 0x18 => if a.toNat ≤ b.toNat then a else b
  | 0x19 => if a.toNat ≤ b.toNat then b else a
  | 0x20 => BitVec.ofNat 64 (popcount a)
  | 0x21 => BitVec.ofNat 64 (clz a)
  | 0x22 => BitVec.ofNat 64 (ctz a)
  | 0x23 => bswap a
  | 0x28 => (a >>> (bits i 5 0)) &&& BitVec.ofNat 64 (2 ^ (bits i 13 8 + 1) - 1)
  | _ => a

/-- INS: the field of the old RD replaced by the low bits of RA. -/
def insResult (old a : Word) (i : Nat) : Word :=
  let lo := bits i 5 0
  let m := BitVec.ofNat 64 (maskBits (lo + bits i 13 8) lo)
  (old &&& ~~~m) ||| ((a <<< lo) &&& m)

/-! ## Memory operands (R33) -/

/-- The effective address of LD, ST and AMO: RA plus IMM sign-extended. -/
def effAddr (x : Thread) (w : GWord) : Word := x.reg w.ra.toNat + sext32 w.imm

/-- Bytes that an LD or ST moves: SZ. -/
def accBytes (w : GWord) : Nat := 2 ^ (w.fn.toNat % 4)

/-- The value of a load of n bytes, extended by SX. -/
def loadValue (sx : Bool) (n v : Nat) : Word :=
  match n with
  | 1 => if sx then (BitVec.ofNat 8 v).signExtend 64 else BitVec.ofNat 64 v
  | 2 => if sx then (BitVec.ofNat 16 v).signExtend 64 else BitVec.ofNat 64 v
  | 4 => if sx then (BitVec.ofNat 32 v).signExtend 64 else BitVec.ofNat 64 v
  | _ => BitVec.ofNat 64 v

/-- What an AMO stores: `old` memory, RB, and the old RD for CAS; none where CAS leaves memory as it is. -/
def amoStore (op : Nat) (old rb rd : Word) : Option Word :=
  match op with
  | 0 => some (old + rb)
  | 1 => some rb
  | 2 => if old = rd then some rb else none
  | 3 => some (old ||| rb)
  | _ => some (old &&& rb)

/-! ## Control (R36, R37) -/

/-- The target of BR and CALL: words from the branch itself. -/
def branchTarget (x : Thread) (i : BitVec 32) : Word := x.pc + 8 * sext32 i

/-- A branch target lies outside the words of a bounded program (R37). -/
def Thread.outside (x : Thread) (pc : Word) : Bool := x.buf && decide (8 * x.len ≤ pc.toNat)

/-! ## Verb operands (R42) -/

/-- The operand words of a verb: NO registers from RA on. -/
def verbOps (x : Thread) (w : VWord) : List Word := (upto w.no.toNat).map (fun k => x.reg (w.ra.toNat + k))

/-- The registers a verb reads and writes. -/
def verbUses (w : VWord) : List Nat := w.rd.toNat :: (upto w.no.toNat).map (fun k => w.ra.toNat + k)

/-- A verb's encoding is legal: only the IMM bits it defines, a register sequence that does not pass g31, RA 0 where it
names no operand (R29, R42). -/
def verbLegal (immMask : Nat) (w : VWord) : Bool :=
  (w.imm.toNat &&& immMask) = w.imm.toNat && decide (w.ra.toNat + w.no.toNat ≤ 32) && (w.no ≠ 0 || w.ra = 0)

/-! ## Codes that no instruction has (R29, R30, R43) -/

/-- The major opcodes of Table 2-4. -/
def opCodes : List Nat :=
  [0x01, 0x02, 0x03, 0x04, 0x05, 0x06, 0x08, 0x09, 0x0A, 0x0B, 0x10, 0x11, 0x12, 0x13, 0x14, 0x15, 0x16, 0x17, 0x18, 0x20, 0x21,
   0x28, 0x30]

/-- The verb codes of Tables 2-11 and 2-12. -/
def verbCodes : List Nat :=
  [0x01, 0x02, 0x03, 0x04, 0x05, 0x06, 0x07, 0x08, 0x09, 0x0A, 0x0B, 0x0C, 0x0D, 0x0E, 0x0F, 0x10, 0x11, 0x12, 0x13, 0x14, 0x15,
   0x16, 0x17, 0x18, 0x19, 0x1A, 0x1B, 0x1C, 0x80, 0x81, 0x82, 0x83, 0x84, 0x85, 0x86, 0x87, 0x88, 0x89, 0x8A, 0x8B, 0x8C]

/-- A code that stands in place of the row's, where it is one that nothing has. -/
def strayCode {n : Nat} (codes : List Nat) (o : Option (BitVec n)) : Option Nat :=
  match o with
  | some c => if codes.contains c.toNat then none else some c.toNat
  | none => none

/-- The OP of a word, and the VC of a verb word: what stands in place of the row's, else the row's. -/
def GWord.op (w : GWord) (op : BitVec 6) : BitVec 6 := w.other.getD op
def VWord.code (w : VWord) (vc : BitVec 8) : BitVec 8 := w.other.getD vc

/-- A word came without poison and holds the codes of its row. -/
def GWord.plain (w : GWord) : Bool := !w.pois && w.other.isNone
def VWord.plain (w : VWord) : Bool := !w.pois && w.other.isNone

end Sys2Proof.Machine
end

