-- ==== Sys2Proof/WellFormed.lean ====
section
/-! DEFINITION. Commands whose operands are in the ranges that their places have: thread, side, queue, port, island and die
numbers, the widths of packet fields. A command that is not well-formed is one that nothing could send. -/

namespace Sys2Proof.Machine

/-- A caller's side, credential slot and queue are in range. -/
def Caller.ok (c : Caller) : Bool :=
  decide (c.side < 2) && decide (c.slot < 256) && (match c.queue with | some q => decide (q < 65536) | none => true)

/-- A received frame is one that a row of the table receives: no longer than a link carries, and of the row's TYPE and kind, or one that
fails check 4 for its TYPE, STEP or LEN, which any row may bring and drops (R113, R115). -/
def Rx.fits (r : Rx) (is : Pkt → Bool) : Bool :=
  decide (r.frame.length ≤ 16384) && (is r.pkt || !r.pkt.frame.lenOk)

/-- A sample frame holds 32 instants of 64 samples (Table 12-3). -/
def SampleFrame.ok (f : SampleFrame) : Bool :=
  decide (f.samples.length = 32) && f.samples.all (fun l => decide (l.length = 64) && l.all (fun x => decide (-32 ≤ x ∧ x < 32)))

end Sys2Proof.Machine

namespace Sys2Proof

/-- The command's operands are in range. -/
def Instr.wf : Instr → Bool
  | .aluReg t _ => decide (t < 776)
  | .aluImm t _ => decide (t < 776)
  | .li t _ => decide (t < 776)
  | .lih t _ => decide (t < 776)
  | .cmpReg t _ => decide (t < 776)
  | .cmpImm t _ => decide (t < 776)
  | .ld t _ _ => decide (t < 776)
  | .st t _ => decide (t < 776)
  | .amo t _ => decide (t < 776)
  | .fence t _ => decide (t < 776)
  | .br t _ => decide (t < 776)
  | .call t _ => decide (t < 776)
  | .jr t _ => decide (t < 776)
  | .endp t _ => decide (t < 776)
  | .waitv t _ => decide (t < 776)
  | .trap t _ => decide (t < 776)
  | .nop t _ => decide (t < 776)
  | .clrvs t _ => decide (t < 776)
  | .qput t _ => decide (t < 776)
  | .qget t _ => decide (t < 776)
  | .qtry t _ => decide (t < 776)
  | .sig t _ => decide (t < 776)
  | .waits t _ => decide (t < 776)
  | .eret t _ => decide (t < 776)
  | .cinv t _ => decide (t < 776)
  | .cwb t _ => decide (t < 776)
  | .cwbi t _ => decide (t < 776)
  | .iinv t _ => decide (t < 776)
  | .lockfill t _ => decide (t < 776)
  | .idle t _ => decide (t < 776)
  | .halt t _ => decide (t < 776)
  | .dispatch t _ => decide (t < 776)
  | .stateGet t _ => decide (t < 776)
  | .stateSet t _ => decide (t < 776)
  | .verbComplete t _ => decide (t < 776)
  | .put t _ => decide (t < 776)
  | .puta t _ => decide (t < 776)
  | .get t _ => decide (t < 776)
  | .flush t _ => decide (t < 776)
  | .mark t _ => decide (t < 776)
  | .drop t _ => decide (t < 776)
  | .sdrop t _ => decide (t < 776)
  | .snap t _ => decide (t < 776)
  | .clone t _ => decide (t < 776)
  | .replicateStart t _ => decide (t < 776)
  | .replicateStop t _ => decide (t < 776)
  | .replicateReport t _ => decide (t < 776)
  | .windowOpen t _ => decide (t < 776)
  | .windowRevoke t _ => decide (t < 776)
  | .arm t _ => decide (t < 776)
  | .contractOpen t _ => decide (t < 776)
  | .contractClose t _ => decide (t < 776)
  | .archive t _ => decide (t < 776)
  | .restore t _ => decide (t < 776)
  | .digest t _ => decide (t < 776)
  | .attest t _ => decide (t < 776)
  | .journalRead t _ => decide (t < 776)
  | .eventRead t _ => decide (t < 776)
  | .eventClear t _ => decide (t < 776)
  | .qreset t _ => decide (t < 776)
  | .resetHead t _ => decide (t < 776)
  | .resetIsland t _ => decide (t < 776)
  | .resetQueue t _ => decide (t < 776)
  | .dozeEnter t _ => decide (t < 776)
  | .dozeLeave t _ => decide (t < 776)
  | .updateStage t _ => decide (t < 776)
  | .updateActivate t _ => decide (t < 776)
  | .confirm t _ => decide (t < 776)
  | .chunk t _ => decide (t < 776)
  | .fprint t _ => decide (t < 776)
  | .cmpr t _ => decide (t < 776)
  | .dcmp t _ => decide (t < 776)
  | .ecenc t _ => decide (t < 776)
  | .ecdec t _ => decide (t < 776)
  | .ldpcs t _ => decide (t < 776)
  | .dgst t _ => decide (t < 776)
  | .sign t _ => decide (t < 776)
  | .verify t _ => decide (t < 776)
  | .nfop t _ => decide (t < 776)
  | .tfmt t _ => decide (t < 776)
  | .xfer t _ => decide (t < 776)
  | .entryAccept side q => decide (side < 2) && decide (q < 65536)
  | .lastFlagWaitExpire _ => true
  | .qresetFence side q => decide (side < 2) && decide (q < 65536)
  | .mgmtQueueIdle side q => decide (side < 2) && decide (q < 65536)
  | .cadenceEpoch => true
  | .admtabLoad c _ => c.ok
  | .cptWriteRx k key gen off pay => (k.join [key, gen, off, pay]).fits (fun k => k.typ = 1)
  | .cptSubmitRx k queue slot entries => (k.join [queue, slot, entries]).fits (fun k => k.typ = 2)
  | .cptCompleteRx k queue qnext recs => (k.join [queue, qnext, recs]).fits (fun k => k.typ = 3)
  | .cptAckRx k cum tse adly ranges => (k.join [cum, tse, adly, ranges]).fits (fun k => k.typ = 4)
  | .cptConnectRx k scon isn maxpay tclass evsub => (k.join [scon, isn, maxpay, tclass, evsub]).fits (fun k => k.typ = 5 && !Machine.bit (k.th 14 1) 7)
  | .cptConnectReplyRx k scon isn tse maxpay refuse reason => (k.join [scon, isn, tse, maxpay, refuse, reason]).fits (fun k => k.typ = 5 && Machine.bit (k.th 14 1) 7)
  | .cptCloseRx k reason => (k.join [reason]).fits (fun k => k.typ = 6 && k.th 0 1 ≠ 3)
  | .cptCloseUnknownRx r => r.fits (fun k => k.typ = 6 && k.th 0 1 = 3)
  | .cptEventRx k code detail arg => (k.join [code, detail, arg]).fits (fun k => k.typ = 7)
  | .cptKeepaliveRx r => r.fits (fun k => k.typ = 9)
  | .sessionHello k slot nc => (k.join [slot, nc]).fits (fun k => k.sessionStep = 1)
  | .sessionProof k sg => (k.join [sg]).fits (fun k => k.sessionStep = 3)
  | .arpNdRx dst _ => decide (dst.link < 32)
  | .icmpEchoRx _ _ arr => decide (arr.frame.length ≤ 9216)
  | .pauseRx link quanta => decide (link < 32) && decide (quanta < 65536)
  | .cptAckTimer _ => true
  | .cptRtoExpire _ psn => decide (psn < 4294967296)
  | .connectRetry _ => true
  | .keepaliveTimer _ => true
  | .connLostTimer _ => true
  | .drainTimeout _ => true
  | .sessionSetupTimeout _ => true
  | .qnextTimer side q => decide (side < 2) && decide (q < 65536)
  | .windowLingerExpire side idx => decide (side < 2) && decide (idx < 1048576)
  | .pathResume _ path => decide (path < 64)
  | .lastFlagPlace _ psn => decide (psn < 4294967296)
  | .strictPlace _ psn => decide (psn < 4294967296)
  | .genAdvance side idx => decide (side < 2) && decide (idx < 1048576)
  | .revokeDrainDone side idx => decide (side < 2) && decide (idx < 1048576)
  | .hostPortDown link => decide (link < 32)
  | .hostPortUp link => decide (link < 32)
  | .hpcfgWrite c _ => c.ok
  | .hpolWrite c _ => c.ok
  | .destageExtent _ _ _ => true
  | .coldLookupDone _ _ => true
  | .coldLookupTimeout _ _ => true
  | .coldWriteTimeout _ => true
  | .filterPageRead _ side _ => decide (side < 2)
  | .unitSwitch u => decide (u < 24)
  | .drgearLoad c _ => c.ok
  | .drhufLoad c _ => c.ok
  | .tandemWindow g _ _ => decide (g < 32)
  | .nandReadDone _ _ pos _ => decide (pos < 64)
  | .nandProgramDone die _ => decide (die < 2048)
  | .nandEraseDone die _ _ => decide (die < 2048)
  | .memberTimeout _ _ pos cw => decide (pos < 64) && decide (cw < 16)
  | .zqShortCal g => decide (g < 32)
  | .scrubBandTimer _ => true
  | .gcStart _ => true
  | .gcErase side idx => decide (side < 2) && decide (idx < 1048576)
  | .groupIdle g => decide (g < 32)
  | .vccqNfFault => true
  | .poolCreate c _ => c.ok
  | .poolDelete c _ => c.ok
  | .volumeCreate c _ => c.ok
  | .volumeDelete c _ => c.ok
  | .nffamLoad c _ => c.ok
  | .nfldpcLoad c _ => c.ok
  | .fullFill _ => true
  | .partialFill _ => true
  | .stageAgeExpire _ => true
  | .bitmapClearTimer => true
  | .bandResync _ => true
  | .rebuildBand _ => true
  | .fenceInFall _ => true
  | .fenceInRise => true
  | .fencedResetTimer => true
  | .heartbeatLoss => true
  | .fncctlForce c _ => c.ok
  | .takeoverSettle => true
  | .remirrorDone => true
  | .handoffGiveUp => true
  | .tapeResumeTimeout p => decide (p < 2)
  | .activateRejoinTimeout => true
  | .plTrainDone _ _ _ _ _ => true
  | .plHeartbeatRx h _ _ => decide (h.seq < 2^32)
  | .plHeartbeatTx => true
  | .plAckRx h _ _ => decide (h.seq < 2^32)
  | .plNakRx h _ _ => decide (h.seq < 2^32)
  | .plCreditRx h _ _ => decide (h.seq < 2^32)
  | .plPfailRx h => decide (h.seq < 2^32)
  | .plControlRx h _ _ => decide (h.seq < 2^32)
  | .plPlaceRx h o p _ bytes => decide (h.seq < 2^32) && decide (o < 2) && decide (p < 2^20) && decide (bytes.length ≤ 65536)
  | .plLpageRx h o p use key => decide (h.seq < 2^32) && decide (o < 2) && decide (p < 2^20) && decide (use < 3) && decide (key < 4294967296)
  | .plPrecRx h _ => decide (h.seq < 2^32)
  | .plCopypageRx h o p _ bytes => decide (h.seq < 2^32) && decide (o < 2) && decide (p < 2^20) && decide (bytes.length ≤ 65536)
  | .plCopyrecRx h _ => decide (h.seq < 2^32)
  | .plLaneBad _ _ => true
  | .plRetrainDone _ _ => true
  | .pfailFall _ => true
  | .spillExchangeTimeout => true
  | .spillResetTimer => true
  | .replicateCycle slot => decide (slot < 256)
  | .replicateRetry slot => decide (slot < 256)
  | .pwrOkFall _ => true
  | .pwrOkRise => true
  | .rstLFall _ => true
  | .rstLRise => true
  | .watchdogExpire => true
  | .wdkick c _ => c.ok
  | .islandReady i _ => decide (i < 22)
  | .trimLoadDone _ => true
  | .bootImageReady _ _ => true
  | .telltaleEnable => true
  | .pairwaitExpire => true
  | .thermalSample _ _ => true
  | .thermalTrip => true
  | .clockLoss _ => true
  | .cvrAlert _ _ => true
  | .cvrVidStep _ _ _ _ => true
  | .isrstQuiesce c _ => c.ok
  | .isrstReset c _ => c.ok
  | .isrstQuiesceReset c _ => c.ok
  | .quiesceDone i => decide (i < 22)
  | .quiesceTimeout i => decide (i < 22)
  | .tlSampleRx p f => decide (p < 2) && f.ok
  | .tlStatusRx p _ _ _ => decide (p < 2)
  | .tlRegrspRx p _ _ _ => decide (p < 2)
  | .tlCtrlTimer p => decide (p < 2)
  | .servoPesUpdate p => decide (p < 2)
  | .tlLinkLoss p => decide (p < 2)
  | .tlLaneBad p _ _ => decide (p < 2)
  | .tlRetryWait p => decide (p < 2)
  | .tlTrainDone p _ _ => decide (p < 2)
  | .tlAlignDone p => decide (p < 2)
  | .tlStateTimeout p => decide (p < 2)
  | .tlcfgEnWrite c p _ => c.ok && decide (p < 2)
  | .tlregWrite c p _ => c.ok && decide (p < 2)
  | .tpladLoad c _ => c.ok
  | .tpeqLoad c _ => c.ok
  | .tplnkLoad c _ => c.ok
  | .shockInput p _ => decide (p < 2)
  | .datasetStart p => decide (p < 2)
  | .backhitchDone p => decide (p < 2)
  | .tapePortIdle p => decide (p < 2)
  | .writebackAck _ _ _ => true
  | .wtBufferDrain e => decide (e < 98)
  | .patrolScrub mem _ _ => decide (mem < 6)
  | .pstoreUncorrectable _ _ => true
  | .vddPsLow => true
  | .engcfgInvi c e _ => c.ok && decide (e < 98)
  | .engcfgInvd c e _ => c.ok && decide (e < 98)
  | .l2cfgInv c k _ => c.ok && decide (k < 12)
  | .l2cfgLockDisWrite c k _ => c.ok && decide (k < 12)
  | .ecctRawWrite c _ => c.ok
  | .ecctRawRead c _ => c.ok
  | .keyEnrol c _ => c.ok
  | .keyRemove c _ => c.ok
  | .claim _ rcd => decide (rcd.length ≤ 255)
  | .keyimpPoolKey c _ => c.ok
  | .keyimpHmacKey c _ => c.ok
  | .keyimpErase c _ => c.ok
  | .mkaccWrite c _ => c.ok
  | .dgctxHashInit c i _ => c.ok && decide (i < 16)
  | .dgctxHmacInner c i _ => c.ok && decide (i < 16)
  | .dgctxHmacOuter c i _ => c.ok && decide (i < 16)
  | .hwinExpire => true
  | .evtimeWrite c _ => c.ok
  | .smbSession _ _ _ => true
  | .smbStateGet _ _ => true
  | .smbStateSet _ _ _ => true
  | .smbEventPart _ _ _ => true
  | .smbEventClear _ => true
  | .smbReset _ _ _ => true
  | .smbImageWrite _ _ bytes => decide (bytes.length ≤ 65536)
  | .smbImageEnd _ _ => true
  | .smbBscanEnter _ => true
  | .smbBscanLeave _ => true
  | .smbTap _ _ _ _ => true
  | .smbAlertResponse => true
  | .smbSessionTimeout => true
  | .telltaleBeat => true
  | .sessionChallengeRx k nh idkey sg => (k.join [nh, idkey, sg]).fits (fun k => k.sessionStep = 2)
  | .sessionResultRx k status tier => (k.join [status, tier]).fits (fun k => k.sessionStep = 4)
  | .dieBusyTimeout die => decide (die < 2048)
  | .programTimeout die => decide (die < 2048)
  | .vccqNfRecover => true
  | .thermalTripRelease => true

end Sys2Proof
end

