-- ==== Sys2Proof/Decode.lean ====
section
/-! DEFINITION. Words that spell commands. The table gives no row bits, so no word of the table spells a command; the words of
the Twizon instructions (R27-R30, Tables 2-2 to 2-4 and 2-9 to 2-12) are encoded and decoded here. -/

namespace Sys2Proof

open Sys2Proof.Machine

/-- The command that a word spells by the table's bits: the table gives none. -/
def decodeTableWord (_nbits _w : Nat) : Option Instr := none

/-! ## Twizon instruction words -/

/-- A word of format G (Tables 2-2, 2-3): OP, PN, PS, RD, RA, RB, FN, IMM from bit 63 down. -/
def gWord (op : BitVec 6) (w : GWord) : Word :=
  op ++ BitVec.ofBool w.pn ++ w.ps ++ w.rd ++ w.ra ++ w.rb ++ w.fn ++ w.imm

/-- A word of format W: OP, PN, PS, RD, bit 48, IMM48. -/
def wWord (op : BitVec 6) (w : WWord) : Word :=
  op ++ BitVec.ofBool w.pn ++ w.ps ++ w.rd ++ BitVec.ofBool w.res ++ w.imm48

/-- A word of format V: OP, PN, PS, RD, RA, NO, VC, W, IMM. -/
def vWord (op : BitVec 6) (vc : BitVec 8) (w : VWord) : Word :=
  op ++ BitVec.ofBool w.pn ++ w.ps ++ w.rd ++ w.ra ++ w.no ++ vc ++ BitVec.ofBool w.w ++ w.imm

/-- The fields of a word by format G. -/
def gOf (x : Word) : GWord :=
  ⟨false, x.getLsbD 57, x.extractLsb' 54 3, x.extractLsb' 49 5, x.extractLsb' 44 5, x.extractLsb' 39 5, x.extractLsb' 32 7,
    x.extractLsb' 0 32, none⟩

/-- The fields of a word by format W. -/
def wOf (x : Word) : WWord :=
  ⟨false, x.getLsbD 57, x.extractLsb' 54 3, x.extractLsb' 49 5, x.getLsbD 48, x.extractLsb' 0 48⟩

/-- The fields of a word by format V. -/
def vOf (x : Word) : VWord :=
  ⟨false, x.getLsbD 57, x.extractLsb' 54 3, x.extractLsb' 49 5, x.extractLsb' 44 5, x.extractLsb' 41 3, x.getLsbD 32,
    x.extractLsb' 0 32, none⟩

/-- The word of a Twizon instruction; none for what is no instruction. -/
def twWord : Instr → Option Word
  | .aluReg _ w => some (gWord 0x01 w)
  | .aluImm _ w => some (gWord 0x02 w)
  | .li _ w => some (wWord 0x03 w)
  | .lih _ w => some (gWord 0x04 w)
  | .cmpReg _ w => some (gWord 0x05 w)
  | .cmpImm _ w => some (gWord 0x06 w)
  | .ld _ w _ => some (gWord 0x08 w)
  | .st _ w => some (gWord 0x09 w)
  | .amo _ w => some (gWord 0x0A w)
  | .fence _ w => some (gWord 0x0B w)
  | .br _ w => some (gWord 0x10 w)
  | .call _ w => some (gWord 0x11 w)
  | .jr _ w => some (gWord 0x12 w)
  | .endp _ w => some (gWord 0x13 w)
  | .waitv _ w => some (gWord 0x14 w)
  | .trap _ w => some (gWord 0x15 w)
  | .nop _ w => some (gWord (w.op 0x16) w)
  | .clrvs _ w => some (gWord 0x17 w)
  | .qput _ w => some (gWord 0x18 w)
  | .qget _ w => some (gWord 0x18 w)
  | .qtry _ w => some (gWord 0x18 w)
  | .sig _ w => some (gWord 0x18 w)
  | .waits _ w => some (gWord 0x18 w)
  | .eret _ w => some (gWord 0x28 w)
  | .cinv _ w => some (gWord 0x28 w)
  | .cwb _ w => some (gWord 0x28 w)
  | .cwbi _ w => some (gWord 0x28 w)
  | .iinv _ w => some (gWord 0x28 w)
  | .lockfill _ w => some (gWord 0x28 w)
  | .idle _ w => some (gWord 0x28 w)
  | .halt _ w => some (gWord 0x28 w)
  | .dispatch _ w => some (gWord 0x28 w)
  | .stateGet _ w => some (gWord 0x20 w)
  | .stateSet _ w => some (gWord 0x21 w)
  | .put _ w => some (vWord 0x30 (w.code 0x01) w)
  | .puta _ w => some (vWord 0x30 0x02 w)
  | .get _ w => some (vWord 0x30 0x03 w)
  | .flush _ w => some (vWord 0x30 0x04 w)
  | .mark _ w => some (vWord 0x30 0x05 w)
  | .drop _ w => some (vWord 0x30 0x06 w)
  | .sdrop _ w => some (vWord 0x30 0x07 w)
  | .snap _ w => some (vWord 0x30 0x08 w)
  | .clone _ w => some (vWord 0x30 0x09 w)
  | .replicateStart _ w => some (vWord 0x30 0x0A w)
  | .replicateStop _ w => some (vWord 0x30 0x0A w)
  | .replicateReport _ w => some (vWord 0x30 0x0A w)
  | .windowOpen _ w => some (vWord 0x30 0x0B w)
  | .windowRevoke _ w => some (vWord 0x30 0x0C w)
  | .arm _ w => some (vWord 0x30 0x0D w)
  | .contractOpen _ w => some (vWord 0x30 0x0E w)
  | .contractClose _ w => some (vWord 0x30 0x0F w)
  | .archive _ w => some (vWord 0x30 0x10 w)
  | .restore _ w => some (vWord 0x30 0x11 w)
  | .digest _ w => some (vWord 0x30 0x12 w)
  | .attest _ w => some (vWord 0x30 0x13 w)
  | .journalRead _ w => some (vWord 0x30 0x14 w)
  | .eventRead _ w => some (vWord 0x30 0x15 w)
  | .eventClear _ w => some (vWord 0x30 0x16 w)
  | .qreset _ w => some (vWord 0x30 0x17 w)
  | .resetHead _ w => some (vWord 0x30 0x18 w)
  | .resetIsland _ w => some (vWord 0x30 0x18 w)
  | .resetQueue _ w => some (vWord 0x30 0x18 w)
  | .dozeEnter _ w => some (vWord 0x30 0x19 w)
  | .dozeLeave _ w => some (vWord 0x30 0x19 w)
  | .updateStage _ w => some (vWord 0x30 0x1A w)
  | .updateActivate _ w => some (vWord 0x30 0x1B w)
  | .confirm _ w => some (vWord 0x30 0x1C w)
  | .chunk _ w => some (vWord 0x30 0x80 w)
  | .fprint _ w => some (vWord 0x30 0x81 w)
  | .cmpr _ w => some (vWord 0x30 0x82 w)
  | .dcmp _ w => some (vWord 0x30 0x83 w)
  | .ecenc _ w => some (vWord 0x30 0x84 w)
  | .ecdec _ w => some (vWord 0x30 0x85 w)
  | .ldpcs _ w => some (vWord 0x30 0x86 w)
  | .dgst _ w => some (vWord 0x30 0x87 w)
  | .sign _ w => some (vWord 0x30 0x88 w)
  | .verify _ w => some (vWord 0x30 0x89 w)
  | .nfop _ w => some (vWord 0x30 0x8A w)
  | .tfmt _ w => some (vWord 0x30 0x8B w)
  | .xfer _ w => some (vWord 0x30 0x8C w)
  | _ => none

/-- The instruction of OP 0x18 that FN selects (Table 2-9); a word with an unassigned FN raises ILLEGAL, as QPUT with such an FN
does (R29). -/
def queueDecode (t fn : Nat) (w : GWord) : Option Instr :=
  match fn with
  | 0x01 => some (.qget t w)
  | 0x02 => some (.qtry t w)
  | 0x08 => some (.sig t w)
  | 0x09 => some (.waits t w)
  | _ => some (.qput t w)

/-- The instruction of OP 0x28 that FN selects (Table 2-10); a word with an unassigned FN raises ILLEGAL, as ERET with such an FN
does (R29). -/
def privDecode (t fn : Nat) (w : GWord) : Option Instr :=
  match fn with
  | 0x01 => some (.cinv t w)
  | 0x02 => some (.cwb t w)
  | 0x03 => some (.cwbi t w)
  | 0x04 => some (.iinv t w)
  | 0x05 => some (.lockfill t w)
  | 0x08 => some (.idle t w)
  | 0x09 => some (.halt t w)
  | 0x0A => some (.dispatch t w)
  | _ => some (.eret t w)

/-- The verb that VC selects (Tables 2-11, 2-12); an unassigned VC stands in a PUT, which then raises ILLEGAL (R43). REPLICATE has a row for each value of its IMM and
DOZE for each of its two (IMM[0] 1 enters, Table 3-5); RESET, whose scope is an operand, decodes to the first of its rows. -/
def vcDecode (t vc : Nat) (w : VWord) : Option Instr :=
  match vc with
  | 0x01 => some (.put t w)
  | 0x02 => some (.puta t w)
  | 0x03 => some (.get t w)
  | 0x04 => some (.flush t w)
  | 0x05 => some (.mark t w)
  | 0x06 => some (.drop t w)
  | 0x07 => some (.sdrop t w)
  | 0x08 => some (.snap t w)
  | 0x09 => some (.clone t w)
  | 0x0A => some (match w.imm.toNat with | 1 => .replicateStop t w | 2 => .replicateReport t w | _ => .replicateStart t w)
  | 0x0B => some (.windowOpen t w)
  | 0x0C => some (.windowRevoke t w)
  | 0x0D => some (.arm t w)
  | 0x0E => some (.contractOpen t w)
  | 0x0F => some (.contractClose t w)
  | 0x10 => some (.archive t w)
  | 0x11 => some (.restore t w)
  | 0x12 => some (.digest t w)
  | 0x13 => some (.attest t w)
  | 0x14 => some (.journalRead t w)
  | 0x15 => some (.eventRead t w)
  | 0x16 => some (.eventClear t w)
  | 0x17 => some (.qreset t w)
  | 0x18 => some (.resetHead t w)
  | 0x19 => some (match w.imm.toNat with | 1 => .dozeEnter t w | _ => .dozeLeave t w)
  | 0x1A => some (.updateStage t w)
  | 0x1B => some (.updateActivate t w)
  | 0x1C => some (.confirm t w)
  | 0x80 => some (.chunk t w)
  | 0x81 => some (.fprint t w)
  | 0x82 => some (.cmpr t w)
  | 0x83 => some (.dcmp t w)
  | 0x84 => some (.ecenc t w)
  | 0x85 => some (.ecdec t w)
  | 0x86 => some (.ldpcs t w)
  | 0x87 => some (.dgst t w)
  | 0x88 => some (.sign t w)
  | 0x89 => some (.verify t w)
  | 0x8A => some (.nfop t w)
  | 0x8B => some (.tfmt t w)
  | 0x8C => some (.xfer t w)
  | _ => some (.put t { w with other := some (BitVec.ofNat 8 vc) })

/-- The instruction that OP selects (Tables 2-4, 2-9 to 2-12); an unassigned OP stands in a NOP, which then raises ILLEGAL (R30). -/
def opDecode (t : Nat) (c : LdCheck) (op : Nat) (x : Word) : Option Instr :=
  match op with
  | 0x03 => some (.li t (wOf x))
  | 0x08 => some (.ld t (gOf x) c)
  | 0x01 => some (.aluReg t (gOf x))
  | 0x02 => some (.aluImm t (gOf x))
  | 0x04 => some (.lih t (gOf x))
  | 0x05 => some (.cmpReg t (gOf x))
  | 0x06 => some (.cmpImm t (gOf x))
  | 0x09 => some (.st t (gOf x))
  | 0x0A => some (.amo t (gOf x))
  | 0x0B => some (.fence t (gOf x))
  | 0x10 => some (.br t (gOf x))
  | 0x11 => some (.call t (gOf x))
  | 0x12 => some (.jr t (gOf x))
  | 0x13 => some (.endp t (gOf x))
  | 0x14 => some (.waitv t (gOf x))
  | 0x15 => some (.trap t (gOf x))
  | 0x16 => some (.nop t (gOf x))
  | 0x17 => some (.clrvs t (gOf x))
  | 0x20 => some (.stateGet t (gOf x))
  | 0x21 => some (.stateSet t (gOf x))
  | 0x18 => queueDecode t (gOf x).fn.toNat (gOf x)
  | 0x28 => privDecode t (gOf x).fn.toNat (gOf x)
  | 0x30 => vcDecode t (x.extractLsb' 33 8).toNat (vOf x)
  | _ => some (.nop t { gOf x with other := some (BitVec.ofNat 6 op) })

/-- The instruction that a word spells on a thread (R27-R30); `c` is what the memory path shows to a load. A word whose
OP, FN or VC is not assigned is one too: it raises ILLEGAL. -/
def twDecode (t : Nat) (c : LdCheck) (x : Word) : Option Instr := opDecode t c (x.extractLsb' 58 6).toNat x

/-- An instruction is the one that its own word decodes to: the fields that select it hold its codes, and no poison came with the
word. -/
def twForm : Instr → Bool
  | .aluReg _ w => w.plain
  | .aluImm _ w => w.plain
  | .li _ w => !w.pois
  | .lih _ w => w.plain
  | .cmpReg _ w => w.plain
  | .cmpImm _ w => w.plain
  | .ld _ w _ => w.plain
  | .st _ w => w.plain
  | .amo _ w => w.plain
  | .fence _ w => w.plain
  | .br _ w => w.plain
  | .call _ w => w.plain
  | .jr _ w => w.plain
  | .endp _ w => w.plain
  | .waitv _ w => w.plain
  | .trap _ w => w.plain
  | .nop _ w => !w.pois && (w.other.isNone || (strayCode opCodes w.other).isSome)
  | .clrvs _ w => w.plain
  | .qput _ w => w.plain && !([0x01, 0x02, 0x08, 0x09].contains w.fn.toNat)
  | .qget _ w => w.plain && w.fn = 0x01
  | .qtry _ w => w.plain && w.fn = 0x02
  | .sig _ w => w.plain && w.fn = 0x08
  | .waits _ w => w.plain && w.fn = 0x09
  | .eret _ w => w.plain && !([0x01, 0x02, 0x03, 0x04, 0x05, 0x08, 0x09, 0x0A].contains w.fn.toNat)
  | .cinv _ w => w.plain && w.fn = 0x01
  | .cwb _ w => w.plain && w.fn = 0x02
  | .cwbi _ w => w.plain && w.fn = 0x03
  | .iinv _ w => w.plain && w.fn = 0x04
  | .lockfill _ w => w.plain && w.fn = 0x05
  | .idle _ w => w.plain && w.fn = 0x08
  | .halt _ w => w.plain && w.fn = 0x09
  | .dispatch _ w => w.plain && w.fn = 0x0A
  | .stateGet _ w => w.plain
  | .stateSet _ w => w.plain
  | .put _ w => !w.pois && (w.other.isNone || (strayCode verbCodes w.other).isSome)
  | .puta _ w => w.plain
  | .get _ w => w.plain
  | .flush _ w => w.plain
  | .mark _ w => w.plain
  | .drop _ w => w.plain
  | .sdrop _ w => w.plain
  | .snap _ w => w.plain
  | .clone _ w => w.plain
  | .replicateStart _ w => w.plain && w.imm ≠ 1 && w.imm ≠ 2
  | .replicateStop _ w => w.plain && w.imm = 1
  | .replicateReport _ w => w.plain && w.imm = 2
  | .windowOpen _ w => w.plain
  | .windowRevoke _ w => w.plain
  | .arm _ w => w.plain
  | .contractOpen _ w => w.plain
  | .contractClose _ w => w.plain
  | .archive _ w => w.plain
  | .restore _ w => w.plain
  | .digest _ w => w.plain
  | .attest _ w => w.plain
  | .journalRead _ w => w.plain
  | .eventRead _ w => w.plain
  | .eventClear _ w => w.plain
  | .qreset _ w => w.plain
  | .resetHead _ w => w.plain
  | .dozeEnter _ w => w.plain && w.imm = 1
  | .dozeLeave _ w => w.plain && w.imm ≠ 1
  | .updateStage _ w => w.plain
  | .updateActivate _ w => w.plain
  | .confirm _ w => w.plain
  | .chunk _ w => w.plain
  | .fprint _ w => w.plain
  | .cmpr _ w => w.plain
  | .dcmp _ w => w.plain
  | .ecenc _ w => w.plain
  | .ecdec _ w => w.plain
  | .ldpcs _ w => w.plain
  | .dgst _ w => w.plain
  | .sign _ w => w.plain
  | .verify _ w => w.plain
  | .nfop _ w => w.plain
  | .tfmt _ w => w.plain
  | .xfer _ w => w.plain
  | _ => false

/-- The thread of a Twizon instruction and what the memory path shows to it. -/
def twThread : Instr → Nat × LdCheck
  | .ld t _ c => (t, c)
  | .aluReg t _ => (t, .none)
  | .aluImm t _ => (t, .none)
  | .li t _ => (t, .none)
  | .lih t _ => (t, .none)
  | .cmpReg t _ => (t, .none)
  | .cmpImm t _ => (t, .none)
  | .st t _ => (t, .none)
  | .amo t _ => (t, .none)
  | .fence t _ => (t, .none)
  | .br t _ => (t, .none)
  | .call t _ => (t, .none)
  | .jr t _ => (t, .none)
  | .endp t _ => (t, .none)
  | .waitv t _ => (t, .none)
  | .trap t _ => (t, .none)
  | .nop t _ => (t, .none)
  | .clrvs t _ => (t, .none)
  | .qput t _ => (t, .none)
  | .qget t _ => (t, .none)
  | .qtry t _ => (t, .none)
  | .sig t _ => (t, .none)
  | .waits t _ => (t, .none)
  | .eret t _ => (t, .none)
  | .cinv t _ => (t, .none)
  | .cwb t _ => (t, .none)
  | .cwbi t _ => (t, .none)
  | .iinv t _ => (t, .none)
  | .lockfill t _ => (t, .none)
  | .idle t _ => (t, .none)
  | .halt t _ => (t, .none)
  | .dispatch t _ => (t, .none)
  | .stateGet t _ => (t, .none)
  | .stateSet t _ => (t, .none)
  | .put t _ => (t, .none)
  | .puta t _ => (t, .none)
  | .get t _ => (t, .none)
  | .flush t _ => (t, .none)
  | .mark t _ => (t, .none)
  | .drop t _ => (t, .none)
  | .sdrop t _ => (t, .none)
  | .snap t _ => (t, .none)
  | .clone t _ => (t, .none)
  | .replicateStart t _ => (t, .none)
  | .replicateStop t _ => (t, .none)
  | .replicateReport t _ => (t, .none)
  | .windowOpen t _ => (t, .none)
  | .windowRevoke t _ => (t, .none)
  | .arm t _ => (t, .none)
  | .contractOpen t _ => (t, .none)
  | .contractClose t _ => (t, .none)
  | .archive t _ => (t, .none)
  | .restore t _ => (t, .none)
  | .digest t _ => (t, .none)
  | .attest t _ => (t, .none)
  | .journalRead t _ => (t, .none)
  | .eventRead t _ => (t, .none)
  | .eventClear t _ => (t, .none)
  | .qreset t _ => (t, .none)
  | .resetHead t _ => (t, .none)
  | .resetIsland t _ => (t, .none)
  | .resetQueue t _ => (t, .none)
  | .dozeEnter t _ => (t, .none)
  | .dozeLeave t _ => (t, .none)
  | .updateStage t _ => (t, .none)
  | .updateActivate t _ => (t, .none)
  | .confirm t _ => (t, .none)
  | .chunk t _ => (t, .none)
  | .fprint t _ => (t, .none)
  | .cmpr t _ => (t, .none)
  | .dcmp t _ => (t, .none)
  | .ecenc t _ => (t, .none)
  | .ecdec t _ => (t, .none)
  | .ldpcs t _ => (t, .none)
  | .dgst t _ => (t, .none)
  | .sign t _ => (t, .none)
  | .verify t _ => (t, .none)
  | .nfop t _ => (t, .none)
  | .tfmt t _ => (t, .none)
  | .xfer t _ => (t, .none)
  | _ => (0, .none)

end Sys2Proof
end

