-- ==== Sys2Proof/Machine/Flags.lean ====
section
/-! DEFINITION. Predicates as compares write them (R32, Table 2-6), p7 and VS after a state access or verb (R41), the
legal encodings of CMP. -/

namespace Sys2Proof.Machine

/-- The conditions on two words. -/
def cmpWord (fn : Nat) (a b : Word) : Bool :=
  match fn with
  | 0x00 => a = b
  | 0x01 => a ≠ b
  | 0x02 => decide (a.toNat < b.toNat)
  | 0x03 => decide (b.toNat ≤ a.toNat)
  | 0x04 => a.slt b
  | 0x05 => b.sle a
  | 0x06 => (a &&& b) ≠ 0
  | _ => (a &&& b) = 0

/-- The functions on two predicates. -/
def cmpPred (fn : Nat) (a b : Bool) : Bool :=
  match fn with
  | 0x10 => a && b
  | 0x11 => a || b
  | 0x12 => a != b
  | _ => !a

/-- The register form of CMP is legal: RD[4:3] = 0, IMM unused, predicate numbers below 8, RB 0 for PNOT. -/
def cmpRegLegal (w : GWord) : Bool :=
  let fn := w.fn.toNat
  w.imm = 0 && decide (w.rd.toNat < 8) &&
    (decide (fn ≤ 7) ||
      ((fn = 0x10 || fn = 0x11 || fn = 0x12) && decide (w.ra.toNat < 8) && decide (w.rb.toNat < 8)) ||
      (fn = 0x13 && decide (w.ra.toNat < 8) && w.rb = 0))

/-- The immediate form of CMP is legal. -/
def cmpImmLegal (w : GWord) : Bool := w.rb = 0 && decide (w.rd.toNat < 8) && decide (w.fn.toNat ≤ 7)

/-- The predicate that a register-form CMP writes. -/
def cmpRegValue (x : Thread) (w : GWord) : Bool :=
  if w.fn.toNat < 0x10 then cmpWord w.fn.toNat (x.reg w.ra.toNat) (x.reg w.rb.toNat)
  else cmpPred w.fn.toNat (x.pred w.ra.toNat) (x.pred w.rb.toNat)

/-- R41 after an access with a status that the thread waited for: p7 says whether it is OK, VS keeps the first that is
not. -/
def Thread.statusOf (x : Thread) (s : Status) : Thread := (x.setPred 7 (s = .ok)).note s

end Sys2Proof.Machine
end

