-- ==== Sys2Proof/Machine/Map.lean ====
section
/-! DEFINITION. The flash map (R227-R232, R238-R242, R305-R307): map entries and recipes, the references of chunks,
deltas, what becomes dead, free space and its states. -/

namespace Sys2Proof.Machine

/-! ## Dies, blocks, space (R207, R209, R234, R241) -/

/-- Side, port and tandem group of a die (R207, R17). -/
def dieSide (d : Nat) : Nat := d / 1024
def diePort (d : Nat) : Nat := d / 16
def dieGroup (d : Nat) : Nat := d / 64

/-- A die of the inventory. -/
def Head.die (h : Head) (d : Nat) : Option Die := look none h.fl.dies d

/-- The head with its flash replaced. -/
def Head.setFl (h : Head) (f : Flash) : Head := { h with fl := f }

/-- The head with one die changed. -/
def Head.updDie (h : Head) (d : Nat) (f : Die → Die) : Head :=
  match h.die d with
  | none => h
  | some x => h.setFl { h.fl with dies := place none h.fl.dies d (some (f x)) }

/-- Bytes of a multi-plane page, the stripe unit of a die (R209), and of a block. -/
def Die.unit (d : Die) : Nat := 16384 * d.planes
def Die.block (d : Die) : Nat := d.unit * d.rows

/-- The dies in service of a side. -/
def Head.sideDies (h : Head) (side : Nat) : List Die :=
  (h.fl.dies.map (fun e => match e.2 with
    | some d => if d.state = .inService ∧ dieSide d.num = side then [d] else []
    | none => [])).flatten

/-- Raw bytes of the free blocks of a side. -/
def Head.rawFree (h : Head) (side : Nat) : Nat := sum ((h.sideDies side).map (fun d => d.free.length * d.block))

/-- Bytes of a band of a pool on a side: W + P blocks of the largest die. -/
def Head.bandBytes (h : Head) (p : Pool) (side : Nat) : Nat :=
  (p.w + p.p) * ((h.sideDies side).foldl (fun m d => max m d.block) 0)

/-- A band. -/
def Head.band (h : Head) (n : Nat) : Option Band := h.fl.bands.find? (fun b => b.num = n)

/-- The head with one band changed. -/
def Head.updBand (h : Head) (n : Nat) (f : Band → Band) : Head :=
  h.setFl { h.fl with bands := mapFirst (fun b => b.num = n) f h.fl.bands }

/-- Raw bytes of data bytes under a band's geometry. -/
def rawOf (n w p : Nat) : Nat := if w = 0 then n else n * (w + p) / w

/-- Bytes of a band that structures still name, and the dead ones. -/
def Band.valid (b : Band) : Nat := sum ((b.cells.filter (fun c => c.live)).map (fun c => c.bytes.length))
def Band.dead (b : Band) : Nat := rawOf (sum ((b.cells.filter (fun c => !c.live)).map (fun c => c.bytes.length))) b.w b.p

/-- A piece of something that nothing names any more: its bytes are dead (R231, R235, R236). -/
def Placed.orphan (x : Placed) : Placed := { x with item := .chunk 0, live := false }

/-- A band whose copies that no map names yet are orphans (Table 8-11, COPY). -/
def Band.orphans (b : Band) : Band := { b with cells := b.cells.map (fun x => if x.live then x else x.orphan) }

/-- Space that contracts reserve on a side (R96, R241): what their data has already taken of it is no longer free, and no longer
reserved. -/
def Head.reservedSpace (h : Head) (side : Nat) : Nat :=
  sum (h.openContracts.map (fun k => match h.vol k.2.volume with
    | some v => if v.home = side then k.2.space - k.2.used else 0
    | none => 0))

/-- Bands of GC spare that a pool side still holds (R241): what debits have not taken, never fewer than one. -/
def Head.spareBands (h : Head) (p : Pool) (side : Nat) : Nat :=
  max 1 (h.cfg .NFGC 0 47 32 - (if h.bandBytes p side = 0 then 0 else ceilDiv (p.debit.at side) (h.bandBytes p side)))

/-- The free space of a pool side before reservations. -/
def Head.openSpace (h : Head) (p : Pool) (side : Nat) : Int :=
  (h.rawFree side : Int) +
  (sum ((h.fl.bands.filter (fun b => b.pool = p.num && b.side = side && b.closed)).map Band.dead) : Int) -
  ((h.spareBands p side * h.bandBytes p side : Nat) : Int)

/-- The free space of a pool side (R241); negative where reservations and spare exceed what is free. -/
def Head.freeSpace (h : Head) (p : Pool) (side : Nat) : Int := h.openSpace p side - (h.reservedSpace side : Int)

/-- The unreserved free space of a pool side, and whether the side is WORN there, as check 11 of Table 4-5 takes them: of a side that
the peer serves, what the peer last sent (R94; DESIGN CHOICE, log entry 86). -/
def Head.roomOf (h : Head) (p : Pool) (side : Nat) : Int × Bool :=
  if h.serves side then (h.freeSpace p side, p.worn.at side)
  else match (h.pair.room.at side).find? (fun x => x.1 = p.num) with
    | some x => (x.2.1 - (h.reservedSpace side : Int), x.2.2)
    | none => (0, false)

/-- The free space of the sides served goes to the peer where it has changed. -/
def Head.sayRoom (h : Head) : Head :=
  ((upto 2).filter h.serves).foldl (fun h side =>
    let l := h.fl.pools.map (fun p => (p.num, h.openSpace p side, p.worn.at side))
    if l = h.pair.room.at side then h
    else ({ h with pair := { h.pair with room := h.pair.room.put side l } }).record' (.room side l)) h

/-- A pool side is TIGHT (R242): its free space is below the write margin. A side without dies holds no space of the
pool (DEDUCED, log entry 16). -/
def Head.tight (h : Head) (p : Pool) (side : Nat) : Bool :=
  !(h.sideDies side).isEmpty && decide (h.freeSpace p side < (writeMargin : Int))

/-- What a side gains gives back what debits took of the GC spare, and ends WORN with the last of it (R242). -/
def Head.repay (h : Head) (pool side : Nat) : Head :=
  match h.pool pool with
  | none => h
  | some p =>
    let f := h.freeSpace p side
    let d := p.debit.at side
    if d = 0 || f ≤ 0 then h
    else
      let left := d - min d f.toNat
      h.setFl { h.fl with pools := h.fl.pools.map (fun q =>
        if q.num = pool then { q with debit := q.debit.put side left, worn := if left = 0 then q.worn.put side false else q.worn } else q) }

/-- READ_MOSTLY entered and left (R107): below the margin of any pool it serves; left when every such pool has twice
its margin. -/
def Head.space (h : Head) : Head :=
  let h := (h.fl.pools.map (fun p => p.num)).foldl (fun h n => ((upto 2).filter h.serves).foldl (fun h s => h.repay n s) h) h
  let h := h.sayRoom
  let sides := (upto 2).filter (fun s => h.serves s && !(h.sideDies s).isEmpty)
  let low := h.fl.pools.any (fun p => sides.any (fun s => h.tight p s))
  let ample := h.fl.pools.all (fun p => sides.all (fun s => decide (2 * (writeMargin : Int) ≤ h.freeSpace p s)))
  if !h.work.readMostly && low then
    ({ h with work := { h.work with readMostly := true } }).deviceEvent 0x0120 h.side 0
  else if h.work.readMostly && ample then
    ({ h with work := { h.work with readMostly := false } }).deviceEvent 0x0121 h.side 0
  else h

/-! ## Deltas and metadata pages (R232, Table 8-10) -/

/-- A delta appended to a side's ring and mirrored. -/
def Head.delta (h : Head) (typ side gcs key val : Nat) : Head × Option Nat :=
  let n := h.vols.ndelta.at side + 1
  let d := Delta.mk typ side gcs key val
  let h := { h with vols := { h.vols with deltas := h.vols.deltas ++ [d], ndelta := h.vols.ndelta.put side n } }
  h.record (.delta side n d)

/-- As `delta`, where nobody waits for it. -/
def Head.delta' (h : Head) (typ side gcs key val : Nat) : Head := (h.delta typ side gcs key val).1

/-- A metadata page of a side has changed since it was written. -/
def Head.soil (h : Head) (p : MPage) (side : Nat) : Head :=
  if h.vols.dirty.contains (p, side) then h else { h with vols := { h.vols with dirty := h.vols.dirty ++ [(p, side)] } }

/-! ## Chunk references (R187, R231, R240) -/

/-- A chunk reference: side in [61], pool in [60:53], chunk in [39:0]. -/
def mkCref (pool side chunk : Nat) : Nat := (side <<< 61) + (pool <<< 53) + chunk

/-- The chunk-table entry that a reference names. -/
def Head.chunk (h : Head) (cref : Nat) : Option ChunkEnt :=
  h.fl.chunks.find? (fun c => mkCref c.pool c.side c.chunk = cref)

/-- References a chunk can have (R187). -/
def maxRefs : Nat := 16777215

/-- Word C1 of a chunk-table entry (Table 8-9). -/
def ChunkEnt.word (c : ChunkEnt) (refs : Nat) : Nat := (refs <<< 40) + ((c.clen / 16) <<< 24) + bnat (decide (0 < refs))

/-- A chunk's count changes: its page is dirty, the delta is written. -/
def Head.sayRefs (h : Head) (c : ChunkEnt) (refs : Nat) : Head :=
  (h.soil (.chunks c.pool (c.chunk / 256)) c.side).delta' 3 c.side 0 ((c.pool <<< 40) + c.chunk) (c.word refs)

/-- The index entries of a chunk that has reached the limit say so (R187). -/
def Head.markFull (h : Head) (cref : Nat) : Head :=
  let f := fun (e : IdxEntry) => if e.cref.toNat = cref then { e with full := true } else e
  { h with red := { h.red with
    hot := h.red.hot.map (fun w => { w with e := f w.e })
    cold := h.red.cold.map (fun p => { p with ents := p.ents.map (fun x => (x.1, f x.2)) }) } }

/-- One reference more. -/
def Head.addRef (h : Head) (cref : Nat) : Head :=
  if cref = 0 then h
  else
    match h.chunk cref with
    | none => h
    | some c =>
      let h := h.setFl { h.fl with
        chunks := mapFirst (fun c => mkCref c.pool c.side c.chunk = cref) (fun c => { c with refs := c.refs + 1 }) h.fl.chunks }
      let h := if maxRefs ≤ c.refs + 1 then h.markFull cref else h
      h.sayRefs c (c.refs + 1)

/-- One reference less: with the last the chunk's bytes are dead, its entry is freed and its hot entry removed. The answer counts the raw
bytes made dead and says whether the chunk is still named. -/
def Head.dropRef (h : Head) (cref : Nat) : Head × Nat × Bool :=
  if cref = 0 then (h, 0, false)
  else
    match h.chunk cref with
    | none => (h, 0, false)
    | some c =>
      let d := h.sayRefs c (c.refs - 1)
      if 1 < c.refs then
        (d.setFl { d.fl with
          chunks := mapFirst (fun c => mkCref c.pool c.side c.chunk = cref) (fun c => { c with refs := c.refs - 1 })
            d.fl.chunks }, 0, true)
      else
        let d := d.setFl { d.fl with
          chunks := d.fl.chunks.filter (fun c => mkCref c.pool c.side c.chunk ≠ cref)
          bands := d.fl.bands.map (fun b =>
            if b.pool = c.pool && b.side = c.side then
              { b with cells := b.cells.map (fun x => if x.item = .chunk c.chunk then { x with live := false } else x) }
            else b) }
        let raw := match h.pool c.pool with | some p => rawOf c.clen p.w p.p | none => c.clen
        ({ d with red := { d.red with hot := d.red.hot.filter (fun w => w.e.cref.toNat ≠ cref) } }, raw, false)

/-- The references of a recipe released. -/
def Head.dropRefs (h : Head) (ps : List (Nat × Nat × Nat)) : Head × Nat × Bool :=
  ps.foldl (fun acc p =>
    let x := acc.1.dropRef p.1
    (x.1, acc.2.1 + x.2.1, acc.2.2 || x.2.2)) (h, 0, false)

/-! ## Entries and recipes -/

/-- The pieces of a map entry that holds a recipe. -/
def MapKind.pieces : MapKind → List (Nat × Nat × Nat)
  | .recipe ps => ps
  | _ => []

/-- The entry of a unit that counts as of epoch `e` (R305): the present one where it is not younger, else the youngest
kept one that is not. -/
def Volume.entryAt (v : Volume) (unit e : Nat) : Option MapEntry :=
  match v.map.find? (fun m => m.unit = unit) with
  | some m =>
    if m.epoch ≤ e then some m
    else (v.emap.filter (fun m => m.unit = unit && decide (m.epoch ≤ e))).foldl
      (fun b m => match b with | some x => if x.epoch < m.epoch then some m else b | none => some m) none
  | none => (v.emap.filter (fun m => m.unit = unit && decide (m.epoch ≤ e))).foldl
      (fun b m => match b with | some x => if x.epoch < m.epoch then some m else b | none => some m) none

/-- Pieces [from, from + n) of a list of pieces. -/
def cutPieces : List (Nat × Nat × Nat) → Nat → Nat → List (Nat × Nat × Nat)
  | [], _, _ => []
  | (c, o, l) :: r, f, n =>
    if n = 0 then []
    else if l ≤ f then cutPieces r (f - l) n
    else
      let k := min (l - f) n
      (c, (if c = 0 then 0 else o + f), k) :: cutPieces r 0 (n - k)

/-! ## Places of recipes and fine blocks (Tables 8-7, 8-8) -/

/-- The word of a map entry (Table 8-7). -/
def MapEntry.word (m : MapEntry) : Nat :=
  (m.epoch <<< 40) + (match m.kind with
    | .unmapped => 0
    | .recipe _ => (1 <<< 37) + m.place
    | .fine => (2 <<< 37) + (m.place <<< 12)
    | .hole => 3 <<< 37)

/-- The bytes of a recipe (Table 8-8): `unit` is its map unit. -/
def recipeBytes (vol unit : Nat) (ps : List (Nat × Nat × Nat)) : List Byte :=
  let fine := unit % 65 ≠ 0
  let h1 := leBytes 8 ((vol <<< 48) + ((unit / 65) <<< 18) + ((if fine then unit % 65 - 1 else 0) <<< 12))
  let body := (ps.map (fun p => leBytes 8 p.1 ++ leBytes 8 ((p.2.1 <<< 46) + p.2.2))).flatten
  let h0 := fun (chk : Nat) => leBytes 8 ((0x7C5B <<< 48) + (ps.length <<< 41) + (bnat (decide fine) <<< 40) + chk)
  h0 (crc32c (h0 0 ++ h1 ++ body)) ++ h1 ++ body

/-- 64-byte granules that a recipe of `n` pieces takes. -/
def recipeGranules (n : Nat) : Nat := ceilDiv (16 + 16 * n) 64

/-- The granules that the recipes of a volume take: first and number. -/
def Volume.taken (v : Volume) : List (Nat × Nat) :=
  (v.map ++ v.emap).filterMap (fun m => match m.kind with
    | .recipe ps => some (m.place, recipeGranules ps.length)
    | _ => none)

/-- The place for a recipe of `n` pieces: the lowest granules that are free and lie within one page (DESIGN CHOICE, log entry 94). -/
def Volume.recipePlace (v : Volume) (n : Nat) : Nat :=
  let g := recipeGranules n
  let t := v.taken
  let ok := fun (p : Nat) => decide (p % 64 + g ≤ 64) && !(t.any (fun x => meets x (p, g)))
  let ends := 0 :: t.map (fun x => x.1 + x.2)
  let cands := (ends ++ ends.map (fun p => (p / 64 + 1) * 64)).filter ok
  cands.foldl min (cands.headD 0)

/-- The number for a fine block: the lowest that no volume uses (DESIGN CHOICE, log entry 94). -/
def Head.finePlace (h : Head) : Nat :=
  let used := (h.vols.vols.map (fun v => (v.map ++ v.emap).filterMap (fun m => if m.kind = .fine then some m.place else none))).flatten
  (upto (used.length + 1)).find? (fun k => !(used.contains k)) |>.getD 0

/-- Where an entry of a kind is to stand. -/
def Head.entryPlace (h : Head) (v : Volume) : MapKind → Nat
  | .recipe ps => v.recipePlace ps.length
  | .fine => h.finePlace
  | _ => 0

/-- The page of a volume's map, or the fine block, that holds a unit's entry; the block that a unit being promoted will have. -/
def Head.entryPage (h : Head) (v : Volume) (unit : Nat) : MPage :=
  if unit % 65 = 0 then .map v.num (unit / 65 / 512)
  else match v.map.find? (fun m => m.unit = unit / 65 * 65 && m.kind = .fine) with
    | some m => .fine v.num m.place
    | none => .fine v.num h.finePlace

/-- A volume's new or changed entry is logged, its pages are dirty (R232). -/
def Head.sayEntry (h : Head) (v : Nat) (m : MapEntry) (kept : Bool) : Head :=
  match h.vol v with
  | none => h
  | some x =>
    let h := h.soil (if kept then .kept v (x.emap.findIdx (fun k => k = m) / 256) else h.entryPage x m.unit) x.home
    let h := match m.kind with | .recipe _ => h.soil (.recipe v (m.place / 64)) x.home | _ => h
    h.delta' 1 x.home 0 ((v <<< 32) + ((m.unit / 65) <<< 2) + (if m.unit % 65 = 0 then 0 else 2))
      (if m.unit % 65 = 0 then m.word else m.word / 64 * 64 + (m.unit % 65 - 1))

/-! ## The pieces of a unit -/

/-- The pieces of a unit of `size` bytes at offset `base` of the coarse unit `u`, through fine entries and clone
parents; bytes that nothing covers are zeros (R228, R307). -/
def unitPieces : Nat → List Volume → Nat → Nat → Nat → Nat → Nat → List (Nat × Nat × Nat)
  | 0, _, _, _, _, _, size => [(0, 0, size)]
  | fuel + 1, vs, v, e, u, base, size =>
    match vs.find? (fun x => x.num = v) with
    | none => [(0, 0, size)]
    | some x =>
      let up := fun (b n : Nat) => match x.parent with
        | some p => unitPieces fuel vs p.1 p.2 u b n
        | none => [(0, 0, n)]
      match x.entryAt (u * 65) e with
      | none => up base size
      | some m =>
        match m.kind with
        | .unmapped => up base size
        | .hole => [(0, 0, size)]
        | .recipe ps => cutPieces ps base size
        | .fine =>
          ((upto 64).filter (fun f => decide (f * 16384 < base + size) && decide (base < f * 16384 + 16384))).foldl
            (fun acc f =>
              let lo := max base (f * 16384)
              let hi := min (base + size) (f * 16384 + 16384)
              acc ++ (match x.entryAt (u * 65 + 1 + f) e with
                | some m' => (match m'.kind with
                  | .recipe ps => cutPieces ps (lo - f * 16384) (hi - lo)
                  | .hole => [(0, 0, hi - lo)]
                  | _ => up lo (hi - lo))
                | none => up lo (hi - lo))) []

/-! ## Entries put in place (R305) -/

/-- A unit's entry for writes born in epoch `e` (R305). Where the present entry is not younger it is replaced: the old one
is kept in the epoch map where a live snapshot or a clone parent needs it, else its references are released. Where the
present entry is younger, the new one goes to the epoch map if a held epoch still reads it. The answer counts dead
bytes and says whether something removed stays named. -/
def Head.putEntryAt (h : Head) (v unit e : Nat) (kind : MapKind) : Head × Nat × Bool :=
  match h.vol v with
  | none => (h, 0, false)
  | some x =>
    let y := min e x.vepoch
    let old := x.map.find? (fun m => m.unit = unit)
    let new : MapEntry := ⟨unit, y, kind, h.entryPlace x kind⟩
    let younger := match old with | some m => decide (y < m.epoch) | none => false
    if younger then
      let till := match old with | some m => m.epoch | none => 0
      if x.heldEpochs.any (fun s => decide (y ≤ s) && decide (s < till)) then
        let gone := x.emap.find? (fun m => m.unit = unit && m.epoch = y)
        let h := kind.pieces.foldl (fun h p => h.addRef p.1) h
        let h := (h.updVol' v (fun x => { x with
          emap := x.emap.filter (fun m => !(m.unit = unit && m.epoch = y)) ++ [new] })).sayEntry v new true
        match gone with
        | some m => h.dropRefs m.kind.pieces
        | none => (h, 0, false)
      else (h, 0, false)
    else
      let kept := match old with
        | some m => x.heldEpochs.any (fun s => decide (m.epoch ≤ s) && decide (s < y))
        | none => false
      let h := kind.pieces.foldl (fun h p => h.addRef p.1) h
      let h := (h.updVol' v (fun x => { x with
        map := x.map.filter (fun m => m.unit ≠ unit) ++ [new]
        emap := match old with | some m => if kept then x.emap ++ [m] else x.emap | none => x.emap })).sayEntry v new false
      match old with
      | some m =>
        if kept then (h.sayEntry v m true, 0, !m.kind.pieces.isEmpty) else h.dropRefs m.kind.pieces
      | none => (h, 0, false)

/-- A unit's entry replaced by one of the present epoch. -/
def Head.putEntry (h : Head) (v unit : Nat) (kind : MapKind) : Head × Nat × Bool := h.putEntryAt v unit lastEpoch kind

/-- Entries put one after the other, with what they made dead. -/
def Head.putAll (h : Head) (v e : Nat) (l : List (Nat × MapKind)) : Head × Nat × Bool :=
  l.foldl (fun (acc : Head × Nat × Bool) x =>
    let y := acc.1.putEntryAt v x.1 e x.2
    (y.1, acc.2.1 + y.2.1, acc.2.2 || y.2.2)) (h, 0, false)

/-! ## Fine units (R230) -/

/-- A fine unit is no more. -/
def Head.fineGone (h : Head) (v u : Nat) : Head :=
  { h with vols := { h.vols with fines := h.vols.fines.filter (fun x => x ≠ (v, u)) } }

/-- A fine unit is written: it is the most recently written one. -/
def Head.fineUsed (h : Head) (v u : Nat) : Head :=
  let h := h.fineGone v u
  { h with vols := { h.vols with fines := (v, u) :: h.vols.fines } }

/-- A coarse unit promoted to a fine block: its recipe is cut into fine recipes, a HOLE into fine HOLEs; no data changes (R230). -/
def Head.promote (h : Head) (v u : Nat) : Head :=
  match h.vol v with
  | none => h
  | some x =>
    let old : Option MapKind := (x.map.find? (fun m => m.unit = u * 65)).map (fun m => m.kind)
    if old = some .fine then h
    else
      let fines : List (Nat × MapKind) := match old with
        | some (.recipe ps) => (upto 64).map (fun f => (u * 65 + 1 + f, .recipe (cutPieces ps (f * 16384) 16384)))
        | some .hole => (upto 64).map (fun f => (u * 65 + 1 + f, .hole))
        | _ => []
      ((h.putAll v lastEpoch (fines ++ [(u * 65, .fine)])).1).fineUsed v u

/-- A unit is to be destaged afresh as one extent (R230). -/
def Head.askAfresh (h : Head) (v off len e : Nat) : Head :=
  let rest := h.vols.afresh.filter (fun x => !(x.vol = v && meets (x.off, x.len) (off, len)))
  { h with vols := { h.vols with afresh := rest ++ [⟨v, off, len, e⟩] } }

/-- A fine unit demoted: its recipes merged into one coarse recipe, or, where that would be longer than 64 pieces, destaged afresh
(R230). -/
def Head.demote (h : Head) (v u : Nat) : Head :=
  match h.vol v with
  | none => h
  | some x =>
    let ps := unitPieces 9 h.vols.vols v lastEpoch u 0 1048576
    if 64 < ps.length then h.askAfresh v (u * 1048576) 1048576 x.vepoch
    else
      let h := (h.putAll v lastEpoch ((u * 65, .recipe ps) :: (upto 64).map (fun f => (u * 65 + 1 + f, .unmapped)))).1
      h.fineGone v u

/-- Whether a coarse unit of a volume is fine. -/
def Head.isFine (h : Head) (v u : Nat) : Bool :=
  match h.vol v with
  | some x => (match x.map.find? (fun m => m.unit = u * 65) with | some m => m.kind = .fine | none => false)
  | none => false

/-! ## New pieces for a range -/

/-- New pieces laid over part of a unit: the recipe of the whole unit. -/
def overPieces (old new : List (Nat × Nat × Nat)) (at' size : Nat) : List (Nat × Nat × Nat) :=
  let n := sum (new.map (fun p => p.2.2))
  cutPieces old 0 at' ++ new ++ cutPieces (cutPieces old (at' + n) size) 0 (size - at' - n)

/-- New pieces for bytes [off, off + n) of one coarse unit `u` (offsets within it): fine recipes where the unit is
fine or its coarse recipe would exceed 64 pieces, else one coarse recipe; a unit wholly dropped takes a HOLE entry. A fine unit whose
recipe would exceed 16 pieces gets none: it is destaged afresh (R229, R230). -/
def Head.mapUnit (h : Head) (v u off e : Nat) (new : List (Nat × Nat × Nat)) (hole : Bool) : Head × Nat × Bool :=
  let n := sum (new.map (fun p => p.2.2))
  let old := unitPieces 9 h.vols.vols v e u 0 1048576
  let ps := overPieces old new off 1048576
  let whole := decide (off = 0) && decide (n = 1048576)
  if whole && (hole || decide (ps.length ≤ 64)) then
    let h := h.fineGone v u
    let fines := (match h.vol v with | some x => x.map.filter (fun (m : MapEntry) => m.unit / 65 = u && m.unit % 65 ≠ 0) | none => [])
    h.putAll v e (fines.map (fun m => (m.unit, .unmapped)) ++ [(u * 65, if hole then .hole else .recipe ps)])
  else
    let h := if !h.isFine v u && 64 < ps.length then h.promote v u else h
    if h.isFine v u then
      let h := h.fineUsed v u
      ((upto 64).filter (fun f => decide (f * 16384 < off + n) && decide (off < f * 16384 + 16384))).foldl
        (fun (acc : Head × Nat × Bool) f =>
          let fp := cutPieces ps (f * 16384) 16384
          let all := decide (off ≤ f * 16384) && decide (f * 16384 + 16384 ≤ off + n)
          if 16 < fp.length && !(hole && all) then (acc.1.askAfresh v (u * 1048576 + f * 16384) 16384 e, acc.2)
          else
            let y := acc.1.putEntryAt v (u * 65 + 1 + f) e (if hole && all then .hole else .recipe fp)
            (y.1, acc.2.1 + y.2.1, acc.2.2 || y.2.2)) (h, 0, false)
    else h.putEntryAt v (u * 65) e (.recipe ps)

/-- New pieces for a range of a volume: unit by unit. -/
def Head.mapRange (h : Head) (v off e : Nat) (new : List (Nat × Nat × Nat)) (hole : Bool) : Head × Nat × Bool :=
  let n := sum (new.map (fun p => p.2.2))
  if n = 0 then (h, 0, false)
  else
    (upto ((off + n - 1) / 1048576 + 1 - off / 1048576)).foldl (fun (acc : Head × Nat × Bool) k =>
      let u := off / 1048576 + k
      let lo := max off (u * 1048576)
      let hi := min (off + n) (u * 1048576 + 1048576)
      let y := acc.1.mapUnit v u (lo - u * 1048576) e (cutPieces new (lo - off) (hi - lo)) hole
      (y.1, acc.2.1 + y.2.1, acc.2.2 || y.2.2)) (h, 0, false)

/-- The map changes of a DROP (R238, R240): zeros over the range. A unit that holds nothing, of a volume that is no
clone, has nothing to release. The answer: dead bytes, whether something stays shared. -/
def Head.mapDrop (h : Head) (v off n : Nat) : Head × Nat × Bool := h.mapRange v off lastEpoch [(0, 0, n)] true

/-! ## Bytes of the metadata pages (R184, R229, R232) -/

/-- The 4 KiB of a metadata page of a side as it is written. What the spec gives no layout stands as log entry 94 says. -/
def Head.pageImage (h : Head) (p : MPage) (side : Nat) : List Byte :=
  let words := fun (l : List Nat) => (l.map (leBytes 8)).flatten
  let entry := fun (v : Option Volume) (unit : Nat) => match v with
    | some x => (match x.map.find? (fun m => m.unit = unit) with | some m => m.word | none => 0)
    | none => 0
  fit 0 4096 (match p with
    | .map v n => words ((upto 512).map (fun k => entry (h.vol v) ((n * 512 + k) * 65)))
    | .fine v n =>
      (match (h.vol v).bind (fun x => x.map.find? (fun m => m.kind = .fine && m.place = n)) with
       | some m => words ((upto 64).map (fun f => entry (h.vol v) (m.unit + 1 + f)))
       | none => [])
    | .recipe v n =>
      (match h.vol v with
       | some x => ((x.map ++ x.emap).filter (fun m => m.place / 64 = n)).foldl (fun l m => match m.kind with
         | .recipe ps => overlay l (m.place % 64 * 64) (recipeBytes v m.unit ps)
         | _ => l) (List.replicate 4096 0)
       | none => [])
    | .kept v n =>
      (match h.vol v with
       | some x => (((x.emap.drop (256 * n)).take 256).map (fun m => words [m.unit, m.word])).flatten
       | none => [])
    | .chunks pool n => ((upto 256).map (fun k => match h.fl.chunks.find? (fun c => c.pool = pool && c.side = side && c.chunk = n * 256 + k) with
        | some c => words [c.faddr, c.word c.refs]
        | none => words [0, 0])).flatten
    | .cold pool n =>
      fit 0 64 (Config.coldHeader pool n) ++ ((upto 63).map (fun k =>
        match (h.red.cold.find? (fun c => c.pool = pool && c.side = side && c.page = n)).bind (fun c => (c.ents.find? (fun e => e.1 = k)).map (fun e => e.2)) with
        | some e => e.fp ++ words [e.cref.toNat, (e.clen <<< 32) + e.llen, (bnat e.v <<< 63) + (bnat e.full <<< 61) + (e.pool <<< 32) + e.age, 0]
        | none => List.replicate 64 0)).flatten)

/-- What a metadata page of a side says now. -/
def Head.pageCopy (h : Head) (p : MPage) (side : Nat) : PageCopy :=
  let of := fun (v : Nat) => ((h.vol v).map (fun x => x.map.filter (fun m => h.entryPage x m.unit = p))).getD []
  { page := p, side := side, stored := false
    map := match p with
      | .map v _ => of v
      | .fine v _ => of v
      | .kept v n => ((h.vol v).map (fun x => (x.emap.drop (256 * n)).take 256)).getD []
      | _ => []
    chunks := match p with
      | .chunks pool n => h.fl.chunks.filter (fun c => c.pool = pool && c.side = side && c.chunk / 256 = n)
      | _ => []
    cold := match p with
      | .cold pool n => ((h.red.cold.find? (fun c => c.pool = pool && c.side = side && c.page = n)).map (fun c => c.ents)).getD []
      | _ => [] }

/-- The KEY of a DIR delta (Table 8-10): volume or domain, page number. Epoch-map pages have numbers from 2^31 (R305). -/
def MPage.key : MPage → Nat
  | .map v n => (v <<< 32) + n
  | .fine v n => (v <<< 32) + n
  | .recipe v n => (v <<< 32) + n
  | .kept v n => (v <<< 32) + 2 ^ 31 + n
  | .chunks p n => (p <<< 32) + n
  | .cold p n => (p <<< 32) + n

/-- The page whose bytes a MAP or CHUNK delta changes. -/
def Head.deltaPage (h : Head) (d : Delta) : Option MPage :=
  if d.typ = 1 then
    (h.vol (d.key / 2 ^ 32)).map (fun x =>
      h.entryPage x (d.key / 4 % 2 ^ 30 * 65 + (if bit d.key 1 then 1 + d.val % 64 else 0)))
  else if d.typ = 2 || d.typ = 3 then some (.chunks (d.key / 2 ^ 40) (d.key % 2 ^ 40 / 256))
  else none

/-- The pool of a metadata page. -/
def Head.pagePool (h : Head) (p : MPage) : Option Nat :=
  match p with
  | .map v _ => (h.vol v).map (fun x => x.pool)
  | .fine v _ => (h.vol v).map (fun x => x.pool)
  | .recipe v _ => (h.vol v).map (fun x => x.pool)
  | .kept v _ => (h.vol v).map (fun x => x.pool)
  | .chunks n _ => some n
  | .cold n _ => some n

/-! ## Snapshots released -/

/-- Entries of the epoch map that no live snapshot or clone parent needs any more, released (R306). -/
def Head.sweepEpochs (h : Head) (v : Nat) : Head × Nat × Bool :=
  match h.vol v with
  | none => (h, 0, false)
  | some x =>
    let next := fun (m : MapEntry) =>
      ((x.map ++ x.emap).filter (fun k => k.unit = m.unit && decide (m.epoch < k.epoch))).foldl
        (fun b k => min b k.epoch) 16777216
    let needed := fun (m : MapEntry) => x.heldEpochs.any (fun s => decide (m.epoch ≤ s) && decide (s < next m))
    let gone := x.emap.filter (fun m => !needed m)
    let h := h.updVol' v (fun x => { x with emap := x.emap.filter needed })
    gone.foldl (fun (acc : Head × Nat × Bool) m =>
      let y := acc.1.dropRefs m.kind.pieces
      (y.1, acc.2.1 + y.2.1, acc.2.2 || y.2.2)) (h, 0, false)

/-- Histories of writes that no present or held epoch reads may be forgotten; reading is by epoch, so nothing is. A
snapshot stops being live (R306); a volume's references are swept. -/
def Head.sdrop (h : Head) (l : List (Nat × Nat)) : Head × Option Nat × Nat × Bool :=
  l.foldl (fun (acc : Head × Option Nat × Nat × Bool) p =>
    let x := acc.1.updVol p.1 (fun v =>
      let now := v.snaps.map (fun (s : Snap) => if s.epoch = p.2 then { s with live := false } else s)
      { v with snaps := now.filter (fun (s : Snap) => s.live || !s.clones.isEmpty) })
    let kept := match h.vol p.1 with
      | some v => v.snaps.any (fun s => s.epoch = p.2 && !s.clones.isEmpty)
      | none => false
    let y := x.1.sweepEpochs p.1
    (y.1, x.2, acc.2.2.1 + y.2.1, acc.2.2.2 || y.2.2 || kept)) (h, none, 0, false)

end Sys2Proof.Machine
end

