-- ==== Sys2Proof/Machine/Effects.lean ====
section
/-! DEFINITION. The effects of the host verbs of codes E and D at the moment when their command may pass its commit
point (R62, R63): snapshots and clones, drops, replication, windows and armed entries, contracts, the recorder's clear,
doze, firmware slots, marks and flushes. -/

namespace Sys2Proof.Machine

/-- What an effect did: the head after it, the tag of its record, the answer, whether it reaches its commit point (a
verb of code E whose effect fails does not, R63), and what it still waits for. -/
structure Eff where
  head   : Head
  tag    : Option Nat
  res    : VRes
  passes : Bool
  wait   : Option Await

/-- An answer of OK with a result word. -/
def VRes.ok (r : Word) : VRes := ⟨.ok, r, 0, false⟩

/-- An answer without a result. -/
def VRes.fail (s : Status) : VRes := ⟨s, 0, 0, false⟩

/-- An effect that failed: nothing changed. -/
def Eff.fail (h : Head) (s : Status) : Eff := ⟨h, none, .fail s, false, none⟩

/-- An effect that took place. -/
def Eff.done (h : Head) (tag : Option Nat) (r : Word) : Eff := ⟨h, tag, .ok r, true, none⟩

/-! ## The caller of a verb -/

/-- The command of a verb. -/
def Head.caller (h : Head) (v : HVerb) : Option Cmd := v.cmd.bind h.cmd

/-- The side a verb acts on: that of its command's address; for firmware the head's own. -/
def Head.vside (h : Head) (v : HVerb) : Nat := match v.cmd with | some k => k.1 | none => h.side

/-- The credential slot of a verb: 255 for firmware. -/
def Head.vslot (h : Head) (v : HVerb) : Nat := match h.caller v with | some c => c.cred | none => 255

/-- The verb is re-run (R162, R164). -/
def Head.vreplay (h : Head) (v : HVerb) : Bool := match h.caller v with | some c => c.again | none => false

/-- An installer or maker slot. -/
def isInstaller (slot : Nat) : Bool := decide (64 ≤ slot ∧ slot < 74)

/-- Operand k of a verb as a number. -/
def HVerb.arg (v : HVerb) (k : Nat) : Nat := (nth 0 v.ops k).toNat

/-- The volume a verb names, where it exists for the verb: one under deletion exists for commands accepted before
(R226). -/
def Head.volFor (h : Head) (v : HVerb) (n : Nat) : Option Volume :=
  match h.vol n with
  | none => none
  | some x =>
    if x.deleting && !(match v.cmd with | some k => x.delFence.contains k | none => false) then none else some x

/-! ## Snapshots, clones, drops, replication -/

/-- Live snapshots in the pair. -/
def Head.liveSnaps (h : Head) : Nat := sum (h.vols.vols.map Volume.liveSnaps)

/-- A cut that would break a limit of R303. -/
def Head.snapFull (h : Head) (members : List Volume) : Bool :=
  members.any (fun v => decide (16777214 < v.vepoch + 1) || decide (256 < v.liveSnaps + 1)) ||
    decide (65536 < h.liveSnaps + members.length)

/-- SNAP (R303). -/
def Head.effSnap (h : Head) (v : HVerb) : Eff :=
  let n := v.arg 0
  let grp := decide (v.imm % 2 = 1)
  let ms := if grp then (h.members n).filterMap h.vol else (h.volFor v n).toList
  let src := match h.caller v with | some c => some (c.side, c.seq, v.k) | none => none
  let before := if h.vreplay v then
      (ms.head?).bind (fun m => m.snaps.find? (fun s => s.src = src && src.isSome)) else none
  match before with
  | some s => .done h none (mkHandle n grp (if grp then s.cut else s.epoch))
  | none =>
    if ms.isEmpty then .fail h .invalid
    else if h.snapFull ms then .fail h .capacity
    else
      let x := h.snapCut n grp (ms.map (fun m => m.num)) src
      .done x.1 x.2.1 x.2.2

/-- CLONE (R307). -/
def Head.effClone (h : Head) (v : HVerb) : Eff :=
  let hd := nth 0 v.ops 0
  let n := v.arg 1
  match h.handle hd with
  | [] => .fail h .invalid
  | (p, e) :: _ =>
    match h.vol p with
    | none => .fail h .invalid
    | some x =>
      if bit hd.toNat 47 || decide (65535 < n) || (h.vol n).isSome || decide (8 < cloneDepth 9 h.vols.vols p + 1) then .fail h .invalid
      else
        let y := h.updVol p (fun x => { x with
          snaps := mapFirst (fun s => s.epoch = e) (fun s => { s with clones := n :: s.clones }) x.snaps })
        let nv : Volume :=
          { num := n, pool := x.pool, home := x.home, vend := 0, vepoch := 1, group := 0, writes := [], snaps := []
            parent := some (p, e), map := [], emap := [], deleting := false, delFence := [], fixed := [] }
        let z := (y.1.setVols (y.1.vols.vols ++ [nv])).record (.epoch nv)
        .done z.1 z.2 0

/-- DROP (R238, R240). -/
def Head.effDrop (h : Head) (v : HVerb) : Eff :=
  let n := v.arg 0
  let off := v.arg 1
  let len := v.arg 2
  match h.volFor v n with
  | none => .fail h .invalid
  | some x =>
    if pastEnd off len then .fail h .invalid
    else if len = 0 then .done h none 0
    else
      let src := v.cmd.getD (h.side, 0)
      let h := (h.delta' 5 x.home 0 ((n <<< 32) + src.2 % 2 ^ 32) off)
      let d := h.delta 6 x.home 0 ((n <<< 32) + src.2 % 2 ^ 32) len
      let a := d.1.applyDrop src n off len
      let m := a.1.mapDrop n off len
      ⟨m.1.space, a.2, ⟨if m.2.2 then .shared else .ok, BitVec.ofNat 64 m.2.1, 0, false⟩, true, none⟩

/-- SDROP (R306, R240). -/
def Head.effSdrop (h : Head) (v : HVerb) : Eff :=
  let l := h.handle (nth 0 v.ops 0)
  if l.isEmpty then .fail h .invalid
  else
    let x := h.sdrop l
    ⟨x.1.space, x.2.1, ⟨if x.2.2.2 then .shared else .ok, BitVec.ofNat 64 x.2.2.1, 0, false⟩, true, none⟩

/-- A replication slot. -/
def Head.rep (h : Head) (r : Nat) : Option Rep := look none h.pair.reps r

/-- The head with a replication slot replaced; the record is mirrored (R311). -/
def Head.setRep (h : Head) (r : Nat) (x : Option Rep) : Head × Option Nat :=
  ({ h with pair := { h.pair with reps := place none h.pair.reps r x } }).record
    (.repl r x)

/-- The subject of a slot. -/
def Rep.is (x : Rep) (grp : Bool) (n : Nat) : Bool := x.group = grp && x.subj = n

/-- Slots in use as (slot, contents). -/
def Head.repList (h : Head) : List (Nat × Rep) :=
  h.pair.reps.filterMap (fun e => e.2.map (fun x => (e.1, x)))

/-- The slot of a subject. -/
def Head.repOf (h : Head) (grp : Bool) (n : Nat) : Option (Nat × Rep) := h.repList.find? (fun e => e.2.is grp n)

/-- A subject is under REPLICATE: its slot runs or retries. -/
def Head.replicating (h : Head) (grp : Bool) (n : Nat) : Bool :=
  h.repList.any (fun e => e.2.is grp n && (e.2.state = 1 || e.2.state = 2))

/-- A volume, or its group, is under REPLICATE. -/
def Head.volReplicating (h : Head) (v : Volume) : Bool :=
  h.replicating false v.num || (v.group ≠ 0 && h.replicating true v.group)

/-- Field [hi:lo] of word k of a descriptor given as bytes. -/
def dword (b : List Byte) (k hi lo : Nat) : Nat := bits (leNat ((b.drop (8 * k)).take 8)) hi lo

/-- The fields of a target descriptor are in their ranges (Table 10-8). -/
def repDescrOk (b : List Byte) : Bool :=
  dword b 2 18 0 = 0 && decide (100 ≤ dword b 3 63 32) && decide (dword b 3 63 32 ≤ 3600000) && dword b 3 31 0 = 0 &&
    (b.drop 32).all (fun x => x = 0)

/-- The descriptor a REPLICATE names: 64 bytes. -/
def Head.repDescr (h : Head) (v : HVerb) : Except Status (List Byte) :=
  match h.source (h.vside v) (h.vreplay v) (nth 0 v.ops 1) 64 with
  | .ok b => .ok b.1
  | .error s => .error s

/-- REPLICATE stop and report name their subject as start does: a group where the descriptor's TGRP is not 0, or where
only a group of that number has a slot (DEDUCED, log entry 17). -/
def Head.repSubject (h : Head) (v : HVerb) : Option (Nat × Rep) :=
  let grp := match h.repDescr v with | .ok b => decide (dword b 2 31 22 ≠ 0) | .error _ => false
  if grp then h.repOf true (v.arg 0)
  else match h.repOf false (v.arg 0) with
    | some r => some r
    | none => h.repOf true (v.arg 0)

/-- The snapshot of a cycle that will not be completed is dropped (DESIGN CHOICE, log entry 39). -/
def Head.dropCut (h : Head) (x : Rep) : Head :=
  match x.cur with
  | some e => (h.sdrop (h.handle (mkHandle x.subj x.group e))).1
  | none => h

/-- The connection of a slot, of which the slot has no more use, is closed. -/
def Head.repHangUp (h : Head) (r : Nat) (x : Rep) : Head :=
  match x.conn with
  | some n => (h.setRep r (some { x with conn := none })).1.closeConn n 0
  | none => h

/-- REPLICATE (R309, R311): start 0, stop 1, report 2. -/
def Head.effReplicate (h : Head) (v : HVerb) : Eff :=
  let n := v.arg 0
  match v.imm % 4 with
  | 0 =>
    match h.repDescr v with
    | .error s => .fail h s
    | .ok b =>
      let grp := decide (dword b 2 31 22 ≠ 0)
      if !repDescrOk b || (if grp then (h.members n).isEmpty else (h.volFor v n).isNone) then .fail h .invalid
      else if h.replicating grp n || (!grp && (match h.vol n with | some x => h.volReplicating x | none => false)) ||
          (grp && (h.members n).any (fun m => h.replicating false m)) then .fail h .invalid
      else
        let old := h.repOf grp n
        match (match old with
          | some o => some o.1
          | none => (upto 256).find? (fun r => (h.rep r).isNone)) with
        | none => .fail h .capacity
        | some r =>
          let base := match old with | some o => o.2.base | none => 0
          let cyc := match old with | some o => o.2.cycles | none => 0
          let x := h.setRep r (some
            { state := 1, group := grp, subj := n, base := base, cycles := cyc, cur := none, descr := b, conn := none
              phase := 0, left := 0, startAt := h.now, stopBy := none, todo := [], win := 0, slot := 0, tag := 0
              handles := match old with | some o => o.2.handles | none => [] })
          .done x.1 x.2 (BitVec.ofNat 64 base)
  | 1 =>
    match h.repSubject v with
    | none => .fail h .invalid
    | some (r, x) =>
      if x.state = 3 then .fail h .invalid
      else
        let busy := x.conn.isSome && decide (0 < x.left)
        let h := h.dropCut x
        let h := if busy then h else h.repHangUp r x
        let y := h.setRep r (some { x with
          state := 3, phase := if busy then x.phase else 0, cur := none, todo := []
          conn := if busy then x.conn else none, stopBy := if busy then some v.vid else none })
        ⟨y.1, y.2, .ok (BitVec.ofNat 64 x.base), true, if busy then some (.repStop r) else none⟩
  | 2 =>
    match h.repSubject v with
    | none => .done h none 0
    | some (_, x) => .done h none (BitVec.ofNat 64 x.base)
  | _ => .fail h .invalid

/-! ## Windows -/

/-- The attributes and size of WINDOW.OPEN are in range (R133, R134). -/
def windowFormOk (size attr : Nat) : Bool :=
  let out := bit attr 63
  decide (1 ≤ size) && decide (size ≤ (if out then 2 ^ 40 else 2 ^ 32)) && bits attr 58 48 = 0 &&
    (if out then bits attr 62 59 = 0 else decide (bits attr 60 59 ≤ 1) && bits attr 47 0 = 0)

/-- WINDOW.OPEN (R133, R134): the lowest free index (DESIGN CHOICE, log entry 18), a salt drawn at random. -/
def Head.effOpen (h : Head) (v : HVerb) : Eff :=
  let size := v.arg 0
  let attr := v.arg 1
  let side := h.vside v
  let out := bit attr 63
  let unm := bits attr 60 59 = 1
  let taken := (h.net.windows.filter (fun w => w.side = side)).length
  if !windowFormOk size attr then .fail h .invalid
  else if 1048576 ≤ taken then .fail h .capacity
  else
    let idx := nth 0 (lowestFree (fun i => (h.windowAt side i).isSome) (taken + 1) 0 1) 0
    let salt := Config.freeNat h.fresh % 4095 + 1
    let h := h.tick
    match (if out then some (h, []) else h.winMemory size unm (salt * 1048576 + idx) none) with
    | none => .fail h .capacity
    | some (h, pages) =>
      let conn := match h.caller v with | some c => c.conn | none => 0
      let w : Window :=
        { side := side, idx := idx, salt := salt, gen := 0, size := size, out := out, strict := bit attr 62
          recycle := bit attr 61, unmir := unm, rgen := bits attr 47 32, rkey := bits attr 31 0, slot := h.vslot v
          conn := if out then conn else 0, state := .opened, pages := pages, placed := [], msgEnd := none, sealAt := 0
          retired := none, armed := none, users := [], waitAdv := false, revBy := none, olds := [] }
      let x := (h.setWindows (h.net.windows ++ [w])).record (.window w)
      let h := if out && (h.conn conn).isNone then x.1.winRelease side idx else x.1
      .done h x.2 (mkRef w.key 0)

/-- The slot of a caller may act on a window (R140, R143). -/
def mayWindow (slot : Nat) (w : Window) : Bool := w.slot = slot || isInstaller slot || slot = 255

/-- Commands that are not final, or writes not yet destaged, hold a window's sealed generation (R139, R140). -/
def Head.genHeld (h : Head) (w : Window) : Bool :=
  w.state = .sealed && (!(h.open' w.users).isEmpty || !(h.pagesHeld w.pages).isEmpty)

/-- WINDOW.REVOKE (R140): the revocation itself; the verb completes when the pipeline has drained. Where the old generation is held,
fresh memory takes its place at once; where the lehr has none, `waitAdv` says so until the drain ends (log entry 93). -/
def Head.effRevoke (h : Head) (v : HVerb) : Eff :=
  let r := nth 0 v.ops 0
  match h.window (h.vside v) (refKey r) with
  | none => .fail h (if h.vreplay v then .windowStale else .invalid)
  | some w =>
    if !mayWindow (h.vslot v) w then .fail h .tier
    else if w.out then .fail h .invalid
    else if w.gen ≠ refGen r then .fail h .windowStale
    else
      let gen := (w.gen + 1) % 65536
      let held := h.genHeld w
      let m := if held then h.winMemory w.size w.unmir w.key none else some (h, w.pages)
      let x := m.getD (h, w.pages)
      let h := x.1.setWindows (mapFirst (fun x => x.side = w.side && x.idx = w.idx)
        (fun y => { y with
          state := .revoking, gen := gen, armed := none, retired := some w.gen, revBy := some v.vid, waitAdv := m.isNone
          pages := x.2, placed := [], msgEnd := none, users := []
          olds := if held && m.isSome then ⟨w.gen, w.pages⟩ :: w.olds else w.olds }) x.1.net.windows)
      let y := h.record (.window ((h.windowAt w.side w.idx).getD w))
      ⟨y.1, y.2, .ok (BitVec.ofNat 64 gen), true, some (.revoke w.side w.idx)⟩

/-- A queue wakes because work arrived for it (R80, R82). -/
def Head.wakeQueue (h : Head) (side q : Nat) : Head := h.updQueue side q (fun x => { x with doze := 0, idle := false })

/-- The session slot of a connection. -/
def Head.sessionSlot (h : Head) (n : Nat) : Option Nat := (h.conn n).bind (fun c => c.slot)

/-- A window's present state goes to the peer with the acceptance that its seal releases, if there is one (R142). -/
def Head.saySeal (h : Head) (side idx : Nat) : Head :=
  match h.windowAt side idx with
  | some w => h.record' (.seal w none)
  | none => h

/-- The armed entry of a sealed window is still to fire for the window's generation. -/
def Window.due (w : Window) : Bool :=
  w.state = .sealed && (match w.armed with | some a => a.seen ≠ some w.gen | none => false)

/-- An armed entry fires (R67, R143): it is checked and accepted at this moment, with the registers of R143, or refused
with a record to the connection that carried the last-flag packet. The window as it then stands and the acceptance go to the peer as one
record (R142). Without a lehr page for its entry image it fires later (log entry 89). -/
def Head.fire (h : Head) (side idx : Nat) : Head :=
  match h.windowAt side idx with
  | none => h
  | some w =>
    match w.armed with
    | none => h.saySeal side idx
    | some a =>
      let e : Entry := { a.entry with
        h0 := pack [(32, (a.entry.tag + a.fired) % 2 ^ 32), (0, a.entry.h0.toNat % 2 ^ 32)] }
      let q := e.queue
      let g := h.updWindow' side idx (fun w => { w with
        armed := if a.persist then some { a with fired := a.fired + 1, seen := some w.gen } else none })
      if (g.queue side q).rst then g.saySeal side idx
      else
        match (match g.checkEntry side q e true (some a.ext) with
          | .error s => (.error s : Except Status Unit)
          | .ok _ => g.checkRun e a.ext) with
        | .error s => (g.saySeal side idx).refuse side q e w.conn e.tag s
        | .ok _ =>
          if !h.imageRoom then h.saySeal side idx
          else
            let regs : List Word := [mkRef w.key w.gen, BitVec.ofNat 64 (w.msgEnd.getD 0), BitVec.ofNat 64 w.conn,
              BitVec.ofNat 64 a.fired]
            let g := (g.updWindow' side idx (fun w => { w with users := w.users ++ [(side, (h.jour side).next)] })).wakeQueue side q
            (g.accept side q e a.ext w.conn e.tag regs [(side, idx, w.gen)]
              (fun r => .seal ((g.windowAt side idx).getD w) (some (side, r)))).1

/-- ARM (R67, R143). -/
def Head.effArm (h : Head) (v : HVerb) : Eff :=
  let r := nth 0 v.ops 0
  let side := h.vside v
  match h.window side (refKey r) with
  | none => .fail h (if h.vreplay v then .windowStale else .invalid)
  | some w =>
    if !mayWindow (h.vslot v) w then .fail h .tier
    else if w.out || w.armed.isSome then .fail h .invalid
    else if w.gen ≠ refGen r then .fail h .windowStale
    else
      match h.source side (h.vreplay v) (nth 0 v.ops 1) 128 with
      | .error s => .fail h s
      | .ok b =>
        let e := entryOf b.1
        let conn := match h.caller v with | some c => c.conn | none => 0
        let live := h.sessionSlot conn = some e.cred
        match h.checkEntry side e.queue e live none with
        | .error s => .fail h s
        | .ok ext =>
          let h := h.setWindows (mapFirst (fun x => x.side = side && x.idx = w.idx)
            (fun x => { x with armed := some ⟨e, ext, v.imm % 2 = 1, 0, none⟩ }) h.net.windows)
          let h := if w.state = .sealed then h.fire side w.idx else h
          let y := h.record (.window ((h.windowAt side w.idx).getD w))
          .done y.1 y.2 0

/-! ## Contracts -/

/-- A contract descriptor as 64 bytes is in its ranges (Table 4-1). -/
def contractDescrOk (b : List Byte) : Bool :=
  let resv := dword b 0 63 0
  let frame := dword b 1 31 0
  decide (frame ≤ resv) && decide (resv ≤ 2 ^ 50) &&
  decide (1 ≤ dword b 1 63 32) && decide (dword b 1 63 32 ≤ 4000000) &&
  decide (1 ≤ frame) && decide (frame ≤ 268435456) &&
  decide (150 ≤ dword b 2 63 32) && decide (dword b 2 63 32 ≤ 10000000) &&
  decide (1 ≤ dword b 2 31 0) && decide (dword b 2 31 0 ≤ 1073741824) &&
  dword b 3 44 0 = 0 && (b.drop 32).all (fun x => x = 0)

/-- The contract that a descriptor draws up, with its loads (R93) and reservations (R96). -/
def Head.drawUp (h : Head) (b : List Byte) (p : Pool) (side q : Nat) : Contract :=
  let re := dword b 1 63 32
  let f := dword b 1 31 0
  let burst := dword b 2 31 0
  { resv := dword b 0 63 0, rate := re, frame := f, bound := dword b 2 63 32, burst := burst
    volume := dword b 3 63 48, tclass := dword b 3 47 45, side := side, queue := q, state := .opened
    loads := (upto 4).map (fun k => loadOn h.work.cost k re f p.w p.p)
    space := reserveSpace (dword b 0 63 0) p.w p.p
    lehr := reserveLehr burst f re, slots := reserveSlots burst f re
    rem := dword b 0 63 0, level := burst + f, tokens := [], overs := 0, allow := 0, miss := 0, overRun := false, met := []
    back := [], used := 0 }

/-- The contract that a CONTRACT.OPEN draws up, once the checks of R85 pass; they are the business of the head that serves the queue. -/
def Head.contractDraw (h : Head) (v : HVerb) : Except Status Contract :=
  let side := h.vside v
  let q := v.arg 1
  if 65535 < q then .error .invalid
  else if !h.mayUse side q (h.vslot v) then .error .tier
  else
    match h.source side (h.vreplay v) (nth 0 v.ops 0) 64 with
    | .error s => .error s
    | .ok b =>
      if !contractDescrOk b.1 || !h.qEnabled side q || h.cfgS side .QCFG q 62 62 = 1 || h.bound side q then .error .invalid
      else
        match h.volFor v (dword b.1 3 63 48) with
        | none => .error .invalid
        | some vol =>
          match h.pool vol.pool with
          | none => .error .invalid
          | some p => .ok (h.drawUp b.1 p side q)

/-- The holder of the ledger decides an open (R92, R94): the contract's number, or the refusal. -/
def Head.decideOpen (h : Head) (k : Contract) : Except (Status × Word) (Head × Option Nat × Nat) :=
  match (h.vol k.volume).bind (fun v => (h.pool v.pool).map (fun p => (p, v.home))) with
  | none => .error (.invalid, 0)
  | some (p, home) =>
    let room := h.roomOf p home
    match h.admission k room.1 room.2 with
    | some r => .error (.contractRefused, r)
    | none =>
      let c := h.freeContract
      let x := h.setContract c (some k)
      .ok (x.1.space, x.2, c)

/-- CONTRACT.OPEN (R84, R85, R92-R96) on the head that holds the ledger. -/
def Head.effContractOpen (h : Head) (v : HVerb) : Eff :=
  match h.contractDraw v with
  | .error s => .fail h s
  | .ok k =>
    match (h.wakeQueue k.side k.queue).decideOpen k with
    | .error r => ⟨h, none, ⟨r.1, r.2, 0, false⟩, false, none⟩
    | .ok x => .done x.1 x.2.1 (BitVec.ofNat 64 x.2.2)

/-- Some command under a contract is not final. -/
def Head.contractBusy (h : Head) (c : Nat) : Bool := h.work.cmds.any (fun x => x.con && x.contract = c && !x.isFinal)

/-- A CLOSING contract whose queue this head serves becomes FREE once the last of its commands is final (R101): its reservations go
back. -/
def Head.freeClosed (h : Head) (c : Nat) : Head :=
  match h.contract c with
  | some k => if k.state = .closing && h.serves k.side && !h.contractBusy c then (h.setContract c none).1.space else h
  | none => h

/-- The holder closes a contract (R101): it is CLOSING, and FREE where no command under it is left on this head. -/
def Head.decideClose (h : Head) (c : Nat) : Except Status (Head × Option Nat) :=
  match h.contract c with
  | none => .error .invalid
  | some k =>
    if k.state = .closing then .error .invalid
    else
      let x := h.setContract c (if h.serves k.side && !h.contractBusy c then none else some { k with state := .closing })
      .ok (x.1.space, x.2)

/-- The checks of a CONTRACT.CLOSE that its caller's slot must pass (R101). -/
def Head.closeCheck (h : Head) (v : HVerb) : Option Status :=
  match h.contract (v.arg 0) with
  | none => some .invalid
  | some k =>
    if !h.mayUse k.side k.queue (h.vslot v) then some .tier
    else if k.state = .closing then some .invalid
    else none

/-- CONTRACT.CLOSE (R101) on the head that holds the ledger. -/
def Head.effContractClose (h : Head) (v : HVerb) : Eff :=
  match h.closeCheck v with
  | some s => .fail h s
  | none =>
    match h.decideClose (v.arg 0) with
    | .error s => .fail h s
    | .ok x => .done x.1 x.2 0

/-- A CONTRACT.OPEN or CONTRACT.CLOSE on the head that does not hold the ledger: after the checks that concern its own queue it goes to
the holder and waits for the decision (R92; how it gets there is the model's choice, log entry 19). Where the pair is not whole an open is
refused with PAIR. -/
def Head.askLedger (h : Head) (v : HVerb) : Except VRes Head :=
  if v.vc = 0x0E then
    match h.contractDraw v with
    | .error s => .error (.fail s)
    | .ok k =>
      if h.whole then .ok ((h.wakeQueue k.side k.queue).record' (.ledgerAsk v.vid 0 (some k)))
      else .error ⟨.contractRefused, refusal 1 0, 0, false⟩
  else
    match h.closeCheck v with
    | some s => .error (.fail s)
    | none => .ok (h.record' (.ledgerAsk v.vid (v.arg 0) none))

/-! ## Recorder, queues, firmware -/

/-- EVENT.CLEAR (R451). -/
def Head.effEventClear (h : Head) (v : HVerb) : Eff :=
  let x := h.clearEvents (h.vslot v)
  .done x.1 none (BitVec.ofNat 64 x.2)

/-- DOZE (R80, R81): a queue enters doze at once (the 20 µs are not modelled). -/
def Head.effDoze (h : Head) (v : HVerb) : Eff :=
  let side := h.vside v
  let q := v.arg 0
  if decide (65535 < q) || h.bound side q || h.cfgS side .QCFG q 62 62 = 1 then .fail h .invalid
  else
    .done (h.updQueue side q (fun x => { x with doze := if v.imm % 2 = 1 then 2 else 0 })) none
      (BitVec.ofNat 64 (h.cfgS side .QIDLE q 47 32))

/-- The slot of firmware not in force: 0 A, 1 B. -/
def Fw.other (f : Fw) : Nat := if f.inForce = some 0 then 1 else 0

/-- A firmware slot. -/
def Fw.slot (f : Fw) (i : Nat) : Option FwSlot := if i = 0 then f.a else f.b

/-- A firmware slot replaced. -/
def Fw.setSlot (f : Fw) (i : Nat) (s : Option FwSlot) : Fw := if i = 0 then { f with a := s } else { f with b := s }

/-- The image in force. -/
def Fw.image (f : Fw) : Option FwSlot := f.inForce.bind f.slot

/-- The head with its firmware state replaced. -/
def Head.setFw (h : Head) (f : Fw) : Head := { h with keys := { h.keys with fw := f } }

/-- The header of an image has its fixed fields (Table 14-9), and the length given is its own (check 1 of Table 14-10). -/
def imageFormOk (b : List Byte) (len : Nat) : Bool :=
  len = 128 + dword b 2 63 32 + 64 && decide (len ≤ 33554432) && dword b 0 63 48 = 0x7C60 && dword b 0 47 44 = 1 &&
  decide (dword b 0 43 40 ≤ 1) && dword b 0 39 0 = 0 && dword b 2 63 32 % 8 = 0 && dword b 3 31 0 = 0 &&
  ((b.drop 32).take 32).all (fun x => x = 0) && ((b.drop 76).take 4).all (fun x => x = 0) &&
  ((b.drop 96).take 32).all (fun x => x = 0)

/-- The signature of an image verifies under the key that KIDX names (check 3). -/
def Head.imageSigned (h : Head) (b : List Byte) : Bool :=
  let k := dword b 0 43 40
  !(h.keys.fw.revoked.getLsbD k) &&
    Config.edVerify (Config.imagePublic k) (b.take (b.length - 64)) (b.drop (b.length - 64))

/-- The cipher text of an image opens under the family image key (check 6). -/
def imageOpens (b : List Byte) : Bool :=
  let cipher := (b.drop 128).take (dword b 2 63 32)
  (Config.aeadOpen Config.imageKey ((b.drop 64).take 12) (cipher ++ (b.drop 80).take 16 ++ b.take 64)).isSome

/-- The checks of Table 14-10 in order; none where all pass. -/
def Head.stageCheck (h : Head) (b : List Byte) (len : Nat) : Option Status :=
  let f := h.keys.fw
  let now := match f.image with | some s => s.setfmt | none => dword b 2 31 16
  if !imageFormOk b len then some .invalid
  else if !f.conf then some .invalid
  else if !h.imageSigned b then some .checkFail
  else if dword b 1 31 0 < f.floor then some .invalid
  else if !(decide (dword b 2 15 0 ≤ now) && decide (now ≤ dword b 2 31 16)) then some .invalid
  else if !imageOpens b then some .checkFail
  else none

/-- What a head tells its peer of its images. -/
def Fw.said (f : Fw) : PRec :=
  .images f.ver (match f.slot f.other with | some s => if s.staged then some s.version else none | none => none) f.conf

/-- An image written to the slot of this head that is not in force. -/
def Head.stageOwn (h : Head) (b : List Byte) : Head × Nat :=
  let f := h.keys.fw
  let s : FwSlot := ⟨dword b 1 63 32, dword b 1 31 0, dword b 2 31 16, dword b 2 15 0, b, true, false⟩
  (h.setFw (f.setSlot f.other (some s)), f.other)

/-- A part of an image that the peer stages; the last one puts it in the slot not in force, and the peer is told. -/
def Head.imagePart (h : Head) (off total : Nat) (b : List Byte) : Head :=
  let got := h.keys.fw.incoming.take off ++ b
  if total ≤ got.length then
    let h := (h.setFw { h.keys.fw with incoming := [] }).stageOwn got |>.1
    h.record' h.keys.fw.said
  else h.setFw { h.keys.fw with incoming := got }

/-- An image written to the slot not in force, and, where the pair is whole, to the peer's over the bulk channel (R439), in parts of
64 KiB (DESIGN CHOICE, log entry 97). -/
def Head.stage (h : Head) (b : List Byte) : Head × Nat :=
  let x := h.stageOwn b
  if h.whole then
    let h := (upto (ceilDiv b.length 65536)).foldl
      (fun h k => h.bulk (.copyrec (.image (65536 * k) b.length ((b.drop (65536 * k)).take 65536)))) x.1
    (h.setFw { h.keys.fw with peerStaged := some (dword b 1 63 32) }, x.2)
  else x

/-- No part of an image is still on its way to the peer. -/
def Head.imageSent (h : Head) : Bool :=
  let part : Nat × PlFrame → Bool := fun f => match f.2 with | .copyrec (.image _ _ _) => true | _ => false
  !h.mirroring || !((h.pair.link.bulk.unacked ++ h.pair.link.bulk.waiting).any part)

/-- UPDATE.STAGE (R439). -/
def Head.effStage (h : Head) (v : HVerb) : Eff :=
  let len := v.arg 1
  if len = 0 then .fail h .invalid
  else
    match h.source (h.vside v) (h.vreplay v) (nth 0 v.ops 0) len with
    | .error s => .fail h s
    | .ok b =>
      match h.stageCheck b.1 len with
      | some s => .fail h s
      | none => let x := h.stage b.1; { Eff.done x.1 none (BitVec.ofNat 64 x.2) with wait := some .image }

/-- The BOOT band's bytes for an image (R460): the boot record of page 0 (MAGIC 0x7C62, VERSION, length and a CRC-32C over the record; the
places of its fields are a DESIGN CHOICE, log entry 97), then the image of page 1 and on. -/
def bootBand (s : FwSlot) : List Byte :=
  let record : Nat → List Byte := fun crc =>
    fit 0 64 (leBytes 8 (0x7C62 * 281474976710656 + crc) ++ leBytes 8 (s.version * 4294967296 + s.bytes.length))
  record (crc32c (record 0)) ++ s.bytes

/-- The image in force of this head is confirmed: the SECVER floor, the settings' old format, the other slot, the BOOT band. -/
def Head.confirmOwn (h : Head) : Head :=
  let f := h.keys.fw
  if f.conf then h
  else
    let sec := match f.image with | some s => s.secver | none => 0
    let band := match f.image with | some s => some (bootBand s) | none => f.band
    let g := { f with conf := true, floor := max f.floor sec, hleft := 0, twoFmt := false, band := band }
    h.setFw (match g.slot g.other with
      | some s => g.setSlot g.other (some { s with staged := false })
      | none => g)

/-- CONFIRM of every unconfirmed image in the pair (R441): this head's, and by a mirrored record the peer's. -/
def Head.effConfirm (h : Head) : Eff :=
  let f := h.keys.fw
  if f.conf && f.peerConf then .fail h .invalid
  else
    let reached := h.mirroring || h.pair.remir
    let h := h.confirmOwn
    let h := h.setFw { h.keys.fw with peerConf := h.keys.fw.peerConf || reached }
    let x := h.record .confirm
    .done x.1 x.2 0

/-! ## Marks and flushes (R153, R154) -/

/-- The commands a MARK or FLUSH covers. -/
def coveredBy (c : Cmd) (stream : Bool) : List Nat :=
  (c.cover.filter (fun x => !stream || x.2.1 = some c.stream)).map (fun x => x.1)

/-- A command is durable (R279): its final state is in both PSTOREs, or it is a write whose COMMITTED record is. -/
def Cmd.durable (c : Cmd) : Bool := c.isFinal || (c.passed && c.wrote)

/-- Every covered command is durable or final. -/
def Head.coverDone (h : Head) (c : Cmd) (stream : Bool) : Bool :=
  (coveredBy c stream).all (fun s => match h.cmd (c.side, s) with | some d => d.durable | none => true)

/-- The answer of a FLUSH: newest sequence number covered, and how many of them ended FAILED or ABANDONED. -/
def Head.flushAnswer (h : Head) (c : Cmd) (stream : Bool) : VRes :=
  let l := coveredBy c stream
  let bad := l.countP (fun s => match (h.jour c.side).get s with
    | some r => r.state = .failed || r.state = .abandoned
    | none => false)
  ⟨.ok, BitVec.ofNat 64 (l.getLast?.getD 0), bad, false⟩

/-- FLUSH and MARK: none while a covered command is neither durable nor final. -/
def Head.effCover (h : Head) (v : HVerb) : Option Eff :=
  match h.caller v with
  | none => some (.fail h .invalid)
  | some c =>
    let stream := decide (v.imm % 2 = 1)
    if !h.coverDone c stream then none
    else some ⟨h, none, if v.vc = 4 then h.flushAnswer c stream else .ok 0, true, none⟩

/-- The effect of a verb of code D or E; none where it must still wait. -/
def Head.effect (h : Head) (v : HVerb) : Option Eff :=
  match v.vc with
  | 0x04 => h.effCover v
  | 0x05 => h.effCover v
  | 0x06 => some (h.effDrop v)
  | 0x07 => some (h.effSdrop v)
  | 0x08 => some (h.effSnap v)
  | 0x09 => some (h.effClone v)
  | 0x0A => some (h.effReplicate v)
  | 0x0B => some (h.effOpen v)
  | 0x0C => some (h.effRevoke v)
  | 0x0D => some (h.effArm v)
  | 0x0E => some (h.effContractOpen v)
  | 0x0F => some (h.effContractClose v)
  | 0x16 => some (h.effEventClear v)
  | 0x19 => some (h.effDoze v)
  | 0x1A => some (h.effStage v)
  | 0x1C => some h.effConfirm
  | _ => some (.fail h .invalid)

end Sys2Proof.Machine
end

