-- ==== Sys2Proof/Machine/Gf.lean ====
section
/-! DEFINITION. Arithmetic in GF(2^8) under a field polynomial, for stripe parity (R247) and the tape codes (R333-R335). -/

namespace Sys2Proof.Machine

/-- A field element times α. -/
def gfDouble (poly a : Nat) : Nat := if 128 ≤ a then (2 * a) ^^^ poly else 2 * a

/-- The product of two elements. -/
def gfMul (poly a b : Nat) : Nat :=
  (upto 8).foldl (fun r i => gfDouble poly r ^^^ (if b.testBit (7 - i) then a else 0)) 0

/-- A power of an element. -/
def gfPow (poly a : Nat) : Nat → Nat
  | 0 => 1
  | n + 1 => gfMul poly a (gfPow poly a n)

/-- The inverse of an element other than 0. -/
def gfInv (poly a : Nat) : Nat := gfPow poly a 254

/-- The sum of a row and a multiple of another. -/
def gfAddRow (poly k : Nat) (a b : List Nat) : List Nat := List.zipWith (fun x y => x ^^^ gfMul poly k y) a b

/-- The solutions of `n` linear equations, each a row of coefficients with a row of right-hand sides; none where they have
no single solution. -/
def gfSolve (poly : Nat) : Nat → List (List Nat × List Nat) → Option (List (List Nat))
  | 0, _ => some []
  | n + 1, rows =>
    match rows.find? (fun r => nth 0 r.1 0 ≠ 0) with
    | none => none
    | some p =>
      let i := gfInv poly (nth 0 p.1 0)
      let rest := rows.erase p
      let p := (p.1.map (gfMul poly i), p.2.map (gfMul poly i))
      let rest := rest.map (fun r =>
        let k := nth 0 r.1 0
        ((gfAddRow poly k r.1 p.1).drop 1, gfAddRow poly k r.2 p.2))
      match gfSolve poly n rest with
      | none => none
      | some xs => some ((List.zip (p.1.drop 1) xs).foldl (fun a x => gfAddRow poly x.1 a x.2) p.2 :: xs)

/-! ## Stripe parity (R247) over units of bytes, each with its poison -/

/-- The field polynomial of stripe parity. -/
def ecPoly : Nat := 0x11D

/-- The exclusive OR of two units, byte by byte, with the poison of either. -/
def ecXor (a b : List (Byte × Bool)) : List (Byte × Bool) := List.zipWith (fun x y => (x.1 ^^^ y.1, x.2 || y.2)) a b

/-- A multiple of a unit. -/
def ecScale (k : Nat) (a : List (Byte × Bool)) : List (Byte × Bool) :=
  a.map (fun x => (BitVec.ofNat 8 (gfMul ecPoly k x.1.toNat), x.2))

/-- A unit of zeros. -/
def ecZero (n : Nat) : List (Byte × Bool) := List.replicate n (0, false)

/-- The coefficient of data position `m` in parity `j`. -/
def ecCoef (j m : Nat) : Nat := gfPow ecPoly 2 (j * m % 255)

/-- Parity `j` of data units. -/
def ecParity (j n : Nat) (ds : List (List (Byte × Bool))) : List (Byte × Bool) :=
  (upto ds.length).foldl (fun a m => ecXor a (ecScale (ecCoef j m) (nth [] ds m))) (ecZero n)

/-- The data units of a stripe with the positions of `gone` erased, rebuilt from parity; `ms` are the units by position. -/
def ecData (w p n : Nat) (gone : List Nat) (ms : List (List (Byte × Bool))) : Option (List (List (Byte × Bool))) :=
  let lost := (upto w).filter (fun m => gone.contains m)
  let have_ := ((upto p).filter (fun j => !(gone.contains (w + j)))).take lost.length
  let known := (upto w).map (fun m => if lost.contains m then ecZero n else nth [] ms m)
  let rows := have_.map (fun j =>
    (lost.map (fun m => ecCoef j m), (ecXor (ecParity j n known) (nth [] ms (w + j)))))
  let bad := (upto n).map (fun i => rows.any (fun r => (nth (0, false) r.2 i).2))
  match gfSolve ecPoly lost.length (rows.map (fun r => (r.1, r.2.map (fun x => x.1.toNat)))) with
  | none => none
  | some xs =>
    some ((upto w).map (fun m =>
      if lost.contains m then List.zipWith (fun x b => (BitVec.ofNat 8 x, b)) (nth [] xs (lost.idxOf m)) bad else nth [] ms m))

end Sys2Proof.Machine
end

