-- ==== Sys2Proof/Machine/Codeword.lean ====
section
/-! DEFINITION. What stands in a band (R220, R221, R224, R246-R248, R250, R251, R254): the bytes of a codeword, its poison, the parity of a
stripe, a codeword rebuilt from others, the band summary, and codewords as they are programmed. -/

namespace Sys2Proof.Machine

/-! ## Units, stripes, tails (R246, R251) -/

/-- Bytes of a unit of a band, and of a stripe's data. -/
def Band.unit (b : Band) : Nat := 16384 * b.planes
def Band.span (b : Band) : Nat := b.w * b.unit

/-- Codewords of a unit. -/
def Band.cws (b : Band) : Nat := 4 * b.planes

/-- The tail of a band (R251): the number of its open stripe and the bytes of it in use; where the last stripe is full,
the next one. -/
def Band.tail (b : Band) : Nat × Nat :=
  match b.stripes.getLast? with
  | some s => if s.used < b.span then (s.n, s.used) else (s.n + 1, 0)
  | none => (0, 0)

/-- Bytes that wait to be placed. -/
def Band.staged (b : Band) : Nat := sum (b.stage.map (fun x => x.bytes.length))

/-- The next fill of a band is the one that closes it (R254). -/
def Band.mustClose (b : Band) : Bool :=
  decide (b.rows ≤ b.fills.length + 1) || decide (b.unit < 16 + 8 * (b.fills.length + 1))

/-- The dies of the members whose position a band has lost. -/
def Band.lostDies (b : Band) : List Nat := b.lost.map (fun m => (nth (0, 0) b.members m).1)

/-- The members whose position a band has not lost: a block of a die that failed is the band's no more, though the die be taken up again
(R260). -/
def Band.held (b : Band) : List (Nat × Nat) := (upto b.members.length).filterMap (fun k => if b.lost.contains k then none else b.members[k]?)

/-- The member of a position: die and block. -/
def Band.member (b : Band) (pos : Nat) : Nat × Nat := nth (0, 0) b.members pos

/-- The row of the current unit of a position of a stripe (R251); none where it was never written. -/
def Band.rowOf (b : Band) (stripe pos : Nat) : Option Nat :=
  match b.stripes.find? (fun s => s.n = stripe) with
  | some s => if look 0 s.rows pos = 0 then none else some (look 0 s.rows pos - 1)
  | none => none

/-- The pieces of an item in a band. -/
def Band.pieces (b : Band) (i : Item) : List Placed := b.cells.filter (fun x => x.item = i)

/-- Bytes of a list of pieces. -/
def pieceBytes (l : List Placed) : List Byte := (l.map (fun x => x.bytes)).flatten

/-- The codewords that a range of a stripe's data touches, as (position, codeword). -/
def Band.cwsOf (b : Band) (off n : Nat) : List (Nat × Nat) :=
  if n = 0 then []
  else (upto ((off + n - 1) / 4096 + 1 - off / 4096)).map (fun k => ((off / 4096 + k) / b.cws, (off / 4096 + k) % b.cws))

/-! ## Metadata and poison (Table 8-5, R248) -/

/-- The metadata of a codeword (Table 8-5). -/
def cwInfo (band stripe pos cw wseq : Nat) (pois par : Bool) : List Byte :=
  leBytes 8 ((band <<< 44) + (stripe <<< 28) + (pos <<< 23) + (cw <<< 18) + (bnat pois <<< 17) + (bnat par <<< 16)) ++ leBytes 8 wseq

/-- The marker pattern of a codeword: 256 copies of the first 8 bytes of its metadata with POIS set and their complement (R248). -/
def marker (band stripe pos cw : Nat) : List Byte :=
  let a := (cwInfo band stripe pos cw 0 true false).take 8
  (List.replicate 256 (a ++ a.map (fun x => ~~~x))).flatten

/-- A data codeword is a poison marker: some piece has poisoned bytes in it (R174, R263). -/
def Band.pois (b : Band) (stripe pos cw : Nat) : Bool :=
  b.cells.any (fun x => x.stripe = stripe && x.bad.any (fun r => meets (x.off + r.1, r.2) (pos * b.unit + cw * 4096, 4096)))

/-! ## User bytes and parity (R246-R248) -/

/-- The user bytes of a data codeword: the pieces that stand in it over zeros, or its marker. -/
def Band.dataCw (b : Band) (stripe pos cw : Nat) : List Byte :=
  if b.pois stripe pos cw then marker b.num stripe pos cw
  else
    let lo := pos * b.unit + cw * 4096
    (b.cells.filter (fun x => x.stripe = stripe && meets (x.off, x.bytes.length) (lo, 4096))).foldl (fun l x =>
      (overlay l (x.off - lo) (x.bytes.drop (lo - x.off))).take 4096) (List.replicate 4096 0)

/-- A codeword of a unit without the poison of its bytes. -/
def clean (l : List Byte) : List (Byte × Bool) := l.map (fun x => (x, false))

/-- The user bytes of a codeword at any position (R247). -/
def Band.userCw (b : Band) (stripe pos cw : Nat) : List Byte :=
  if pos < b.w then b.dataCw stripe pos cw
  else (ecParity (pos - b.w) 4096 ((upto b.w).map (fun m => clean (b.dataCw stripe m cw)))).map (fun x => x.1)

/-- A codeword rebuilt from the same codeword of other positions (R247, R259), `out` being those that are not to be had; none where they
are more than parity makes up. -/
def Band.rebuiltCw (b : Band) (stripe pos cw : Nat) (out : List Nat) : Option (List Byte) :=
  if b.p < out.length then none
  else
    let ms := (upto (b.w + b.p)).map (fun m => if out.contains m then ecZero 4096 else clean (b.userCw stripe m cw))
    (ecData b.w b.p 4096 out ms).map (fun ds =>
      (if pos < b.w then nth [] ds pos else ecParity (pos - b.w) 4096 ds).map (fun x => x.1))

/-- A codeword as a reader gets it, `out` being the positions that are not to be had: its bytes and POIS, which a rebuilt codeword has
where its bytes are the marker of its place (R248). -/
def Band.readCw (b : Band) (stripe pos cw : Nat) (out : List Nat) : Option (List Byte × Bool) :=
  if out.contains pos then
    (b.rebuiltCw stripe pos cw out).map (fun l => (l, decide (pos < b.w) && decide (l = marker b.num stripe pos cw)))
  else some (b.userCw stripe pos cw, decide (pos < b.w) && b.pois stripe pos cw)

/-! ## The band summary (Table 9-2) -/

/-- The summary of a band: its fills in order, the one that writes it among them. -/
def Band.summary (b : Band) (fills : List Fill) : List Byte :=
  let body := leBytes 8 (b.num <<< 44) ++ (fills.map (fun f => leBytes 8 ((f.stripe <<< 48) + (f.row <<< 32) + f.mask))).flatten
  let head := fun (chk : Nat) => leBytes 8 ((0x7C5C <<< 48) + (fills.length <<< 32) + chk)
  head (crc32c (head 0 ++ body)) ++ body

/-! ## Codewords as they are programmed (R220, R221, R224) -/

/-- Check bytes of an LDPC code (R221). -/
def ldpcBytes (code : Nat) : Nat := 256 + 128 * code

/-- A codeword programmed: `key` is the pool's, `tweak` its place, `code` the die's LDPC code. -/
def codeword (key : Option (List Byte)) (tweak code : Nat) (user info : List Byte) : Codeword :=
  { user := match key with | some k => fit 0 4096 (Config.xts k tweak user) | none => user
    info := info
    code := fit 0 (ldpcBytes code) (Config.ldpcCode code (user ++ info)) }

/-- The tweak of a codeword (R224): (d << 48) | (ROW << 8) | CW. -/
def tweakOf (die row cw : Nat) : Nat := (die <<< 48) + (row <<< 8) + cw

/-- A stripe table after a fill (R251). -/
def Band.filled (b : Band) (f : Fill) (placed : List Placed) : List Stripe :=
  let n := sum (placed.map (fun p => p.bytes.length))
  let old := b.stripes.find? (fun s => s.n = f.stripe)
  let rows := (upto (b.w + b.p)).foldl (fun l m => if bit f.mask m then place 0 l m (f.row + 1) else l)
    (match old with | some s => s.rows | none => [])
  let s : Stripe := ⟨f.stripe, rows, (match old with | some s => s.used | none => 0) + n⟩
  b.stripes.filter (fun s => s.n ≠ f.stripe) ++ [s]

/-- The user bytes that a fill writes to a codeword of a position, and whether they are a marker. -/
def Band.fillCw (b : Band) (f : FillOp) (pos cw : Nat) : List Byte × Bool :=
  if f.summary then (fit 0 4096 ((b.summary (b.fills ++ [f.fill])).drop (cw * 4096)), false)
  else
    let c : Band := { b with cells := b.cells ++ f.placed }
    (c.userCw f.fill.stripe pos cw, decide (pos < b.w) && c.pois f.fill.stripe pos cw)

/-- What a fill programs on a member (R250): its unit's codewords, or nothing, which is a blank program. -/
def Band.fillUnit (b : Band) (f : FillOp) (key : Option (List Byte)) (code : Nat) (pos : Nat) : List Codeword :=
  let m := b.member pos
  if bit f.fill.mask pos then
    (upto b.cws).map (fun cw =>
      let u := b.fillCw f pos cw
      codeword key (tweakOf m.1 (Config.rowAddress m.1 m.2 f.fill.row (cw / 4)) cw) code u.1
        (cwInfo b.num f.fill.stripe pos cw f.wseq u.2 (decide (b.w ≤ pos))))
  else []

end Sys2Proof.Machine
end

