-- ==== Sys2Proof/Machine/Deflate.lean ====
section
/-! DEFINITION. The DEFLATE subset (R189-R193), the framings (R205) and what one call of a compression or decompression
unit does to a gather slot (R199, R200, R203, R204), as functions of the slot and the bytes given. -/

namespace Sys2Proof.Machine

/-! ## Codes (RFC 1951, R190) -/

/-- Bits of a number, the least significant first. -/
def lsbBits : Nat → Nat → List Bool
  | 0, _ => []
  | n + 1, x => decide (x % 2 = 1) :: lsbBits n (x / 2)

/-- The number that bits spell, the least significant first. -/
def bitsNat : List Bool → Nat
  | [] => 0
  | b :: r => bnat b + 2 * bitsNat r

/-- The bits of bytes in the order of a DEFLATE stream. -/
def bitsOf (l : List Byte) : List Bool := (l.map (fun b => lsbBits 8 b.toNat)).flatten

/-- Whole bytes that bits spell; bits beyond the last whole byte are left out. -/
def bytesOf : Nat → List Bool → List Byte
  | 0, _ => []
  | n + 1, l => BitVec.ofNat 8 (bitsNat (l.take 8)) :: bytesOf n (l.drop 8)

/-- Codes given by lengths: (symbol, length, code). Codes of one length are consecutive in symbol order. -/
def canonical (ls : List Nat) : List (Nat × Nat × Nat) :=
  ((upto 15).foldl (fun (acc : Nat × List (Nat × Nat × Nat)) k =>
    let n := k + 1
    let syms := (upto ls.length).filter (fun s => nth 0 ls s = n)
    let c := acc.1 * 2
    (c + syms.length, acc.2 ++ (upto syms.length).map (fun i => (nth 0 syms i, n, c + i)))) (0, [])).2

/-- The bits of a symbol: its code, the most significant bit first; none where it has no code. -/
def symBits (ls : List Nat) (s : Nat) : List Bool :=
  match (canonical ls).find? (fun c => c.1 = s) with
  | some c => (lsbBits c.2.1 c.2.2).reverse
  | none => []

/-- Kraft sum of code lengths in units of 2^-15. -/
def kraft (ls : List Nat) : Nat := sum (ls.map (fun n => if n = 0 then 0 else 2 ^ (15 - n)))

/-- Lengths that form a complete prefix code. -/
def completeCode (ls : List Nat) : Bool := ls.all (fun n => decide (n ≤ 15)) && kraft ls = 32768

/-- Neighbours paired into packages. -/
def pairUp : List (Nat × List Nat) → List (Nat × List Nat)
  | a :: b :: r => (a.1 + b.1, a.2 ++ b.2) :: pairUp r
  | _ => []

/-- Code lengths of at most `limit` bits by package-merge from (symbol, count) in symbol order (R190); of equal weights
symbols come first, lower symbols first. One symbol alone takes one bit. -/
def packageMerge (limit : Nat) (counts : List Nat) : List Nat :=
  let items := (upto counts.length).filter (fun s => decide (0 < nth 0 counts s))
  let coins := sortBy (fun (c : Nat × List Nat) => c.1) (items.map (fun s => (nth 0 counts s, [s])))
  match items with
  | [] => counts.map (fun _ => 0)
  | [s] => (upto counts.length).map (fun k => if k = s then 1 else 0)
  | _ =>
    let last := (upto limit).foldl (fun (prev : List (Nat × List Nat)) _ =>
      sortBy (fun (c : Nat × List Nat) => c.1) (coins ++ pairUp prev)) []
    let chosen := ((last.take (2 * items.length - 2)).map (fun c => c.2)).flatten
    (upto counts.length).map (fun s => chosen.countP (fun x => x = s))

/-- Length symbols: (symbol, first length, extra bits); distance symbols likewise. -/
def lenSyms : List (Nat × Nat × Nat) :=
  [(257, 3, 0), (258, 4, 0), (259, 5, 0), (260, 6, 0), (261, 7, 0), (262, 8, 0), (263, 9, 0), (264, 10, 0), (265, 11, 1),
   (266, 13, 1), (267, 15, 1), (268, 17, 1), (269, 19, 2), (270, 23, 2), (271, 27, 2), (272, 31, 2), (273, 35, 3),
   (274, 43, 3), (275, 51, 3), (276, 59, 3), (277, 67, 4), (278, 83, 4), (279, 99, 4), (280, 115, 4), (281, 131, 5),
   (282, 163, 5), (283, 195, 5), (284, 227, 5), (285, 258, 0)]
def distSyms : List (Nat × Nat × Nat) :=
  [(0, 1, 0), (1, 2, 0), (2, 3, 0), (3, 4, 0), (4, 5, 1), (5, 7, 1), (6, 9, 2), (7, 13, 2), (8, 17, 3), (9, 25, 3),
   (10, 33, 4), (11, 49, 4), (12, 65, 5), (13, 97, 5), (14, 129, 6), (15, 193, 6), (16, 257, 7), (17, 385, 7),
   (18, 513, 8), (19, 769, 8), (20, 1025, 9), (21, 1537, 9), (22, 2049, 10), (23, 3073, 10), (24, 4097, 11),
   (25, 6145, 11), (26, 8193, 12), (27, 12289, 12), (28, 16385, 13), (29, 24577, 13)]

/-- The symbol of a value: the last row whose first value is not above it. -/
def symOf (t : List (Nat × Nat × Nat)) (v : Nat) : Nat × Nat × Nat :=
  t.foldl (fun b r => if r.2.1 ≤ v then r else b) (0, 0, 0)

/-- The fixed codes (RFC 1951). -/
def fixedLL : List Nat := List.replicate 144 8 ++ List.replicate 112 9 ++ List.replicate 24 7 ++ List.replicate 8 8
def fixedDL : List Nat := List.replicate 30 5

/-! ## Block headers -/

/-- A run at the head of a list: its value, its length, the rest. -/
def runOf : List Nat → Nat × Nat
  | [] => (0, 0)
  | a :: r => (a, 1 + (r.takeWhile (fun b => b = a)).length)

/-- Code lengths as symbols of the code-length code with their extra bits (symbol, extra value, extra bits). `use` says which of 16, 17
and 18 runs take; `prev` is the length before. -/
def runSyms (use : Nat → Bool) : Nat → Option Nat → List Nat → List (Nat × Nat × Nat)
  | 0, _, _ => []
  | _ + 1, _, [] => []
  | fuel + 1, prev, a :: r =>
    let n := (runOf (a :: r)).2
    if a = 0 ∧ 11 ≤ n ∧ use 18 then (18, min n 138 - 11, 7) :: runSyms use fuel (some 0) ((a :: r).drop (min n 138))
    else if a = 0 ∧ 3 ≤ n ∧ use 17 then (17, min n 10 - 3, 3) :: runSyms use fuel (some 0) ((a :: r).drop (min n 10))
    else if prev = some a ∧ 3 ≤ n ∧ use 16 then (16, min n 6 - 3, 2) :: runSyms use fuel prev ((a :: r).drop (min n 6))
    else (a, 0, 0) :: runSyms use fuel (some a) r

/-- The order of the code-length code's lengths in a header (RFC 1951). -/
def clOrder : List Nat := [16, 17, 18, 0, 8, 7, 9, 6, 10, 5, 11, 4, 12, 3, 13, 2, 14, 1, 15]

/-- A list without its zeros at the end, of at least `n` elements. -/
def trimTo (n : Nat) (l : List Nat) : List Nat :=
  l.take (max n (l.length - (l.reverse.takeWhile (fun x => x = 0)).length))

/-- The header of a dynamic or static block whose runs take the symbols of 16, 17 and 18 that `use` allows. -/
def headerWith (use : Nat → Bool) (final : Bool) (l d : List Nat) : List Bool :=
  let syms := runSyms use (l.length + d.length) none (l ++ d)
  let cl := packageMerge 7 ((upto 19).map (fun s => syms.countP (fun x => x.1 = s)))
  let ordered := trimTo 4 (clOrder.map (fun s => nth 0 cl s))
  [final, false, true] ++ lsbBits 5 (l.length - 257) ++ lsbBits 5 (d.length - 1) ++ lsbBits 4 (ordered.length - 4) ++
    (ordered.map (lsbBits 3)).flatten ++ (syms.map (fun x => symBits cl x.1 ++ lsbBits x.2.2 x.2.1)).flatten

/-- The header of a DEFLATE block (R190): of the headers that take some of the symbols 16, 17 and 18 for every run they fit, the shortest,
and of equally short ones the one that takes most of them (DEDUCED, log entry 15). -/
def blockHeader (final : Bool) (mode : Nat) (ll dl : List Nat) : List Bool :=
  if mode = 1 then [final, true, false]
  else
    let l := trimTo 257 (ll.take 286)
    let d := trimTo 1 (dl.take 30)
    let heads := [7, 6, 5, 3, 4, 2, 1, 0].map (fun k => headerWith (fun s => bit k (18 - s)) final l d)
    heads.foldl (fun best x => if x.length < best.length then x else best) (heads.headD [])

/-! ## Symbols -/

/-- A symbol of the compressor: a literal, or a match. -/
inductive Sym where
  | lit (b : Byte)
  | mat (len dist : Nat)
deriving DecidableEq, Repr

/-- Input bytes a symbol takes. -/
def Sym.len : Sym → Nat
  | .lit _ => 1
  | .mat n _ => n

/-- The bits of a symbol under code lengths. -/
def Sym.bits (ll dl : List Nat) : Sym → List Bool
  | .lit b => symBits ll b.toNat
  | .mat n d =>
    let a := symOf lenSyms n
    let b := symOf distSyms d
    symBits ll a.1 ++ lsbBits a.2.2 (n - a.2.1) ++ symBits dl b.1 ++ lsbBits b.2.2 (d - b.2.1)

/-- A match is legal (Table 7-4): its bytes are those that stand `d` before, and it stays within what follows. -/
def matchOk (hist look : List Byte) (n d : Nat) : Bool :=
  decide (3 ≤ n ∧ n ≤ 258 ∧ 1 ≤ d ∧ d ≤ 32768 ∧ d ≤ hist.length ∧ n ≤ look.length) &&
    (upto n).all (fun i => nth 0 look i = (if i < d then nth 0 hist (d - 1 - i) else nth 0 look (i - d)))

/-- The match finder's choice at a position, under code lengths `ok` accepts. -/
def choose (ok : Nat → Nat → Bool) (hist look : List Byte) : Sym :=
  let m := Config.matchFinder hist look
  match look with
  | [] => .lit 0
  | b :: _ => if matchOk hist look m.1 m.2 && ok m.1 m.2 then .mat m.1 m.2 else .lit b

/-- A symbol's length and distance codes exist (R193). -/
def codesOk (ll dl : List Nat) (n d : Nat) : Bool :=
  nth 0 ll (symOf lenSyms n).1 ≠ 0 && nth 0 dl (symOf distSyms d).1 ≠ 0

/-- History moved on by bytes taken; 32,768 are kept. -/
def histAdd (hist taken : List Byte) : List Byte := (taken.reverse ++ hist).take 32768

/-- All symbols of a block. -/
def lexBlock : Nat → List Byte → List Byte → List Sym
  | 0, _, _ => []
  | _ + 1, _, [] => []
  | fuel + 1, hist, b :: r =>
    let s := choose (fun _ _ => true) hist (b :: r)
    s :: lexBlock fuel (histAdd hist ((b :: r).take s.len)) ((b :: r).drop s.len)

/-- Code lengths from a block's own counts (R190). -/
def dynamicCodes (l : List Sym) : List Nat × List Nat :=
  let ls := 256 :: l.map (fun s => match s with | .lit b => b.toNat | .mat n _ => (symOf lenSyms n).1)
  let ds := l.filterMap (fun s => match s with | .lit _ => none | .mat _ d => some (symOf distSyms d).1)
  (packageMerge 15 ((upto 286).map (fun k => ls.countP (fun x => x = k))),
   packageMerge 15 ((upto 30).map (fun k => ds.countP (fun x => x = k))))

/-- Code lengths that can carry any block: every literal and the end of block have a code. -/
def fullCodes (c : List Nat × List Nat) : Bool :=
  decide (c.1.length = 286 ∧ c.2.length = 30) && completeCode c.1 && (c.1.take 257).all (fun n => n ≠ 0) &&
    (c.2.all (fun n => decide (n ≤ 15)) && decide (kraft c.2 ≤ 32768))

/-- Code lengths of a dynamic block of which a call gives `src`: its own counts where the call gives the whole block, else
whatever the unit builds (free, among lengths that can carry any block). -/
def openCodes (whole : Bool) (hist src : List Byte) : List Nat × List Nat :=
  if whole then dynamicCodes (lexBlock src.length hist src)
  else if fullCodes (Config.blockCodes hist src) then Config.blockCodes hist src
  else (packageMerge 15 (List.replicate 286 1), packageMerge 15 (List.replicate 30 1))

/-! ## Running checks -/

/-- The running Adler-32 after bytes. -/
def adlerAdd (a : Nat) (l : List Byte) : Nat :=
  let x := l.foldl (fun (p : Nat × Nat) b => let s := (p.1 + b.toNat) % 65521; (s, (p.2 + s) % 65521)) (a % 65536, a / 65536)
  x.2 * 65536 + x.1

/-- The slot's running checks and history after uncompressed bytes. -/
def GSlot.took (g : GSlot) (l : List Byte) : GSlot :=
  { g with
    hist := histAdd g.hist l, nextin := g.nextin + l.length, crcs := l.foldl (crcByte 0x82F63B78) g.crcs
    crc32 := l.foldl (crcByte 0xEDB88320) g.crc32, adler := adlerAdd g.adler l }

/-- Bytes of a number, most significant first. -/
def beBytes (n x : Nat) : List Byte := (leBytes n x).reverse

/-- The framing before and after a stream (R205). -/
def frameHead (f : Nat) : List Byte :=
  if f = 2 then [0x78, 0x01] else if f = 3 then [0x1F, 0x8B, 8, 0, 0, 0, 0, 0, 0, 0xFF] else []
def GSlot.frameTail (g : GSlot) : List Byte :=
  match g.frame with
  | 0 => leBytes 4 (g.crcs ^^^ 0xFFFFFFFF)
  | 1 => []
  | 2 => beBytes 4 g.adler
  | _ => leBytes 4 (g.crc32 ^^^ 0xFFFFFFFF) ++ leBytes 4 g.nextin

/-- A slot that no chunk has. -/
def GSlot.blank : GSlot :=
  { live := false, hdr := false, mode := 0, tslot := 0, dir := 0, frame := 0, nextin := 0, accn := 0, acc := 0, plen := 0
    pdist := 0, crcs := 0xFFFFFFFF, outn := 0, blkin := 0, inbit := 0, adler := 1, crc32 := 0xFFFFFFFF, hist := []
    ll := [], dl := [], q := [], phase := 0, fin := false }

/-- A slot bound afresh (R203). -/
def GSlot.start (dir mode tslot frame : Nat) : GSlot :=
  { GSlot.blank with
    live := true, mode := mode, tslot := tslot, dir := dir, frame := frame
    q := if dir = 0 then frameHead frame else [], phase := if dir = 0 then 1 else if 2 ≤ frame then 0 else 1 }

/-! ## One call of a compression unit (R199, R203, R204) -/

/-- A call in progress: the slot, the source left, the bits of the call in order (those held first). -/
structure Cm where
  g    : GSlot
  src  : List Byte
  bs   : List Bool

/-- Bits can be placed whole: in the destination's `n` bytes or the 63 bits of ACC. -/
def Cm.fits (c : Cm) (n : Nat) (b : List Bool) : Bool := decide (c.bs.length + b.length ≤ 8 * n + 63)

/-- What a step of a call leads to: it goes on, the destination is full, or the source is used up. -/
inductive CmNext where
  | go (c : Cm)
  | full (c : Cm)
  | dry (c : Cm)

/-- The end of the current block: its end-of-block symbol; a block of 65,536 bytes or the last one closes. -/
def Cm.close (c : Cm) (n : Nat) : CmNext :=
  let b := symBits c.g.ll 256
  if c.fits n b then
    .go { c with
      bs := c.bs ++ b
      g := { c.g with hdr := false, blkin := c.g.nextin, phase := if c.g.fin then 2 else c.g.phase } }
  else .full c

/-- One step: a full block closes; a block opens with its header; a symbol is placed. -/
def Cm.step (c : Cm) (n : Nat) (final : Bool) (huff : Nat → Option Huff) : CmNext :=
  let g := c.g
  if g.hdr && g.nextin - g.blkin = 65536 then c.close n
  else if g.phase ≠ 1 || c.src.isEmpty then .dry c
  else
    let room := 65536 - (g.nextin - g.blkin)
    let look := c.src.take room
    if !g.hdr then
      let codes :=
        if g.mode = 1 then (fixedLL, fixedDL)
        else if g.mode = 2 then (match huff g.tslot with | some t => (t.ll, t.dl) | none => (fixedLL, fixedDL))
        else openCodes (final || c.src.length = 65536) g.hist look
      let b := blockHeader final g.mode codes.1 codes.2
      if c.fits n b then .go { c with bs := c.bs ++ b, g := { g with hdr := true, fin := final, ll := codes.1, dl := codes.2 } }
      else .full c
    else
      let s := if 0 < g.plen then .mat g.plen g.pdist else choose (codesOk g.ll g.dl) g.hist look
      let b := s.bits g.ll g.dl
      if c.fits n b then
        .go ⟨{ (g.took (look.take s.len)) with plen := 0, pdist := 0 }, c.src.drop s.len, c.bs ++ b⟩
      else .full { c with g := match s with | .mat l d => { g with plen := l, pdist := d } | .lit _ => g }

/-- Steps until the source is used up or the destination is full; the Bool says which. -/
def cmLoop : Nat → Cm → Nat → Bool → (Nat → Option Huff) → Cm × Bool
  | 0, c, _, _, _ => (c, false)
  | fuel + 1, c, n, final, huff =>
    match c.step n final huff with
    | .go c => cmLoop fuel c n final huff
    | .full c => (c, true)
    | .dry c => (c, false)

/-- The end of the chunk under FINAL: the open block closes, an empty fixed block is emitted where none with BFINAL is
open; then the padded bits and the trailer stand in `q`. -/
def Cm.finish (c : Cm) (n : Nat) : Cm × Bool :=
  let x := if c.g.hdr then c.close n else .go c
  match x with
  | .go c =>
    let e : List Bool := [true, true, false] ++ List.replicate 7 false
    if c.g.phase = 1 then
      if c.fits n e then ({ c with bs := c.bs ++ e, g := { c.g with phase := 2 } }, false) else (c, true)
    else (c, false)
  | .full c => (c, true)
  | .dry c => (c, false)

/-- Bits padded with 0 to whole bytes. -/
def padBits (b : List Bool) : List Bool := b ++ List.replicate ((8 - b.length % 8) % 8) false

/-- A CMPR call on a slot bound to compression: the slot after it, the bytes written, the bytes consumed, whether it ends
with OUTPUT_FULL. -/
def GSlot.cmpr (g : GSlot) (src : List Byte) (n : Nat) (final : Bool) (huff : Nat → Option Huff) :
    GSlot × List Byte × Nat × Bool :=
  let head := g.q.take n
  if g.phase ≠ 1 then
    ({ g with q := g.q.drop n, phase := if g.q.length ≤ n then 3 else g.phase }, head, 0, decide (n < g.q.length))
  else if n < g.q.length then ({ g with q := g.q.drop n }, head, 0, true)
  else
    let room := n - head.length
    let c : Cm := ⟨{ g with q := [] }, src, lsbBits g.accn g.acc⟩
    let x := cmLoop (4 * src.length + 8) c room final huff
    let y := if x.2 || !final || !x.1.src.isEmpty then x else x.1.finish room
    let used := src.length - y.1.src.length
    let overs := y.1.g.phase = 2
    let bs := if overs then padBits y.1.bs else y.1.bs
    let whole := min room (bs.length / 8)
    let pay := bytesOf whole bs
    let left := bs.drop (8 * whole)
    let g := { y.1.g with outn := y.1.g.outn + (if overs then bs.length / 8 else whole) }
    if overs then
      let tail := bytesOf (left.length / 8) left ++ g.frameTail
      let now := tail.take (room - whole)
      let rest := tail.drop (room - whole)
      ({ g with q := rest, accn := 0, acc := 0, phase := if rest.isEmpty then 3 else 2 }, head ++ pay ++ now, used, !rest.isEmpty)
    else ({ g with accn := left.length, acc := bitsNat left }, head ++ pay, used, y.2)

/-- The payload of a whole chunk with its code lengths and modes, without a trailer. -/
def deflate (mode tslot : Nat) (huff : Nat → Option Huff) (b : List Byte) : List Byte :=
  ((upto (ceilDiv b.length 65536)).foldl (fun (acc : GSlot × List Byte) k =>
    let src := (b.drop (65536 * k)).take 65536
    let x := acc.1.cmpr src (8 * 65536) (decide (b.length ≤ 65536 * (k + 1))) huff
    (x.1, acc.2 ++ x.2.1)) (GSlot.start 0 mode tslot 1, [])).2

/-! ## One call of a decompression unit (R200, R203) -/

/-- The symbol at the front of bits: its number and the bits left; `more` where they end first, `bad` where no code
matches. -/
inductive Got1 (α : Type) where
  | ok (a : α) (rest : List Bool)
  | more
  | bad

/-- Decoding by codes: at most `k` further bits, `n` taken so far spelling `c`. -/
def takeSym (codes : List (Nat × Nat × Nat)) : Nat → Nat → Nat → List Bool → Got1 Nat
  | 0, _, _, _ => .bad
  | _ + 1, _, _, [] => .more
  | k + 1, n, c, b :: r =>
    let c := 2 * c + bnat b
    match codes.find? (fun x => x.2.1 = n + 1 && x.2.2 = c) with
    | some x => .ok x.1 r
    | none => takeSym codes k (n + 1) c r

/-- A field of `n` bits. -/
def takeBits (n : Nat) (l : List Bool) : Got1 Nat := if l.length < n then .more else .ok (bitsNat (l.take n)) (l.drop n)

/-- Results chained. -/
def Got1.bind {α β : Type} (x : Got1 α) (f : α → List Bool → Got1 β) : Got1 β :=
  match x with
  | .ok a r => f a r
  | .more => .more
  | .bad => .bad

/-- `n` fields of `w` bits. -/
def takeMany : Nat → Nat → List Bool → Got1 (List Nat)
  | 0, _, l => .ok [] l
  | n + 1, w, l => (takeBits w l).bind (fun a r => (takeMany n w r).bind (fun as r => .ok (a :: as) r))

/-- `n` code lengths under a code-length code; `acc` holds them newest first. -/
def takeLens (codes : List (Nat × Nat × Nat)) : Nat → Nat → List Nat → List Bool → Got1 (List Nat)
  | 0, _, _, _ => .bad
  | fuel + 1, n, acc, l =>
    if n = acc.length then .ok acc.reverse l
    else if n < acc.length then .bad
    else
      (takeSym codes 7 0 0 l).bind (fun s r =>
        if s < 16 then takeLens codes fuel n (s :: acc) r
        else if s = 16 then
          match acc with
          | [] => .bad
          | a :: _ => (takeBits 2 r).bind (fun k r => takeLens codes fuel n (List.replicate (k + 3) a ++ acc) r)
        else if s = 17 then (takeBits 3 r).bind (fun k r => takeLens codes fuel n (List.replicate (k + 3) 0 ++ acc) r)
        else (takeBits 7 r).bind (fun k r => takeLens codes fuel n (List.replicate (k + 11) 0 ++ acc) r))

/-- A block header: BFINAL, code lengths; a stored block has none and gives its length (R189, Table 7-4). `at8` is how
many bits of the stream precede the header, modulo 8. -/
def takeHeader (at8 : Nat) (l : List Bool) : Got1 (Bool × List Nat × List Nat × Nat) :=
  (takeBits 1 l).bind (fun f r => (takeBits 2 r).bind (fun t r =>
    let f := decide (f = 1)
    if t = 0 then
      (takeBits ((16 - at8 - 3) % 8) r).bind (fun _ r => (takeBits 16 r).bind (fun n r => (takeBits 16 r).bind (fun m r =>
        if n + m = 65535 then .ok (f, [], [], n) r else .bad)))
    else if t = 1 then .ok (f, fixedLL, fixedDL ++ [5, 5], 0) r
    else if t = 2 then
      (takeBits 5 r).bind (fun hl r => (takeBits 5 r).bind (fun hd r => (takeBits 4 r).bind (fun hc r =>
        (takeMany (hc + 4) 3 r).bind (fun cs r =>
          let cl := (upto 19).map (fun s => match (clOrder.take (hc + 4)).zip cs |>.find? (fun x => x.1 = s) with
            | some x => x.2 | none => 0)
          if 32768 < kraft cl then .bad
          else
            (takeLens (canonical cl) 330 (hl + 257 + hd + 1) [] r).bind (fun ls r =>
              let ll := ls.take (hl + 257)
              let dl := ls.drop (hl + 257)
              if 32768 < kraft ll || 32768 < kraft dl then .bad else .ok (f, ll, dl, 0) r)))))
    else .bad))

/-- A symbol of a block: a literal, an end of block (length 0), or a match. -/
def takeItem (ll dl : List Nat) (l : List Bool) : Got1 (Option Sym) :=
  (takeSym (canonical ll) 15 0 0 l).bind (fun s r =>
    if s < 256 then .ok (some (.lit (BitVec.ofNat 8 s))) r
    else if s = 256 then .ok none r
    else if 285 < s then .bad
    else
      match lenSyms.find? (fun x => x.1 = s) with
      | none => .bad
      | some x => (takeBits x.2.2 r).bind (fun e r => (takeSym (canonical dl) 15 0 0 r).bind (fun d r =>
          match distSyms.find? (fun x => x.1 = d) with
          | none => .bad
          | some y => (takeBits y.2.2 r).bind (fun e' r => .ok (some (.mat (x.2.1 + e) (y.2.1 + e'))) r))))

/-- A byte string without `n` bytes of a zero-terminated field, none where it has no end. -/
def skipZ (l : List Byte) : Option (List Byte) :=
  let n := (l.takeWhile (fun b => b ≠ 0)).length
  if n < l.length then some (l.drop (n + 1)) else none

/-- The header of a framing on input (R205): the bytes after it; `more` where it has not all come. -/
def frameIn (f : Nat) (l : List Byte) : Got1 Nat :=
  if f = 2 then
    if l.length < 2 then .more
    else
      let a := (nth 0 l 0).toNat
      let b := (nth 0 l 1).toNat
      if a % 16 = 8 && decide (a / 16 ≤ 7) && (a * 256 + b) % 31 = 0 && !bit b 5 then .ok 2 [] else .bad
  else
    if l.length < 10 then .more
    else
      let flg := (nth 0 l 3).toNat
      if !(nth 0 l 0 = 0x1F && nth 0 l 1 = 0x8B && nth 0 l 2 = 8) || decide (32 ≤ flg) then .bad
      else
        let r := l.drop 10
        let r1 := if bit flg 2 then (if r.length < 2 then none
          else let n := leNat (r.take 2); if r.length < 2 + n then none else some (r.drop (2 + n))) else some r
        let r2 := r1.bind (fun r => if bit flg 3 then skipZ r else some r)
        let r3 := r2.bind (fun r => if bit flg 4 then skipZ r else some r)
        match r3 with
        | none => .more
        | some r =>
          let n := l.length - r.length
          if bit flg 1 then
            if r.length < 2 then .more
            else if leNat (r.take 2) = crc32 (l.take n) % 65536 then .ok (n + 2) [] else .bad
          else .ok n []

/-- Bytes of the trailer of a framing, and whether they agree with the running checks. -/
def tailLen (f : Nat) : Nat := if f = 1 then 0 else if f = 3 then 8 else 4
def GSlot.tailOk (g : GSlot) (b : List Byte) : Bool := g.frameTail = b

/-- A call in progress: the slot, the bits not yet decoded, how many came before them, the output newest first. -/
structure Dm where
  g   : GSlot
  bs  : List Bool
  out : List Byte

/-- What a step of a decompression leads to. -/
inductive DmNext where
  | go (d : Dm)
  | full
  | dry
  | bad
  | overs (d : Dm)

/-- One step with `n` bytes of destination in all. -/
def Dm.step (d : Dm) (n total : Nat) : DmNext :=
  let g := d.g
  let at8 := (g.inbit + (total - d.bs.length)) % 8
  match g.phase with
  | 0 =>
    (match frameIn g.frame (bytesOf (d.bs.length / 8) d.bs) with
     | .ok k _ => .go { d with g := { g with phase := 1 }, bs := d.bs.drop (8 * k) }
     | .more => .dry
     | .bad => .bad)
  | 1 =>
    if 0 < g.plen || (g.hdr && g.ll.isEmpty && decide (0 < g.pdist)) then
      if n ≤ d.out.length then .full
      else if 0 < g.plen then
        let b := nth 0 g.hist (g.pdist - 1)
        .go { d with
          g := { (g.took [b]) with plen := g.plen - 1, pdist := if g.plen = 1 then 0 else g.pdist }, out := b :: d.out }
      else
        (match takeBits 8 d.bs with
         | .ok x r => .go { d with
             g := { (g.took [BitVec.ofNat 8 x]) with pdist := g.pdist - 1 }, bs := r, out := BitVec.ofNat 8 x :: d.out }
         | _ => .dry)
    else if !g.hdr then
      (match takeHeader at8 d.bs with
       | .ok x r => .go { d with
           g := { g with hdr := true, fin := x.1, ll := x.2.1, dl := x.2.2.1, pdist := x.2.2.2 }, bs := r }
       | .more => .dry
       | .bad => .bad)
    else if g.ll.isEmpty then .go { d with g := { g with hdr := false, phase := if g.fin then 2 else 1 } }
    else
      (match takeItem g.ll g.dl d.bs with
       | .ok none r => .go { d with g := { g with hdr := false, phase := if g.fin then 2 else 1 }, bs := r }
       | .ok (some (.lit b)) r => if n ≤ d.out.length then .full else .go { d with g := g.took [b], bs := r, out := b :: d.out }
       | .ok (some (.mat l k)) r =>
         if 32768 < k || g.nextin < k then .bad else .go { d with g := { g with plen := l, pdist := k }, bs := r }
       | .more => .dry
       | .bad => .bad)
  | 2 =>
    let skip := (8 - at8) % 8
    let r := d.bs.drop skip
    if d.bs.length < skip + 8 * tailLen g.frame then .dry
    else if g.tailOk (bytesOf (tailLen g.frame) r) then
      .overs { d with g := { g with phase := 3 }, bs := r.drop (8 * tailLen g.frame) }
    else .bad
  | _ => .overs d

/-- How a call ends. -/
inductive DmEnd where
  | ok | full | bad
deriving DecidableEq, Repr

/-- Steps until the call ends. -/
def dmLoop : Nat → Dm → Nat → Nat → Dm × DmEnd
  | 0, d, _, _ => (d, .ok)
  | fuel + 1, d, n, total =>
    match d.step n total with
    | .go d => dmLoop fuel d n total
    | .full => (d, .full)
    | .dry => (d, .ok)
    | .bad => (d, .bad)
    | .overs d => (d, .ok)

/-- A DCMP call (or one span of it) on a slot bound to decompression: the slot after it, the bytes written, the bytes
consumed, how it ends. Bits of a symbol that has not all come are not consumed; the held bits of a byte that is, stand in
ACC. -/
def GSlot.dcmp (g : GSlot) (src : List Byte) (n : Nat) : GSlot × List Byte × Nat × DmEnd :=
  let bs := lsbBits g.accn g.acc ++ bitsOf src
  let x := dmLoop (2 * bs.length + 600 + n) ⟨g, bs, []⟩ n bs.length
  let used := bs.length - x.1.bs.length
  let bytes := ceilDiv (used - g.accn) 8
  let held := if used < g.accn then g.accn - used else 8 * bytes - (used - g.accn)
  ({ x.1.g with
      inbit := g.inbit + used, outn := g.outn + bytes, accn := held, acc := bitsNat (x.1.bs.take held) },
   x.1.out.reverse, bytes, x.2)

/-- A whole payload decoded: its bytes; none where Table 7-4 is broken or it does not end. -/
def inflate (b : List Byte) (n : Nat) : Option (List Byte) :=
  let x := (GSlot.start 1 0 0 1).dcmp b (n + 1)
  if x.2.2.2 = .ok && x.1.phase = 3 && x.2.1.length = n then some x.2.1 else none

end Sys2Proof.Machine
end

