-- ==== Sys2Proof/Machine/Container.lean ====
section
/-! DEFINITION. The container of a stored chunk: how it is written (R192, R195) and what R196 checks in it. -/

namespace Sys2Proof.Machine

/-- A container header (Table 7-6). -/
def containerHead (meth tmode tslot : Nat) (pois : Bool) (slen llen : Nat) (fp : List Byte) : List Byte :=
  let x0 := fun (chk : Nat) => leBytes 8 ((0x7C5A <<< 48) + (1 <<< 44) + (meth <<< 42) + (tmode <<< 40) + (tslot <<< 36) +
    (bnat pois <<< 32) + chk)
  let rest := leBytes 8 ((slen <<< 32) + llen) ++ fp
  x0 (crc32c (x0 0 ++ rest)) ++ rest

/-- The container of a chunk: DEFLATE where that is short enough (R192), else RAW. -/
def container (mode tslot : Nat) (huff : Nat → Option Huff) (b fp : List Byte) (pois : Bool) : List Byte :=
  let pay := if mode = 0 || pois then b else deflate mode tslot huff b
  let raw := decide (mode = 0) || pois || decide (b.length - b.length / 16 < pay.length)
  let pay := if raw then b else pay
  let head := if raw then containerHead 0 0 0 pois pay.length b.length fp
    else containerHead 1 mode (if mode = 2 then tslot else 0) false pay.length b.length fp
  let l := head ++ pay ++ leBytes 4 (crc32c b)
  l ++ List.replicate ((16 - l.length % 16) % 16) 0

/-- A container with what a compression unit has written of a chunk, payload and check value (R195, R205); RAW where R192 says so. -/
def packContainer (mode tslot : Nat) (b fp out : List Byte) : List Byte :=
  let n := out.length - 4
  if b.length - b.length / 16 < n then container 0 0 (fun _ => none) b fp false
  else
    let l := containerHead 1 mode (if mode = 2 then tslot else 0) false n b.length fp ++ out
    l ++ List.replicate ((16 - l.length % 16) % 16) 0

/-- A container holds its chunk RAW. -/
def isRaw (c : List Byte) : Bool := bits (nth 0 c 5).toNat 3 2 = 0

/-- The bytes of a chunk from its container, none where R196 finds a fault. -/
def openContainer (c : List Byte) : Option (List Byte) :=
  let x0 := leNat (c.take 8)
  let slen := leNat ((c.drop 12).take 4)
  let llen := leNat ((c.drop 8).take 4)
  let head := c.take 48
  let pay := (c.drop 48).take slen
  let meth := bits x0 43 42
  let tm := bits x0 41 40
  if crc32c (leBytes 4 0 ++ head.drop 4) ≠ bits x0 31 0 ∨ bits x0 63 48 ≠ 0x7C5A ∨ bits x0 47 44 ≠ 1 then none
  else if 1 < meth ∨ (meth = 0 ∧ tm ≠ 0) ∨ (meth = 1 ∧ tm = 0) ∨ bits x0 35 33 ≠ 0 ∨ llen = 0 ∨ 262144 < llen then none
  else if slen = 0 ∨ (meth = 0 ∧ slen ≠ llen) ∨ pay.length ≠ slen then none
  else
    match (if meth = 0 then some pay else inflate pay llen) with
    | none => none
    | some b => if crc32c b = leNat ((c.drop (48 + slen)).take 4) then some b else none

end Sys2Proof.Machine
end

