-- ==== Sys2Proof/Machine/Nand.lean ====
section
/-! DEFINITION. NAND channels (R207, R208, R213-R219, R222, R243, R259): tandem groups, operations that start where their die and its
port let them, page reads, the codewords that readers wait for and what becomes of them, chunks read back from their containers (R196,
R197). -/

namespace Sys2Proof.Machine

/-! ## Groups (R17, R216-R219) -/

/-- A group that nobody drives. -/
def Group.blank : Group := { own := false, wp := true, idle := false, resync := [], queue := [], bursts := [], pauses := [], lastOp := 0 }

/-- A tandem group of this head. -/
def Head.group (h : Head) (g : Nat) : Group := look Group.blank h.fl.groups g

/-- The head with a group replaced. -/
def Head.setGroup (h : Head) (g : Nat) (x : Group) : Head := h.setFl { h.fl with groups := place Group.blank h.fl.groups g x }

/-- The groups of a side (R17). -/
def sideGroups (side : Nat) : List Nat := (upto 16).map (fun k => 16 * side + k)

/-- The dies of a group that are in service. -/
def Head.groupDies (h : Head) (g : Nat) : List Nat :=
  (h.sideDies (g / 16)).filterMap (fun d => if dieGroup d.num = g then some d.num else none)

/-- An operation shown at the port of each of some dies. -/
def Head.emitAll (h : Head) (ds : List Nat) (op : NandOp) : Head := ds.foldl (fun h d => h.emit (.nand d op)) h

/-- The family record of a die. -/
def Head.family (h : Head) (d : Nat) : Option Family := (h.die d).bind (fun x => h.fl.fams[x.fam]?)

/-- A die's family can suspend an erase, or a program (R211: ESUSP, PSUSP). -/
def Head.canSuspend (h : Head) (d : Nat) : Bool := match h.family d with | some f => f.flags.getLsbD 1 | none => false
def Head.canPause (h : Head) (d : Nat) : Bool := match h.family d with | some f => f.flags.getLsbD 2 | none => false

/-- WP_L of the groups this head owns (R216): low from the end of its spill, and on a group whose dies are all idle while VCCQ_NF is out
of its range; never while a program or erase of the group is in progress. -/
def Head.protect (h : Head) : Head :=
  let spilled := match h.pair.sphase with | .done => true | _ => false
  h.fl.groups.foldl (fun h e =>
    let x := h.group e.1
    let busy := h.fl.ops.any (fun o => dieGroup o.die = e.1 && (match o with | .read _ _ _ _ _ _ => false | _ => true))
    let idle := !(h.fl.ops.any (fun o => dieGroup o.die = e.1))
    let wp := !((spilled && !busy) || (h.fl.vccqOff && idle))
    if !x.own || x.wp = wp then h else h.setGroup e.1 { x with wp := wp }) h

/-- A group wakes because work arrived for it: ZQ short calibration and a training check (R243). -/
def Head.wakeGroup (h : Head) (g : Nat) : Head :=
  let x := h.group g
  if x.idle then ((h.setGroup g { x with idle := false }).emitAll (h.groupDies g) .zqShort).emitAll (h.groupDies g) .train else h

/-! ## Operations on dies -/

/-- The pool key that the ports hold for a pool's bands (R224). -/
def Head.portKey (h : Head) (pool : Nat) : Option (List Byte) := (h.pool pool).bind (fun p => if p.enc then p.plain else none)

/-- The LDPC selection record of a die (R221): the first whose range holds its spare bytes per codeword. -/
def ldpcSel (l : List LdpcSel) (spare : Nat) : Option LdpcSel :=
  l.find? (fun s => decide (s.spmin ≤ spare / 4) && decide (spare / 4 ≤ s.spmax))

/-- The LDPC code of a die. -/
def Head.dieCode (h : Head) (d : Nat) : Nat :=
  match (h.die d).bind (fun x => ldpcSel h.fl.ldpc x.spare) with
  | some s => s.code
  | none => 0

/-- What an operation shows at the die's port. -/
def Head.shown (h : Head) (o : NOp) : NandOp :=
  match o with
  | .program d n row =>
    (match h.band n with
     | some b =>
       let pos := b.members.findIdx (fun m => m.1 = d)
       .program (b.member pos).2 row (match b.filling with | some f => b.fillUnit f (h.portKey b.pool) (h.dieCode d) pos | none => [])
     | none => .program 0 row [])
  | .erase _ b _ => .erase b
  | .spill _ pos => .spill pos
  | .read _ b r _ _ _ => .read b r
  | .late _ => .status

/-- Tokens of 16 bytes that an operation takes of its channel (R22): its unit on a read or a program. -/
def Head.opTokens (h : Head) (o : NOp) : Nat :=
  match o, h.die o.die with
  | .erase _ _ _, _ => 0
  | _, some d => d.unit / 16
  | _, none => 0

/-- A port takes commands (R210, R219, R469): its island runs, its group is this head's and is not being resynchronised. -/
def Head.portReady (h : Head) (d : Nat) : Bool :=
  h.runs (17 + d / 512) && (h.group (dieGroup d)).own && (h.group (dieGroup d)).resync.isEmpty

/-- An operation in progress makes way for a read: the die's family can suspend it (R211, R222). -/
def Head.givesWay (h : Head) (o : NOp) : Bool :=
  match o with
  | .erase d _ _ => h.canSuspend d
  | .program d _ _ => h.canPause d
  | .spill d _ => h.canPause d
  | _ => false

/-- An operation may start on its die: the port is ready and the die is free, or what it does makes way for a read, or is an erase that is
suspended for the spill (R293 event 3). -/
def Head.mayStart (h : Head) (o : NOp) : Bool :=
  h.portReady o.die && (h.fl.ops.filter (fun x => x.die = o.die)).all (fun x =>
    match o, x with
    | .read _ _ _ _ _ _, x => h.givesWay x
    | .spill _ _, .erase d _ _ => h.canSuspend d
    | _, _ => false)

/-- What a die does makes way, or goes on (R211: SUSP, RESUME). -/
def Head.suspend (h : Head) (d : Nat) (on : Bool) : Head :=
  match h.die d, h.family d with
  | some x, some f =>
    if x.susp = on then h
    else (h.updDie d (fun x => { x with susp := on })).emit (.nand d (if on then .suspend f.susp else .resume f.resume))
  | _, _ => h

/-- The GC slot that an operation serves: the copy's reads, the destination's programs, the erases. -/
def Head.slotOf (h : Head) (o : NOp) : Option GcSlot :=
  match o with
  | .read _ _ _ n st pos =>
    let mine := h.fl.wants.filter (fun w => w.band = n && w.stripe = st && w.wait.contains pos)
    if mine.all (fun w => match w.who with | .copy _ _ => true | _ => false) then h.fl.gc.find? (fun g => g.victim = n) else none
  | .program _ n _ => h.fl.gc.find? (fun g => g.dest = some n)
  | .erase _ _ (some k) => h.fl.gc.find? (fun g => g.side = k.1 && g.idx = k.2)
  | _ => none

/-- An operation starts: its group wakes, its port is in a data burst from now on (R215), its tokens are drawn, first on those of contracts where
its data is theirs (R88). -/
def Head.startNow (h : Head) (o : NOp) (con : Bool) : Head :=
  let h := h.wakeGroup (dieGroup o.die)
  let h := if h.fl.ops.any (fun x => x.die = o.die) then h.suspend o.die true else h
  let x := h.group (dieGroup o.die)
  let burst : Bool := match o with | .erase _ _ _ => false | _ => true
  let h := h.setGroup (dieGroup o.die) { x with
    lastOp := h.now
    bursts := if burst && !(x.bursts.any (fun b => b.1 = diePort o.die)) then x.bursts ++ [(diePort o.die, h.now)] else x.bursts }
  let op := h.shown o
  let rb := if (h.slotOf o).any (fun g => g.why = 3) then h.opTokens o else 0
  let g := h.setFl { h.fl with ops := h.fl.ops ++ [o], rbSpent := h.fl.rbSpent + rb }
  ((if con then g.drawHeld 2 (h.opTokens o) else g.draw 2 (h.opTokens o) none).emit (.nand o.die op)).protect

/-- The order in which operations that wait are taken (R88, R261): contracted ones, then rebuild up to its share of the capacity left to
best-effort work, then the rest, refresh, wear levelling and ordinary victims last. -/
def Head.opRank (h : Head) (w : NOp × Bool) : Nat :=
  if w.2 then 0
  else match h.slotOf w.1 with
    | none => 2
    | some g => if g.why ≠ 3 then 3
      else if h.fl.rbSpent * 100 < h.cfg .STCFG 0 23 16 * (h.capacity 2 - h.kept 2) then 1 else 2

/-- Best-effort NAND work finds capacity in this epoch (R88), half of its share from THROT on (R475, R509); the spill is bound by none. -/
def Head.nandSpare (h : Head) (o : NOp) (con : Bool) : Bool :=
  con || (h.spare 2 && (!h.sys.power.thr || h.halfSpare 2)) || (match o with | .spill _ _ => true | _ => false)

/-- From PFAIL_L on the spill alone starts operations (R293). -/
def Head.nandOpen (h : Head) (o : NOp) : Bool :=
  (match h.pair.sphase with | .none => true | _ => false) || (match o with | .spill _ _ => true | _ => false)

/-- Operations that wait start in the order of their ranks, where their die, its port and the capacity of the epoch let them. No operation passes
another of the same die that could start itself. -/
def Head.pump (h : Head) : Head :=
  let x := (sortBy h.opRank h.fl.waits).foldl (fun (acc : Head × List (NOp × Bool)) w =>
    if acc.1.nandOpen w.1 && !(acc.2.any (fun y => y.1.die = w.1.die && h.nandOpen y.1)) && acc.1.mayStart w.1 && acc.1.nandSpare w.1 w.2 then (acc.1.startNow w.1 w.2, acc.2)
    else (acc.1, acc.2 ++ [w])) (h, [])
  (x.1.setFl { x.1.fl with waits := x.2 })

/-! ## Windows on a rail (R213-R215) -/

/-- A window may begin now (R215): no burst was paused within the last 10 µs, and one of more than 2 slots waits for the bursts of ports
that do not take part, unless such a burst has run for 10 µs. -/
def Head.windowMay (h : Head) (g : Nat) (w : List Bool × BitVec 4) : Bool :=
  let x := h.group g
  x.resync.isEmpty && x.bursts.all (fun b =>
    !(x.pauses.any (fun p => p.1 = b.1 && decide (h.now < p.2 + 10000))) &&
      (decide (w.1.length ≤ 2) || w.2.getLsbD (b.1 % 4) || decide (b.2 + 10000 ≤ h.now)))

/-- A window on a group's rail: the bursts of the group pause for it. -/
def Head.railWindow (h : Head) (g : Nat) : Head :=
  let x := h.group g
  ((h.setGroup g { x with
    lastOp := h.now
    pauses := x.pauses.filter (fun p => !(x.bursts.any (fun b => b.1 = p.1))) ++ x.bursts.map (fun b => (b.1, h.now)) }).count
      .NFCNT 11 1).count .NFCNT 12 x.bursts.length

/-- Windows that wait on a group are served, the oldest first (R215). -/
def Head.serveWindows (h : Head) (g : Nat) : List (List Bool × BitVec 4) → Head
  | [] => h.setGroup g { h.group g with queue := [] }
  | w :: r => if h.windowMay g w then (h.railWindow g).serveWindows g r else h.setGroup g { h.group g with queue := w :: r }

/-- The windows of every group go on. -/
def Head.windows (h : Head) : Head :=
  (h.fl.groups.filter (fun e => !e.2.queue.isEmpty)).foldl (fun h e => h.serveWindows e.1 (h.group e.1).queue) h

/-- An operation is asked for: it starts at once where it may, else it waits (R88, R210). -/
def Head.nand (h : Head) (o : NOp) (con : Bool) : Head := (h.setFl { h.fl with waits := h.fl.waits ++ [(o, con)] }).pump

/-- An operation of a die has ended: its port is in no burst any more, what was suspended goes on, what waits may start. -/
def Head.nandEnd (h : Head) (o : NOp) : Head :=
  let h := h.setFl { h.fl with ops := h.fl.ops.erase o }
  let g := dieGroup o.die
  let x := h.group g
  let h := h.setGroup g { x with
    bursts := if h.fl.ops.any (fun y => diePort y.die = diePort o.die && (match y with | .erase _ _ _ => false | _ => true)) then x.bursts
      else x.bursts.filter (fun b => b.1 ≠ diePort o.die)
    lastOp := h.now }
  let h := if h.fl.ops.any (fun y => y.die = o.die && (match y with | .read _ _ _ _ _ _ => true | _ => false)) then h
    else h.suspend o.die false
  h.protect.windows.pump

/-! ## Page reads and what readers wait for (R222, R259) -/

/-- The read of the current unit of a position of a stripe. -/
def Band.readOp (b : Band) (stripe pos : Nat) : Option NOp :=
  (b.rowOf stripe pos).map (fun row => .read (b.member pos).1 (b.member pos).2 row b.num stripe pos)

/-- The read of a position is in progress, or waits. -/
def Head.reading (h : Head) (band stripe pos : Nat) : Bool :=
  (h.fl.ops ++ h.fl.waits.map (fun w => w.1)).any (fun o => match o with
    | .read _ _ _ n s m => n = band && s = stripe && m = pos
    | _ => false)

/-- A position of a stripe is not to be had for a reader: its die is not in service, its member is lost, its die erases and cannot
suspend that, or its read has timed out (R222, R259). -/
def Head.away (h : Head) (b : Band) (stripe pos : Nat) : Bool :=
  let d := (b.member pos).1
  b.lost.contains pos || (match h.die d with | some x => x.state ≠ .inService | none => true) ||
    h.fl.late.contains (b.num, stripe, pos) ||
    h.fl.ops.any (fun o => match o with | .erase e _ _ => e = d && !(h.canSuspend e) | _ => false)

/-- Reads of some positions of a stripe are issued where they are not under way; a position never written needs none. -/
def Head.issueReads (h : Head) (b : Band) (stripe : Nat) (ps : List Nat) (con : Bool) : Head :=
  ps.foldl (fun h m => match b.readOp stripe m with
    | some o => if h.reading b.num stripe m then h else h.nand o con
    | none => h) h

/-- The event of a read that parity cannot make up: the codeword's place in its stripe (R259). -/
def cwFaddr (b : Band) (stripe pos cw : Nat) : Nat := (b.num <<< 44) + (stripe <<< 28) + (((pos * b.unit + cw * 4096) / 16) <<< 4)

/-- A codeword is sought without a position that is not to be had: from itself, else from the first W positions, in order, that are to
be had (R259); the answer names those whose read is awaited. With more than P erasures it is lost. A codeword on dies that the other head
serves is had from there at once (R227; DESIGN CHOICE, log entry 73). -/
def Head.seek (h : Head) (b : Band) (w : Want) : Want :=
  if !(h.serves b.side) then { w with wait := [] } else
  let out := w.out ++ ((upto (b.w + b.p)).filter (fun m => !(w.out.contains m) && h.away b w.stripe m))
  if !(out.contains w.pos) then { w with wait := if (b.rowOf w.stripe w.pos).isSome then [w.pos] else [] }
  else
    let from_ := ((upto (b.w + b.p)).filter (fun m => !(out.contains m))).take b.w
    if from_.length < b.w then { w with out := out, wait := [], lost := true }
    else { w with out := out, wait := from_.filter (fun m => (b.rowOf w.stripe m).isSome) }

/-- A band is resynchronised (R258): its stripes are counted. Its stripe table and its parity are those of its fills here, so that nothing
disagrees (DESIGN CHOICE, log entry 35). -/
def Head.resyncBand (h : Head) (n : Nat) : Head :=
  match h.band n with
  | none => h
  | some b =>
    if !(h.fl.unsync.contains n) then h
    else (h.setFl { h.fl with unsync := h.fl.unsync.erase n }).count .STCNT 7 b.stripes.length

/-- A want is settled as far as it can be: what it still needs is read; a codeword beyond parity writes its event, one that was made up
is counted when it has come. A band that is to be resynchronised is so before a codeword of it is made up (R258). -/
def Head.serve (h : Head) (b : Band) (w : Want) (con : Bool) : Head × Want :=
  let h := if w.out.contains w.pos then h.resyncBand b.num else h
  if w.lost then (h.event 0x0607 2 255 5 b.pool (cwFaddr b w.stripe w.pos w.cw) 0 0, w)
  else if w.wait.isEmpty then ((if w.out.contains w.pos then h.count .STCNT 3 1 else h), w)
  else (h.issueReads b w.stripe w.wait con, w)

/-- A reader asks for codewords of a band, as (stripe, position, codeword). -/
def Head.ask (h : Head) (who : Reader) (band : Nat) (l : List (Nat × Nat × Nat)) (con : Bool) : Head :=
  match h.band band with
  | none => h
  | some b => l.foldl (fun h k =>
      if h.fl.wants.any (fun w => w.who = who && w.band = band && w.stripe = k.1 && w.pos = k.2.1 && w.cw = k.2.2) then h
      else
        let x := h.serve b (h.seek b ⟨who, band, k.1, k.2.1, k.2.2, [], [], false⟩) con
        x.1.setFl { x.1.fl with wants := x.1.fl.wants ++ [x.2] }) h

/-- Everything a reader asked for has come, or is beyond parity. -/
def Head.gotAll (h : Head) (who : Reader) : Bool := (h.fl.wants.filter (fun w => w.who = who)).all (fun w => w.wait.isEmpty)

/-- The codewords of a reader that are beyond parity, or came as poison markers (R248, R263). -/
def Head.poisonFor (h : Head) (who : Reader) : List (Nat × Nat × Nat × Nat) :=
  (h.fl.wants.filter (fun w => w.who = who && (w.lost ||
    (match (h.band w.band).bind (fun b => b.readCw w.stripe w.pos w.cw w.out) with
     | some x => x.2
     | none => true)))).map (fun w => (w.band, w.stripe, w.pos, w.cw))

/-- A reader is done with what it asked for. -/
def Head.unask (h : Head) (who : Reader) : Head := h.setFl { h.fl with wants := h.fl.wants.filter (fun w => w.who ≠ who) }

/-- The wants of a stripe change as `f` says of each that waits for a position; the others stay. -/
def Head.onWants (h : Head) (band stripe pos : Nat) (f : Head → Band → Want → Head × Want) : Head :=
  match h.band band with
  | none => h
  | some b =>
    let x := h.fl.wants.foldl (fun (acc : Head × List Want) w =>
      if w.band = band && w.stripe = stripe && w.wait.contains pos then
        let y := f acc.1 b w
        (y.1, acc.2 ++ [y.2])
      else (acc.1, acc.2 ++ [w])) (h, [])
    x.1.setFl { x.1.fl with wants := x.2 }

/-- A codeword of a position has come for the wants that wait for it. -/
def Head.cwCame (h : Head) (band stripe pos cw : Nat) : Head :=
  h.onWants band stripe pos (fun h b w => if w.cw = cw then h.serve b { w with wait := w.wait.erase pos } false else (h, w))

/-- A codeword of a position will not come: its wants go on without it. -/
def Head.cwGone (h : Head) (band stripe pos cw : Nat) : Head :=
  h.onWants band stripe pos (fun h b w =>
    if w.cw = cw then h.serve b (h.seek b { w with out := w.out ++ [pos], wait := [] }) false else (h, w))

/-- A position of every stripe of a band will not come: its die has failed. -/
def Head.memberGone (h : Head) (band stripe pos : Nat) : Head :=
  h.onWants band stripe pos (fun h b w => h.serve b (h.seek b { w with out := w.out ++ [pos], wait := [] }) false)

/-! ## Chunks read back (R196, R197, R231) -/

/-- The band that holds a chunk's container. -/
def Head.bandOf (h : Head) (c : ChunkEnt) : Option Band := h.band (c.faddr / 2 ^ 44)

/-- The codewords that a chunk's container touches. -/
def Head.chunkCws (h : Head) (c : ChunkEnt) : Option (Band × List (Nat × Nat × Nat)) :=
  (h.bandOf c).map (fun b => (b, (b.pieces (.chunk c.chunk)).foldl (fun l x =>
    (b.cwsOf x.off x.bytes.length).foldl (fun l y => if l.contains (x.stripe, y.1, y.2) then l else l ++ [(x.stripe, y.1, y.2)]) l) []))

/-- What becomes of a chunk that is read: its bytes, poison, or a fault that nothing repairs. -/
inductive ChunkRead where
  | bytes (b : List Byte)
  | poison
  | bad
deriving DecidableEq, Repr

/-- The container of a chunk with the bytes of one data member rebuilt from the others (R197). -/
def Band.mended (b : Band) (c pos : Nat) : List Byte :=
  ((b.pieces (.chunk c)).map (fun x => ((b.cwsOf x.off x.bytes.length).filter (fun y => y.1 = pos)).foldl (fun l y =>
    match b.rebuiltCw x.stripe pos y.2 (pos :: b.lost) with
    | some u =>
      let lo := pos * b.unit + y.2 * 4096
      let a := max lo x.off
      overlay l (a - x.off) ((u.drop (a - lo)).take (min (lo + 4096) (x.off + x.bytes.length) - a))
    | none => l) x.bytes)).flatten

/-- The entries of a chunk removed from the index (R187). -/
def Head.dropEntries (h : Head) (cref : Nat) : Head :=
  { h with red := { h.red with
    hot := h.red.hot.filter (fun w => w.e.cref.toNat ≠ cref)
    cold := h.red.cold.map (fun p => { p with ents := p.ents.filter (fun x => x.2.cref.toNat ≠ cref) })
    evicted := h.red.evicted.filter (fun x => x.2.2.cref.toNat ≠ cref) } }

/-- A chunk read for a reader whose codewords have come (R196, R197): with poison that the stripe cannot rebuild its granules are
poisoned and nothing is checked; a container that fails is tried again once for each data member, that member's bytes rebuilt; the first
that passes is delivered and its member's page is written anew with its band. -/
def Head.openChunk (h : Head) (c : ChunkEnt) (gone : List (Nat × Nat × Nat × Nat)) : Head × ChunkRead :=
  match h.chunkCws c with
  | none => (h, .bad)
  | some (b, ks) =>
    if ks.any (fun k => gone.contains (b.num, k.1, k.2.1, k.2.2)) then (h, .poison)
    else
      match openContainer (pieceBytes (b.pieces (.chunk c.chunk))) with
      | some l => (h, .bytes l)
      | none =>
        let cref := mkCref c.pool c.side c.chunk
        let try_ := ((upto b.w).filter (fun m => ks.any (fun k => k.2.1 = m))).filterMap (fun m =>
          (openContainer (b.mended c.chunk m)).map (fun l => (m, l)))
        match try_.head? with
        | some x =>
          ((((h.count .DRCNT 8 1).event 0x0601 1 255 5 c.pool cref x.1 0).updBand b.num (fun b => { b with refresh := true })),
            .bytes x.2)
        | none => ((((h.count .DRCNT 9 1).event 0x0602 2 255 5 c.pool cref 0 0).dropEntries cref), .bad)

end Sys2Proof.Machine
end

