-- ==== Sys2Proof/Machine/Spill.lean ====
section
/-! DEFINITION. The spill (R290-R297): its start, the split of the live pages, its records and programs, its end. -/

namespace Sys2Proof.Machine

/-- The head with its pair state changed. -/
def Head.setPair (h : Head) (p : Pair) : Head := { h with pair := p }

/-- The spill of a side. -/
def Head.spillOf (h : Head) (s : Nat) : Spill := h.pair.spill.at s

/-- The head with a side's spill replaced. -/
def Head.setSpill (h : Head) (s : Nat) (x : Spill) : Head := h.setPair { h.pair with spill := h.pair.spill.put s x }

/-- The blocks of a side's spill sets replaced. -/
def Head.setSets (h : Head) (side : Nat) (x : SpillSets) : Head := h.setSpill side { h.spillOf side with blocks := x }

/-- A spill is under way or done: no entry is accepted, nothing is placed, no fence is asserted (R290, R293). -/
def Head.spilling (h : Head) : Bool := match h.pair.sphase with | .none => false | _ => true

/-- Erases in progress that can be suspended are (R293 event 3). -/
def Head.haltErases (h : Head) : Head :=
  h.fl.ops.foldl (fun h o => match o with
    | .erase d _ _ => if h.canSuspend d && (h.group (dieGroup d)).own then h.suspend d true else h
    | _ => h) h

/-- A spill starts (R293 events 1 to 3): where the pair is whole the exchange of R292 waits for the acknowledgement of
the last LPAGE frame; a head serving alone knows its live pages. -/
def Head.beginSpill (h : Head) : Head :=
  if h.spilling then h
  else
    let h := h.sendCtl .pfail
    let last := (h.pair.link.mir.unacked ++ h.pair.link.mir.waiting).foldl
      (fun m f => match f.2 with | .lpage _ _ _ _ => some f.1 | _ => m) (none : Option Nat)
    (h.setPair { h.pair with sphase := .exchange (if h.mirroring then last else none), spillAt := h.now }).haltErases

/-- The pages that the two sets of a side hold, the later set first. -/
def Spill.sets (s : Spill) : List (Nat × LPage) := s.holds ++ s.olds

/-- The live pages to be spilled, in ascending order of (o, p): those that no set not yet erased already holds (R292). -/
def Head.spillPages (h : Head) : List Nat :=
  let held := (h.pair.spill.s0.sets ++ h.pair.spill.s1.sets).map (fun x => x.2.o * 1048576 + x.2.p)
  sortNat ((h.pair.lehr.map (fun e => e.o * 1048576 + e.p)).filter (fun i => !(held.contains i)))

/-- The set that the next spill writes: 0 is A, 1 is B. -/
def Spill.nextSet (s : Spill) : Nat := bnat s.nextB

/-- The next set is built and erased (SPILLSTAT.READY). -/
def Spill.clean (s : Spill) : Bool :=
  let l := (s.blocks.bands.at s.nextSet).flatten
  !l.isEmpty && !(s.blocks.used.at s.nextSet) && l.all (fun m => !(s.blocks.left.contains m))

/-- The pages that a set holds: the last one written, or the one to be written next. -/
def Spill.setPages (s : Spill) (k : Nat) : List (Nat × LPage) := if k = s.nextSet then s.olds else s.holds

/-- The die that programs position n of the set last taken: the dies of its bands' data positions in turn, or, of a side without sets, its
dies in service (DESIGN CHOICE, log entry 22). -/
def Head.spillDie (h : Head) (side n : Nat) : Option Nat :=
  let s := h.spillOf side
  let ok := (h.sideDies side).map (fun d => d.num)
  let set := ((s.blocks.bands.at (1 - s.nextSet)).flatMap (fun b => (b.take 31).map (fun m => m.1))).filter (fun d => ok.contains d)
  let l := if set.isEmpty then ok else set
  if l.isEmpty then none else l[n % l.length]?

/-- One side's share begins: its record is WRITING in PSTORE, its programs are queued at the dies (R293 event 4). -/
def Head.spillShare (h : Head) (side n : Nat) (share : List Nat) : Head :=
  let s := h.spillOf side
  let h := h.setSpill side { s with
    ready := false, nextB := !s.nextB, rcd := 1, n := n, share := (upto share.length).zip share, pos := 0, failed := []
    pages := 0, olds := s.sets, holds := []
    blocks := if share.isEmpty then s.blocks else { s.blocks with used := s.blocks.used.put s.nextSet true } }
  let h := h.record' (.spill side 1 n)
  (upto share.length).foldl (fun h k => match h.spillDie side k with
    | some d => h.nand (.spill d k) true
    | none => h) h

/-- A side's share is on its set. -/
def Head.spillEnd (h : Head) (side : Nat) : Head :=
  let s := h.spillOf side
  if s.rcd = 1 && s.share.isEmpty then (h.setSpill side { s with rcd := 2, last := 1 }).record' (.spill side 2 s.n)
  else h

/-- The spill is done where every share of it is (R293 event 5). -/
def Head.spillDone (h : Head) : Head :=
  let h := (h.spillEnd 0).spillEnd 1
  match h.pair.sphase with
  | .writing =>
    if (h.spillOf 0).rcd = 1 || (h.spillOf 1).rcd = 1 then h else (h.setPair { h.pair with sphase := .done, spillAt := h.now }).protect
  | _ => h

/-- The split of R292: side 0 takes the first half of the pages, side 1 the rest; a head serving alone writes the first
half to its own side. -/
def Head.spillPart (h : Head) (side : Nat) : List Nat :=
  let l := h.spillPages
  let half := ceilDiv l.length 2
  if side = (if h.pair.solo then h.side else 0) then l.take half else l.drop half

/-- Programming starts: each head writes its own side's part, a head serving alone both. -/
def Head.spillGo (h : Head) : Head :=
  let n := h.spillPages.length
  let mine := h.spillPart h.side
  let far := h.spillPart h.far
  let h := (h.setPair { h.pair with sphase := .writing }).spillShare h.side n mine
  (if h.pair.solo then h.spillShare h.far n far else h).spillDone

/-- The exchange of R292 has completed: programming starts. -/
def Head.spillStep (h : Head) : Head :=
  match h.pair.sphase with
  | .exchange tag => if h.landed tag then h.spillGo else h
  | _ => h

/-- A program of a spill has ended on a die: the page stands at its position, or it and every page after it move one
position on and the failed position is noted (R292). -/
def Head.spillProgram (h : Head) (side die pos : Nat) (ok : Bool) : Head :=
  let s := h.spillOf side
  let h := (h.setFl { h.fl with waits := h.fl.waits.filter (fun w => w.1 ≠ .spill die pos) }).nandEnd (.spill die pos)
  match s.share.find? (fun x => x.1 = pos) with
  | none => h
  | some x =>
    if ok then
      (h.setSpill side { s with
        share := s.share.filter (fun y => y.1 ≠ pos), pos := s.pos + 1, pages := s.pages + 1
        holds := match h.page x.2 with | some p => s.holds ++ [(pos, p)] | none => s.holds }).spillDone
    else
      let last := s.share.foldl (fun m y => max m y.1) 0
      let h := h.setSpill side { s with
        failed := s.failed ++ [pos], share := s.share.map (fun y => if pos ≤ y.1 then (y.1 + 1, y.2) else y) }
      match h.spillDie side (last + 1) with
      | some d => h.nand (.spill d (last + 1)) true
      | none => h

end Sys2Proof.Machine
end

