-- ==== Sys2Proof/Machine/Reset.lean ====
section
/-! DEFINITION. Resets (R6, R7, R161, R162, R394, R456-R469): reset sources and their reaches, what a head or power reset
leaves, the release of MI, the reset and quiesce of one island, head-fatal errors. -/

namespace Sys2Proof.Machine

/-- The head with its reset state changed. -/
def Head.setRst (h : Head) (r : Rst) : Head := { h with sys := { h.sys with rst := r } }

/-- The head with one island changed. -/
def Head.updIsland (h : Head) (i : Nat) (f : Island → Island) : Head :=
  match h.sys.islands[i]? with
  | some x => { h with sys := { h.sys with islands := setNth h.sys.islands i (f x) } }
  | none => h

/-- The head with its reduction state replaced. -/
def Head.setRed (h : Head) (r : Reduce) : Head := { h with red := r }

/-- The head with its fence state changed. -/
def Head.setFence (h : Head) (f : Fence) : Head := { h with pair := { h.pair with fence := f } }

/-! ## What resets leave -/

/-- What of a queue its PSTORE records keep: QNEXT (R120), and a fence that has been taken (R170). -/
def Queue.rest (x : Queue) : Queue :=
  { Queue.fresh with
    qnext := x.qnext, said := x.qnext, rst := x.fence, fence := x.fence, abandN := x.abandN, doneN := x.doneN }

/-- Queues of which a reset leaves what PSTORE holds. -/
def restQueues (l : Sparse Queue) : Sparse Queue :=
  (l.map (fun e => (e.1, e.2.rest))).filter (fun e => e.2 ≠ Queue.fresh)

/-- Inbound windows survive a reset: they are PSTORE records (R142); a revocation in progress has ended. -/
def restWindows (l : List Window) (power : Bool) : List Window :=
  (l.filter (fun w => !w.out)).map (fun w =>
    { w with state := if w.state = .revoking then .opened else w.state, waitAdv := false, revBy := none
             pages := if w.unmir && power then [] else w.pages })

/-- What the data-reduction units keep: tables and the cold index on flash; the hot index and the filter do not survive (R181, R183). -/
def restReduce (r : Reduce) : Reduce :=
  { Reduce.blank with
    gear := r.gear, huff := r.huff, huffV := r.huffV, cold := r.cold, nextExt := r.nextExt }

/-- A live page whose bytes went with the power: the page table in PSTORE still names it (R276, R282); until it is
restored every granule reads as poison. -/
def LPage.lost (p : LPage) : LPage := { p with data := [], pois := upto 16 }

/-- The references that extents being destaged held (R185): granted ones and those of containers not yet mapped. -/
def extentRefs (es : List Extent) (k : ChunkEnt) : Nat :=
  sum ((es.filter (fun e => e.tag.isNone)).map (fun e => e.chunks.countP (fun c => match c.st with
    | .dup r => r.toNat = mkCref k.pool k.side k.chunk
    | .stored n => n = k.chunk && e.side = k.side
    | _ => false)))

/-- The chunk table without the references of extents that a reset forgets; what nothing else names becomes an orphan
(R173, Table 10-6). -/
def orphanChunks (es : List Extent) (l : List ChunkEnt) : List ChunkEnt :=
  (l.map (fun k => { k with refs := k.refs - extentRefs es k })).filter (fun k => decide (0 < k.refs))

/-- A band after a reset: no fill is in progress, nothing is staged, orphans are dead. -/
def restBand (es : List Extent) (l : List ChunkEnt) (b : Band) : Band :=
  let kept := (orphanChunks es l).filter (fun k => k.pool = b.pool && k.side = b.side)
  let cells := b.cells.map (fun c => { c with live := c.live && (match c.item with | .chunk n => kept.any (fun k => k.chunk = n) | .page _ => true) })
  Band.orphans { b with filling := none, stage := [], cells := cells }

/-- GC slots after a failure (Table 8-11): a slot in COPY is freed and its victim stays valid; a victim whose map has moved is erased, again
where its erases had begun (`dueErases`). -/
def restGc (l : List GcSlot) : List GcSlot :=
  l.filterMap (fun g => match g.st with
    | .map _ => some { g with st := .map none, left := [] }
    | .erase => some g
    | _ => none)

/-- HBM with LIVE of the gather slots in use cleared: every gather is discarded (R173). -/
def Head.slotsOff (h : Head) : List Host.Cell :=
  h.red.gslots.foldl (fun m e => writeByte m (Config.gatherBase + 34816 * e.1 + 0x8007) 0) h.core.hbm

/-- Everything but the reset state itself after a head reset or a power reset (R461). -/
def Head.wipe (h : Head) (power : Bool) : Head :=
  { h with
    core := { Core.blank with
      hbm := if power then [] else h.slotsOff, hbmP := if power then [] else h.core.hbmP
      chk := if power then [] else h.core.chk }
    regs := resetRegs h.regs (fun _ => true) power
    rcd := { h.rcd with
      buffer := [], vol := false, volRing := [], ready := false, drop := 0, floor := if h.rcd.vol then h.rcd.pfloor else h.rcd.floor }
    work := { h.work with
      queues := restQueues h.work.queues, cmds := [], verbs := [], readMostly := false, event := Two.both none, epochs := 0
      spent := [0, 0, 0, 0], owed := [] }
    net := { Net.blank with windows := restWindows h.net.windows power }
    pair := { h.pair with
      size := h.cfg .LEHRCFG 0 7 0, lehr := if power then h.pair.lehr.map LPage.lost else h.pair.lehr, unm := if power then [] else h.pair.unm
      link := Link.blank, sphase := .none, spillAt := 0, peerLost := false, remir := false, remirLeft := 0
      serve := Two.both false, handoff := none, takeover := .none, rejoin := false, newer := []
      fence := Fence.blank, said := Two.both none
      spill := ⟨{ h.pair.spill.s0 with ready := false }, { h.pair.spill.s1 with ready := false }⟩ }
    vols := { h.vols with
      afresh := [], small := [], ends := [], copies := h.vols.copies.filter (fun (y : PageCopy) => y.stored)
      dirty := h.vols.dirty ++ ((h.vols.copies.filter (fun y => !y.stored)).map (fun y => (y.page, y.side))).filter
        (fun x => !(h.vols.dirty.contains x)) }
    red := restReduce h.red
    fl := { h.fl with ops := [], waits := [], groups := [], late := [], rbSpent := 0, wants := [], vccqOff := false, gc := restGc h.fl.gc
                      pools := h.fl.pools.map (fun p => { p with plain := none })
                      dies := h.fl.dies.map (fun e => (e.1, e.2.map (fun d => { d with susp := false, touts := 0 })))
                      chunks := orphanChunks h.red.extents h.fl.chunks
                      bands := h.fl.bands.map (restBand h.red.extents h.fl.chunks) }
    tape := { h.tape with ports := ⟨{ Port.blank with ladder := h.tape.ladder, eq := h.tape.eq, held := h.tape.ports.s0.held },
      { Port.blank with ladder := h.tape.ladder, eq := h.tape.eq, held := h.tape.ports.s1.held }⟩ }
    keys := { h.keys with dg := [], keyx := [] }
    sys := { h.sys with
      islands := List.replicate 22 Island.blank
      power := { h.sys.power with
        vid := 150, iout := 0, fault := false, rstat := 0, fails := 0, tj := 0, thr := false, held := h.sys.power.held
        badsel := false, dblRef := false, lock := 0
        loss := if power then 0 else h.sys.power.loss, tjpeak := if power then 0 else h.sys.power.tjpeak
        trip := if power then false else h.sys.power.trip }
      pins := { h.sys.pins with fenceOut := true }
      smb := { h.sys.smb with sess := none, hello := none, read := 0, bscan := false, tapIr := 1, tapSt := 0, tapDr := [], tapUpd := [] } } }

/-! ## Sources (Table 16-3, R464) -/

/-- RSTSTAT.CAUSE of a source (Table 16-8). -/
def RSrc.cause : RSrc → Nat
  | .power => 0
  | .rstL => 1
  | .watchdog => 2
  | .cptReset => 3
  | .smbReset => 4
  | .thermal => 5

/-- A source is asserted. A head reset begins with the first one; the power source widens a head reset; a source that
meets one of its own reach or a wider one is absorbed. -/
def Head.assertReset (h : Head) (src : RSrc) : Head :=
  let r := h.sys.rst
  if r.active.contains src then h
  else
    let power := decide (src = .power)
    let first := r.active.isEmpty
    let wider := power && !(r.active.contains .power)
    let h := if first || wider then h.wipe power else h
    h.setRst { r with
      active := r.active ++ [src]
      cause := if first || wider then src.cause else r.cause
      bootn := if first then (r.bootn + 1) % 2 ^ 32 else r.bootn
      trimv := false, trimLd := false, bflt := false, image := false, ttOn := false, beat := false, kicked := false
      fails := if power then 0 else r.fails, after := none, pend := [] }

/-- MI is released when the last active source is (R456, R458, R464, R466): the straps are sampled, the trims load. -/
def Head.releaseMI (h : Head) : Head :=
  let p := h.sys.pins
  let h := h.updIsland 0 (fun x => { x with st := .running })
  let h := h.setRst { h.sys.rst with
    straps := p.bootSel * 8 + p.clkSel * 2 + p.sideSel, trimLd := true, trimv := false, tflt := false, t0 := h.now, bsrc := 0 }
  { h with
    work := { h.work with vid := 2 * (h.work.vid / 2 + 1) + (1 - p.sideSel % 2) }
    sys := { h.sys with power := { h.sys.power with badsel := decide (p.clkSel = 0), lock := 0x80 } } }

/-- A source is released. -/
def Head.releaseReset (h : Head) (src : RSrc) : Head :=
  let r := h.sys.rst
  if !(r.active.contains src) then h
  else
    let left := r.active.filter (fun s => s ≠ src)
    let h := h.setRst { r with active := left }
    if left.isEmpty then h.releaseMI else h

/-- A source that its own hardware releases 10 µs after assertion (Table 16-3). -/
def Head.pulseReset (h : Head) (src : RSrc) : Head := (h.assertReset src).releaseReset src

/-- The head with its regulator and temperature state replaced. -/
def Head.setPower (h : Head) (p : Power) : Head := { h with sys := { h.sys with power := p } }

/-- A head that has reached CRIT holds itself in reset until it has cooled (R475). -/
def Head.holdHot (h : Head) : Head := (h.setPower { h.sys.power with held := true }).assertReset .thermal

/-- A head-fatal error (R394): issue stops on every engine, an event is written; the peer of a whole pair is told, a head
serving alone resets. -/
def Head.headFatal (h : Head) (srck srci why : Nat) : Head :=
  let h := h.event 0x0302 3 0xFF srck srci why 0 0
  if h.pair.solo then h.pulseReset .watchdog
  else (h.setFence { h.pair.fence with fatal := true }).sendCtl (.control .fatal 0)

/-! ## One island (R162, R391, R469) -/

/-- Threads of an island. -/
def islandThreads (i : Nat) : List Nat := if 3 ≤ i ∧ i ≤ 14 then (upto 64).map (fun k => (i - 3) * 64 + k) else []

/-- Dies of a NAND island. -/
def islandDies (i : Nat) : List Nat := (upto 512).map (fun k => (i - 17) * 512 + k)

/-- A crossing of the island holds a word, or one of its bus transfers is in progress: a verb, a unit's request, a packet
or frame, a die's operation, a transport link in use. -/
def Head.crossingBusy (h : Head) (i : Nat) : Bool :=
  if 3 ≤ i ∧ i ≤ 14 then (islandThreads i).any (fun t => (h.thread t).verbs.any (fun v => v.ans.isNone))
  else if i = 15 then h.red.units.any (fun u => u.2.cur.isSome)
  else if i = 16 then
    h.net.conns.any (fun c => !c.unacked.isEmpty) || !h.pair.link.mir.unacked.isEmpty || !h.pair.link.bulk.unacked.isEmpty
  else if 17 ≤ i ∧ i ≤ 20 then
    h.fl.ops.any (fun o => decide (o.die / 512 + 17 = i) && (match o with | .erase _ _ _ => false | _ => true))
  else if i = 21 then
    (upto 2).any (fun p => match (h.tape.ports.at p).state with | .writing => true | .reading => true | .seeking => true | _ => false)
  else false

/-- A tape job runs on some port. -/
def Head.tapeBusy (h : Head) : Bool := h.tape.ports.s0.job.isSome || h.tape.ports.s1.job.isSome

/-- An island reset that R162 refuses. -/
def Head.islandRefused (h : Head) (i : Nat) : Bool := decide (i ≤ 2) || decide (21 < i) || (i = 21 && h.tapeBusy)

/-- The commands whose programs ran on a thread of a reset engine island are re-run by the procedure of R164: a COMMITTED one answers
logged verbs from its log, an ACCEPTED one starts with an empty log. Verbs that have acted and are not answered stay, for the re-run to go
on with. -/
def Head.rerun (h : Head) (ts : List Nat) : Head :=
  let hit : Cmd → Bool := fun c => match c.thread with | some t => ts.contains t | none => false
  let mine := h.work.cmds.filter hit
  let keys := mine.map (fun c => (c.side, c.seq))
  let fresh : Cmd → Bool := fun c => match c.phase with | .accepted => true | _ => false
  let h := (mine.filter fresh).foldl (fun h c => h.wipeLog c) h
  let h := h.setCmds (h.work.cmds.map (fun c => if hit c then
    { c with thread := none, ended := false, log := if fresh c then [] else c.log, replay := if fresh c then [] else c.log, vs := 0
             result := 0, aux := 0, pmap := false, issued := 0, cp := !fresh c && c.cp, marksQ := 0, marksS := 0, again := true } else c))
  { h with work := { h.work with
    verbs := h.work.verbs.filter (fun v => !(match v.cmd with | some k => keys.contains k | none => false) || (v.past && !v.codeC)) } }

/-- A tape port with its transport stopped and its link down: a data set in progress is aborted (R353). -/
def Port.halt (x : Port) : Port :=
  { x with
    state := if x.state = .noCartridge then .noCartridge else .stopped
    step := 0, wrap := 0, splice := 1, servo := Servo.blank
    chans := [], fifo := 0, due := x.due || (x.state = .writing && x.cur.isSome)
    cur := if x.state = .writing then x.cur else none
    link := { x.link with state := .down, rxw := 0, txw := 0 } }

/-- A tape port whose link has been reset. -/
def Port.unlinked (x : Port) (t : LinkTab) : Port := { x with link := { TLink.blank with tab := t } }

/-- What the reset of an island does to the state that the island holds. Erases and reads that were suspended or in progress on its
dies are issued again after the port initialisation, a program that it finds in progress has failed there; gathers and decompressions of the unit islands begin again. -/
def Head.islandWipe (h : Head) (i : Nat) : Head :=
  let h := { h with regs := resetRegs h.regs (fun k => k = i) false }
  if 3 ≤ i ∧ i ≤ 14 then
    let ts := islandThreads i
    let h := h.rerun ts
    { h with core := { h.core with
      threads := h.core.threads.filter (fun e => !(ts.contains e.1))
      l1 := h.core.l1.filter (fun e => !(e.1 / 8 + 3 = i && e.1 < 96))
      l2 := h.core.l2.filter (fun e => e.1 + 3 ≠ i) } }
  else if i = 15 then
    let m := h.slotsOff
    let h := h.setRed { h.red with
      units := [], waits := Two.both [], opened := [], gslots := []
      extents := h.red.extents.map (fun e => { e with chunks := e.chunks.map (fun c => match c.st with
        | .packing _ => { c with st := .unique, cont := [] }
        | _ => c) }) }
    { h with
      core := { h.core with hbm := m }
      work := { h.work with verbs := h.work.verbs.map (fun v => match v.aw with | .unpack => { v with aw := .reads false } | _ => v) }
      keys := { h.keys with dg := [] } }
  else if i = 16 then
    let h := (h.net.conns.map (fun c => c.num)).foldl (fun h n => h.connClosed n) h
    { h with
      net := { h.net with up := 0 }
      pair := { h.pair with link := { h.pair.link with state := .down, txw := 0, rxw := 0, rxGood := 0 } } }
  else if 17 ≤ i ∧ i ≤ 20 then
    let here := fun (o : NOp) => decide (o.die / 512 + 17 = i)
    let again := h.fl.ops.filter (fun o => here o && (match o with | .erase _ _ _ => true | .read _ _ _ _ _ _ => true | _ => false))
    h.setFl { h.fl with
      ops := h.fl.ops.filter (fun o => !here o || (match o with | .program _ _ _ => true | _ => false)), waits := again.map (fun o => (o, true)) ++ h.fl.waits
      groups := h.fl.groups.filter (fun e => e.1 / 8 + 17 ≠ i) }
  else if i = 21 then
    { h with tape := { h.tape with
      ports := ⟨(h.tape.ports.s0.halt).unlinked h.tape.linkT, (h.tape.ports.s1.halt).unlinked h.tape.linkT⟩ } }
  else h

/-- An island is reset: it re-initialises and reports ready later (ISLAND_READY). To a word that a crossing holds, or a bus transfer in
progress, nothing is done: without a quiesce its sender may wait for ever, which is what happens here (R391; DESIGN CHOICE, log
entry 67). -/
def Head.islandReset (h : Head) (i : Nat) : Head :=
  (h.islandWipe i).updIsland i (fun x => { x with st := .releasing, rstn := (x.rstn + 1) % 2 ^ 32, rstAfter := false })

/-- A quiesce begins (R469 steps 1 to 3). FI closes its connections with reason RESET, TI stops its transports. -/
def Head.quiesce (h : Head) (i : Nat) (after : Bool) : Head :=
  match h.island i with
  | .running =>
    let h := h.updIsland i (fun x => { x with st := .quiescing, rstAfter := after })
    if i = 16 then (h.net.conns.map (fun c => c.num)).foldl (fun h n => h.closeConn n 5) h
    else if i = 21 then
      { h with tape := { h.tape with ports :=
        ⟨h.tape.ports.s0.halt, h.tape.ports.s1.halt⟩ } }
    else h
  | _ => h.updIsland i (fun x => { x with rstAfter := x.rstAfter || after })

/-- Some island is quiescing or quiesced: acceptance is held (R162, R469). -/
def Head.quiescing (h : Head) : Bool :=
  h.sys.islands.any (fun x => match x.st with | .quiescing => true | .quiesced => true | .releasing => x.rstn ≠ 0 | _ => false)

/-! ## RESET verbs of head and island scope (R68, R161) -/

/-- The reset of a RESET verb begins: a head serving alone spills first. -/
def Head.startReset (h : Head) (scope island : Nat) (src : RSrc) : Head :=
  if scope = 0 then
    if h.pair.solo then (h.setRst { h.sys.rst with after := some src }).beginSpill
    else h.pulseReset src
  else h.quiesce island true

/-- The RESET verbs of a command whose completion has been posted begin their resets. -/
def Head.afterPost (h : Head) (k : Nat × Nat) : Head :=
  let mine := h.sys.rst.pend.filter (fun x => x.1 = k)
  if mine.isEmpty then h
  else
    let h := h.setRst { h.sys.rst with pend := h.sys.rst.pend.filter (fun x => x.1 ≠ k) }
    mine.foldl (fun h x => h.startReset x.2.1 x.2.2 .cptReset) h

end Sys2Proof.Machine
end

