-- ==== Sys2Proof/Machine/Caches.lean ====
section
/-! DEFINITION. The memory path (R33-R35, R392-R408): HBM, scratch and private areas with their poison, L1 D, L1 I and L2
with eviction buffers, locked and disabled ways, the streaming detector, the merging buffer, the errors a load can meet,
the range operations. -/

namespace Sys2Proof.Machine

/-! ## Lines -/

/-- The content of a 64-byte line: its bytes and the poison bits of its 8 words. -/
structure Ln where
  data : List Byte
  pois : BitVec 8
deriving DecidableEq, Repr

/-- Bytes of an address space limit: HBM 96 GiB, scratch 32 MiB (R34). -/
def hbmLimit : Nat := 0x1800000000
def scrLimit : Nat := 0x2000000

/-- The instruction region (R388, R414): 256 MiB. -/
def inInstr (a n : Nat) : Bool := decide (Config.instrBase < a + n) && decide (a < Config.instrBase + 0x10000000)

/-! ## Stored checks (R404, R408)

A word whose check bits were written raw is listed in `core.chk` with those bits, plus 1. The code is taken to be linear
(PRESUMED, log entry 23), so that the syndrome of one wrong data bit is the code of that bit. -/

/-- Key of a checked word: memory 0 to 4, word number. -/
def chkKey (m w : Nat) : Nat := m * 2 ^ 45 + w

/-- What a checked read gives of a word and its stored check bits: the word, and whether it is poison. -/
def checked (d : Word) (c : BitVec 8) : Word × Bool :=
  let s := c ^^^ Config.secded d
  if s = 0 then (d, false)
  else
    match (upto 64).find? (fun i => Config.secded (1#64 <<< i) = s) with
    | some i => (d ^^^ (1#64 <<< i), false)
    | none => if (upto 8).any (fun i => (1#8 <<< i) = s) then (d, false) else (d, true)

/-- A word of a memory as its checker delivers it. -/
def Head.viewWord (h : Head) (m w : Nat) (d : Word) (p : Bool) : Word × Bool :=
  match look 0 h.core.chk (chkKey m w) with
  | 0 => (d, p)
  | c + 1 => let x := checked d (BitVec.ofNat 8 c); (x.1, x.2 || p)

/-- The head with its engines, caches and memories replaced. -/
def Head.setCore (h : Head) (c : Core) : Head := { h with core := c }

/-- The word of memory cells at word number `w`. -/
def cellWord (m : List Host.Cell) (w : Nat) : Word := BitVec.ofNat 64 (leNat (readBytes m (8 * w) 8))

/-- A word of HBM (memory 4) or scratch (memory 1). -/
def Head.memWord (h : Head) (m w : Nat) : Word × Bool :=
  if m = 1 then h.viewWord 1 w (cellWord h.core.scr w) (look false h.core.scrP w)
  else h.viewWord 4 w (cellWord h.core.hbm w) (look false h.core.hbmP w)

/-- A word of HBM or scratch written with its poison bit; its check bits are computed anew. -/
def Head.putWord (h : Head) (m w : Nat) (d : Word) (p : Bool) : Head :=
  let chk := place 0 h.core.chk (chkKey m w) 0
  if m = 1 then
    h.setCore { h.core with
      scr := writeBytes h.core.scr (8 * w) (leBytes 8 d.toNat), scrP := place false h.core.scrP w p, chk := chk }
  else
    h.setCore { h.core with
      hbm := writeBytes h.core.hbm (8 * w) (leBytes 8 d.toNat), hbmP := place false h.core.hbmP w p, chk := chk }

/-- A line of HBM. -/
def Head.hbmLine (h : Head) (n : Nat) : Ln :=
  let ws := (upto 8).map (fun i => h.memWord 4 (8 * n + i))
  ⟨(ws.map (fun x => leBytes 8 x.1.toNat)).flatten,
   BitVec.ofNat 8 (leNat [(upto 8).foldl (fun b i => if (nth (0, false) ws i).2 then b ||| (1#8 <<< i) else b) 0])⟩

/-- Word `i` of a line. -/
def Ln.word (l : Ln) (i : Nat) : Word := BitVec.ofNat 64 (leNat ((l.data.drop (8 * i)).take 8))

/-- A line of HBM written. -/
def Head.putHbm (h : Head) (n : Nat) (l : Ln) : Head :=
  (upto 8).foldl (fun h i => h.putWord 4 (8 * n + i) (l.word i) (l.pois.getLsbD i)) h

/-- A line with bytes stored in it: a whole word stored clears its poison, a part of one keeps it (Table 13-7). -/
def Ln.store (l : Ln) (off : Nat) (b : List Byte) : Ln :=
  { data := overlay l.data off b
    pois := (upto 8).foldl (fun p i =>
      if off ≤ 8 * i ∧ 8 * i + 8 ≤ off + b.length then p &&& ~~~(1#8 <<< i) else p) l.pois }

/-- Some word of bytes [off, off + n) of a line is poisoned. -/
def Ln.poisoned (l : Ln) (off n : Nat) : Bool :=
  (upto 8).any (fun i => l.pois.getLsbD i && decide (8 * i < off + n) && decide (off < 8 * i + 8))

/-- The content of a cached line. -/
def CLine.ln (c : CLine) : Ln := ⟨c.data, c.pois⟩

/-! ## The caches as tables -/

/-- An L1 and an L2 after the reset of their island: empty, disabled, not yet invalidated (R396). -/
def L1.fresh : L1 := ⟨[], [], [], 0, 0, [], false, false⟩
def L2.fresh : L2 := ⟨[], [], [], [], 0, false⟩

/-- The L1 of an engine, the L2 of a peloton. -/
def Head.l1 (h : Head) (e : Nat) : L1 := look L1.fresh h.core.l1 e
def Head.l2 (h : Head) (k : Nat) : L2 := look L2.fresh h.core.l2 k

/-- The head with an L1 or L2 replaced. -/
def Head.setL1 (h : Head) (e : Nat) (x : L1) : Head := h.setCore { h.core with l1 := place L1.fresh h.core.l1 e x }
def Head.setL2 (h : Head) (k : Nat) (x : L2) : Head := h.setCore { h.core with l2 := place L2.fresh h.core.l2 k x }

/-- Fields of ENGCFG and L2CFG: enables, write policy, prefetch, disabled and locked ways. -/
def Head.l1i (h : Head) (e : Nat) : Bool := h.cfg .ENGCFG e 63 63 = 1
def Head.l1d (h : Head) (e : Nat) : Bool := h.cfg .ENGCFG e 62 62 = 1
def Head.writeThrough (h : Head) (e : Nat) : Bool := h.cfg .ENGCFG e 61 61 = 1
def Head.prefetches (h : Head) (e : Nat) : Bool := h.cfg .ENGCFG e 60 60 = 1
def Head.l2on (h : Head) (k : Nat) : Bool := decide (k < 12) && h.cfg .L2CFG k 63 63 = 1
def Head.wayOff (h : Head) (k w : Nat) : Bool := bit (h.cfg .L2CFG k 31 16) w
def Head.wayLocked (h : Head) (k w : Nat) : Bool := bit (h.cfg .L2CFG k 15 0) w

/-- The peloton of an engine; the stewards have none, written 12. -/
def pelotonOf (e : Nat) : Nat := if e < 96 then e / 8 else 12

/-- A line of a list of cached lines. -/
def cached (l : List CLine) (n : Nat) : Option CLine := l.find? (fun c => c.line = n)

/-- A list of cached lines without a line. -/
def dropLine (l : List CLine) (n : Nat) : List CLine := l.filter (fun c => c.line ≠ n)

/-- A line made the most recently used. -/
def touch (l : List CLine) (n : Nat) : List CLine :=
  match cached l n with
  | some c => c :: dropLine l n
  | none => l

/-- A place for a line in a set-associative cache: `sets` sets, `ways` the ways that may take it. A free way is taken, else
the least recently used line of the set among them leaves. None where no way may take it. -/
def allocWay (l : List CLine) (sets : Nat) (ways : List Nat) (n : Nat) : Option (Nat × Option CLine) :=
  let set := l.filter (fun c => c.line % sets = n % sets)
  match ways.find? (fun w => !(set.any (fun c => c.way = w))) with
  | some w => some (w, none)
  | none => ((set.filter (fun c => ways.contains c.way)).getLast?).map (fun c => (c.way, some c))

/-! ## What a line holds now (R393) -/

/-- Some eviction buffer holds a line. -/
def Head.evicting (h : Head) (n : Nat) : Bool :=
  h.core.l1.any (fun e => (cached e.2.evict n).isSome) || h.core.l2.any (fun e => (cached e.2.evict n).isSome)

/-- A version of a line that no memory below holds yet: dirty in some L1 or L2, in a merging or eviction buffer. -/
def Head.newest (h : Head) (n : Nat) : Option CLine :=
  let up := h.core.l1.findSome? (fun e =>
    (cached (e.2.lines.filter (fun c => c.dirty)) n).or ((cached e.2.wt n).or (cached e.2.evict n)))
  up.or (h.core.l2.findSome? (fun e => (cached (e.2.lines.filter (fun c => c.dirty)) n).or (cached e.2.evict n)))

/-- The line as an engine of peloton `k` finds it past its L1: the newest version, else L2's copy, else HBM's. -/
def Head.current (h : Head) (k n : Nat) : Ln :=
  match h.newest n with
  | some c => c.ln
  | none =>
    match cached (h.l2 k).lines n with
    | some c => c.ln
    | none => h.hbmLine n

/-- Every cached copy of a line removed, but for L1 `e` and L2 `k`. -/
def Head.removeOthers (h : Head) (e k n : Nat) : Head :=
  h.setCore { h.core with
    l1 := (h.core.l1.map (fun x => if x.1 = e then x else
      (x.1, { x.2 with lines := dropLine x.2.lines n, wt := dropLine x.2.wt n }))).filter (fun x => x.2 ≠ L1.fresh)
    l2 := (h.core.l2.map (fun x => if x.1 = k then x else
      (x.1, { x.2 with lines := dropLine x.2.lines n }))).filter (fun x => x.2 ≠ L2.fresh) }

/-! ## L2 -/

/-- Ways of an L2 that may take a line: neither locked nor disabled. -/
def Head.l2ways (h : Head) (k : Nat) : List Nat := (upto 16).filter (fun w => !(h.wayOff k w) && !(h.wayLocked k w))

/-- A line put into an L2 (clean or dirty). A dirty victim goes to the eviction buffer of 32; where that is full the
request waits (none). Where no way may take the line it is not held. -/
def Head.fillL2 (h : Head) (k n : Nat) (l : Ln) (dirty : Bool) : Option Head :=
  let x := h.l2 k
  match cached x.lines n with
  | some c =>
    some (h.setL2 k { x with
      lines := { c with data := l.data, pois := l.pois, dirty := c.dirty || dirty } :: dropLine x.lines n })
  | none =>
    match allocWay x.lines 4096 (h.l2ways k) n with
    | none => some (if dirty then h.putHbm n l else h)
    | some (w, v) =>
      let new : CLine := ⟨n, w, dirty, l.data, l.pois⟩
      match v with
      | none => some (h.setL2 k { x with lines := new :: x.lines })
      | some v =>
        if v.dirty && decide (32 ≤ x.evict.length) then none
        else some (h.setL2 k { x with
          lines := new :: dropLine x.lines v.line, evict := if v.dirty then x.evict ++ [v] else x.evict })

/-- A whole line arrives at the level below L1: the peloton's L2 where it is enabled, else HBM. -/
def Head.putBelow (h : Head) (k n : Nat) (l : Ln) : Option Head :=
  if h.l2on k then
    if (cached (h.l2 k).evict n).isSome then none else h.fillL2 k n l true
  else some (h.putHbm n l)

/-- A read passes the peloton's L2: a hit is used, a miss allocates, and prefetches where the engine does (R398). -/
def Head.throughL2 (h : Head) (k n : Nat) (pf : Bool) : Option Head :=
  if !h.l2on k then some h
  else
    match cached (h.l2 k).lines n with
    | some _ => some (h.setL2 k { h.l2 k with lines := touch (h.l2 k).lines n })
    | none =>
      if (h.newest n).isSome then some h
      else
        match h.fillL2 k n (h.hbmLine n) false with
        | none => none
        | some h =>
          let m := n + 1
          if pf && m / 64 = n / 64 && (cached (h.l2 k).lines m).isNone && (h.newest m).isNone then
            some ((h.fillL2 k m (h.hbmLine m) false).getD h)
          else some h

/-- A line leaves an L2's eviction buffer for HBM, once its write-back is acknowledged. -/
def Head.ackL2 (h : Head) (k n : Nat) : Head :=
  match cached (h.l2 k).evict n with
  | none => h
  | some c => (h.setL2 k { h.l2 k with evict := dropLine (h.l2 k).evict n }).putHbm n c.ln

/-- A line moved from an L2 to its eviction buffer; a full buffer first has its oldest write-back acknowledged. -/
def Head.evictL2 (h : Head) (k : Nat) (c : CLine) : Head :=
  let h := match (h.l2 k).evict with
    | o :: _ => if 32 ≤ (h.l2 k).evict.length then h.ackL2 k o.line else h
    | [] => h
  h.setL2 k { h.l2 k with lines := dropLine (h.l2 k).lines c.line, evict := (h.l2 k).evict ++ [c] }

/-! ## L1 D -/

/-- A line put into an L1 D; a dirty victim goes to the eviction buffer of 8, and a full one makes the request wait. -/
def Head.fillL1 (h : Head) (e n : Nat) (l : Ln) (dirty : Bool) : Option Head :=
  let x := h.l1 e
  match cached x.lines n with
  | some c =>
    some (h.setL1 e { x with
      lines := { c with data := l.data, pois := l.pois, dirty := c.dirty || dirty } :: dropLine x.lines n })
  | none =>
    match allocWay x.lines 256 [0, 1, 2, 3] n with
    | none => some h
    | some (w, v) =>
      let new : CLine := ⟨n, w, dirty, l.data, l.pois⟩
      match v with
      | none => some (h.setL1 e { x with lines := new :: x.lines })
      | some v =>
        if v.dirty && decide (8 ≤ x.evict.length) then none
        else some (h.setL1 e { x with
          lines := new :: dropLine x.lines v.line, evict := if v.dirty then x.evict ++ [v] else x.evict })

/-- The oldest entry of a merging buffer drains to the level below. -/
def Head.drainOne (h : Head) (e : Nat) : Option Head :=
  match (h.l1 e).wt with
  | [] => some h
  | c :: r => (h.setL1 e { h.l1 e with wt := r }).putBelow (pelotonOf e) c.line c.ln

/-- The merging buffer drains wholly (R397). -/
def drainLoop : Nat → Head → Nat → Option Head
  | 0, h, _ => some h
  | k + 1, h, e => match h.drainOne e with | some h => drainLoop k h e | none => none

/-- A merging buffer drains at FENCE, WAITV, END; none where the level below must wait. -/
def Head.drainWt (h : Head) (e : Nat) : Option Head := drainLoop (h.l1 e).wt.length h e

/-- A load ends a run of the streaming detector unless it meets the run's own line (R397). -/
def L1.loadSeen (x : L1) (n : Nat) : L1 := if n = x.sline ∨ n = x.sline + 1 then x else { x with scount := 0 }

/-- The streaming detector after a store: one more where the store writes the next line, unchanged on the same line, reset
by any other (DEDUCED, log entry 24). -/
def L1.storeSeen (x : L1) (n : Nat) : L1 :=
  if n = x.sline + 1 then { x with sline := n, scount := x.scount + 1 }
  else if n = x.sline then x
  else { x with sline := n, scount := 0 }

/-- A load of a line by an engine: the line and the head after allocation; none where it waits. `na` keeps a miss from
allocating in L1 D. -/
def Head.loadLine (h : Head) (e n : Nat) (na : Bool) : Option (Head × Ln) :=
  let k := pelotonOf e
  let x := h.l1 e
  let h := h.setL1 e (x.loadSeen n)
  if !h.l1d e then
    let l := h.current k n
    (h.throughL2 k n false).map (fun h => (h, l))
  else
    match cached x.lines n with
    | some c => some (h.setL1 e { h.l1 e with lines := touch x.lines n }, c.ln)
    | none =>
      match (cached x.wt n).or (cached x.evict n) with
      | some c => some (h, c.ln)
      | none =>
        let l := h.current k n
        match h.throughL2 k n (h.prefetches e) with
        | none => none
        | some h =>
          if na then some (h, l)
          else
            match h.fillL1 e n l false with
            | none => none
            | some h =>
              let m := n + 1
              let h :=
                if h.prefetches e && m / 64 = n / 64 && (cached (h.l1 e).lines m).isNone then
                  (h.fillL1 e m (h.current k m) false).getD h
                else h
              some (h, l)

/-- A store into a line by an engine; none where it waits (R399, full buffers). The stored line is a whole new version: what the
engine's own cache or merging buffer still held of it, from before a change of DEN or WT, is part of it and stands there no
more (R35). -/
def Head.storeLine (h : Head) (e n off : Nat) (b : List Byte) (na : Bool) : Option Head :=
  let k := pelotonOf e
  if h.evicting n then none
  else
    let x := (h.l1 e).storeSeen n
    let h := h.setL1 e x
    let old := match cached x.lines n with
      | some c => c.ln
      | none => (match cached x.wt n with | some c => c.ln | none => h.current k n)
    let new := old.store off b
    let h := h.removeOthers e k n
    let h := if h.l1d e && h.writeThrough e then h else h.setL1 e { h.l1 e with wt := dropLine (h.l1 e).wt n }
    if !h.l1d e then (h.setL1 e { h.l1 e with lines := dropLine (h.l1 e).lines n }).putBelow k n new
    else if h.writeThrough e then
      let h := match cached x.lines n with | some _ => (h.fillL1 e n new false).getD h | none => h
      match cached x.wt n with
      | some _ =>
        some (h.setL1 e { h.l1 e with wt := (h.l1 e).wt.map (fun (c : CLine) =>
          if c.line = n then { c with data := new.data, pois := new.pois } else c) })
      | none =>
        match (if 8 ≤ (h.l1 e).wt.length then h.drainOne e else some h) with
        | none => none
        | some h => some (h.setL1 e { h.l1 e with wt := (h.l1 e).wt ++ [⟨n, 0, true, new.data, new.pois⟩] })
    else
      match cached x.lines n with
      | some _ => h.fillL1 e n new true
      | none =>
        if na || decide (8 ≤ x.scount) then h.putBelow k n new
        else
          match h.fillL1 e n new true with
          | none => none
          | some h =>
            let m := n + 1
            some (if h.prefetches e && m / 64 = n / 64 && (cached (h.l1 e).lines m).isNone then
              (h.fillL1 e m (h.current k m) false).getD h else h)

/-- A line changed at the L2 of a peloton after it was removed from every L1 D (R393, AMO): its content before; none where
it waits. -/
def Head.atL2 (h : Head) (e n : Nat) (f : Ln → Ln) : Option (Head × Ln) :=
  let k := pelotonOf e
  if h.evicting n then none
  else
    let old := h.current k n
    ((h.removeOthers 98 k n).putBelow k n (f old)).map (fun h => (h, old))

/-! ## Hardwired units reach HBM coherently (R393) -/

/-- The line a unit reads. -/
def Head.unitLine (h : Head) (n : Nat) : Ln := match h.newest n with | some c => c.ln | none => h.hbmLine n

/-- A line written by a unit: no cache keeps a copy; a version on its way out is acknowledged first. -/
def Head.unitPut (h : Head) (n : Nat) (l : Ln) : Head :=
  let h := h.removeOthers 98 12 n
  let h := h.setCore { h.core with
    l1 := (h.core.l1.map (fun x => (x.1, { x.2 with evict := dropLine x.2.evict n }))).filter (fun x => x.2 ≠ L1.fresh)
    l2 := (h.core.l2.map (fun x => (x.1, { x.2 with evict := dropLine x.2.evict n }))).filter (fun x => x.2 ≠ L2.fresh) }
  h.putHbm n l

/-- A word a unit reads from HBM or scratch, with its poison. -/
def Head.unitWord (h : Head) (scr : Bool) (w : Nat) : Word × Bool :=
  if scr then h.memWord 1 w else let l := h.unitLine (w / 8); (l.word (w % 8), l.pois.getLsbD (w % 8))

/-- Bytes [a, a + n) as a unit reads them, with whether any of their words is poisoned. -/
def Head.unitRead (h : Head) (scr : Bool) (a n : Nat) : List Byte × Bool :=
  if n = 0 then ([], false)
  else
    let ws := (upto ((a + n - 1) / 8 + 1 - a / 8)).map (fun i => h.unitWord scr (a / 8 + i))
    ((((ws.map (fun x => leBytes 8 x.1.toNat)).flatten).drop (a % 8)).take n, ws.any (fun x => x.2))

/-- Bytes written by a unit, word by word; `pois` says for each word touched whether it now carries poison. -/
def Head.unitWrite (h : Head) (scr : Bool) (a : Nat) (b : List Byte) (pois : Nat → Bool) : Head :=
  if b.isEmpty then h
  else
    (upto ((a + b.length - 1) / 8 + 1 - a / 8)).foldl (fun h i =>
      let w := a / 8 + i
      let old := h.unitWord scr w
      let lo := max a (8 * w)
      let hi := min (a + b.length) (8 * w + 8)
      let d := overlay (leBytes 8 old.1.toNat) (lo - 8 * w) ((b.drop (lo - a)).take (hi - lo))
      let p := pois i || (old.2 && decide (hi - lo < 8))
      if scr then h.putWord 1 w (BitVec.ofNat 64 (leNat d)) p
      else
        let l := h.unitLine (w / 8)
        let l' := l.store (8 * (w % 8)) d
        h.unitPut (w / 8) { l' with pois := if p then l'.pois ||| (1#8 <<< (w % 8)) else l'.pois }) h

/-! ## Errors that a load meets (R394, R395, R400) -/

/-- A counter of ENGCFG.PARC raised; it saturates. -/
def Head.parityCount (h : Head) (e : Nat) : Head :=
  h.setFld 0 .ENGCFG e 31 16 (satAdd 0xFFFF (h.cfg .ENGCFG e 31 16) 1)

/-- ECCSTAT and ECCLAST of a memory after an error (R406, Table 13-12): kind 1 corrected, 2 repeat, 3 uncorrectable. -/
def Head.eccNote (h : Head) (m kind addr : Nat) : Head :=
  let x := look (0, 0, 0, 0, 0) h.core.ecc m
  let corr := if kind = 3 then x.1 else (x.1 + 1) % 2 ^ 24
  let rept := if kind = 2 then (x.2.1 + 1) % 2 ^ 24 else x.2.1
  let unc := if kind = 3 then (x.2.2.1 + 1) % 2 ^ 16 else x.2.2.1
  h.setCore { h.core with ecc := place (0, 0, 0, 0, 0) h.core.ecc m (corr, rept, unc, kind, addr % 2 ^ 48) }

/-- A correction at an address: a repeat where it was corrected in this pass or in the one before (R406). -/
def Head.eccCorrected (h : Head) (m addr : Nat) : Head :=
  let now := look [] h.core.scrubNow m
  let before := look [] h.core.scrubPrev m
  let kind := if now.contains addr || before.contains addr then 2 else 1
  let h := h.eccNote m kind addr
  h.setCore { h.core with scrubNow := place [] h.core.scrubNow m (if now.contains addr then now else addr :: now) }

/-- A way of an L2 is taken out of use (R400): dirty lines are written back, the way is empty, its lock goes. -/
def Head.wayLost (h : Head) (k w : Nat) : Head :=
  let x := h.l2 k
  let mine := x.lines.filter (fun c => c.way = w)
  let h := h.setL2 k { x with lines := x.lines.filter (fun c => c.way ≠ w) }
  let h := (mine.filter (fun c => c.dirty)).foldl (fun h c => h.putHbm c.line c.ln) h
  let v := h.cfg .L2CFG k 31 0
  let off := (v ||| (1 <<< (16 + w)))
  h.setFld 0 .L2CFG k 31 0 (if bit off w then off - 1 <<< w else off)

/-- A corrected error in way `w` of an L2 (R400): the fourth within 10 minutes takes the way out. -/
def Head.wayCorrected (h : Head) (k w addr : Nat) : Head :=
  let x := h.l2 k
  let fresh := look 0 x.werr w = 0 || decide (look 0 x.wstart w + 600000000000 < h.now)
  let n := if fresh then 1 else look 0 x.werr w + 1
  let h := h.setL2 k { x with werr := place 0 x.werr w (min n 4), wstart := if fresh then place 0 x.wstart w h.now else x.wstart }
  let h := h.eccCorrected 0 addr
  if n = 4 && !h.wayOff k w then (h.wayLost k w).event 0x0401 1 0xFF 2 k w 0 0 else h

/-- An uncorrectable error in L2 (R400): the word takes poison; the line stays. -/
def Head.l2Uncorrectable (h : Head) (k n word : Nat) : Head :=
  let x := h.l2 k
  match cached x.lines n with
  | none => h
  | some _ =>
    let h := h.setL2 k { x with
      unc := satAdd 0xFFFF x.unc 1
      lines := x.lines.map (fun (c : CLine) => if c.line = n then { c with pois := c.pois ||| (1#8 <<< word) } else c) }
    h.eccNote 0 3 (64 * n + 8 * word)

/-- The HBM address of the instruction that a firmware thread runs. -/
def Thread.fetchLine (x : Thread) : Nat := (Config.instrBase + x.paddr + x.pc.toNat) / 64

/-- An engine's L1 I, where enabled, holds the line of a fetched firmware word (R392): the least recently fetched of a full
set leaves; a miss fetches the next line too where PF is set. -/
def Head.fetched (h : Head) (t : Nat) : Head :=
  let x := h.thread t
  let e := engineOf t
  if x.buf || !h.l1i e then h
  else
    let put := fun (l : List Nat) (n : Nat) =>
      let l := n :: l.filter (fun m => m ≠ n)
      let set := l.filter (fun m => m % 256 = n % 256)
      if 4 < set.length then l.filter (fun m => some m ≠ set.getLast?) else l
    let l := (h.l1 e).iline
    let n := x.fetchLine
    let miss := !(l.contains n)
    let l := put l n
    let l := if miss && h.prefetches e && (n + 1) / 64 = n / 64 then put l (n + 1) else l
    h.setL1 e { h.l1 e with iline := l }

/-- What the checks show when a load of thread `t` meets line `n`, word `word`: the head after it, and whether the error
stops the head (R394). -/
def Head.loadCheck (h : Head) (t n word : Nat) (c : LdCheck) : Head × Bool :=
  let e := engineOf t
  let k := pelotonOf e
  match c with
  | .none => (h, false)
  | .parity =>
    match cached (h.l1 e).lines n with
    | none => (h, false)
    | some l =>
      if l.dirty then (h.headFatal 1 e 1, true)
      else ((h.setL1 e { h.l1 e with lines := dropLine (h.l1 e).lines n }).parityCount e, false)
  | .tag => if h.l1d e then (h.headFatal 1 e 2, true) else (h, false)
  | .crossing => (h.headFatal 0 0 3, true)
  | .iparity =>
    let x := h.thread t
    if !x.buf && (h.l1 e).iline.contains x.fetchLine then (h.parityCount e, false) else (h, false)
  | .corrected w =>
    if h.l2on k && (cached (h.l2 k).lines n).isSome && decide (w < 16) then (h.wayCorrected k w (64 * n), false) else (h, false)
  | .uncorrectable => (h.l2Uncorrectable k n word, false)

/-! ## Range operations (R401-R403) -/

/-- The lines that bytes [a, a + n) touch. -/
def linesOf (a n : Nat) : List Nat := if n = 0 then [] else (upto ((a + n - 1) / 64 + 1 - a / 64)).map (fun i => a / 64 + i)

/-- A line of an L1 D written to the level below; what still goes from there to HBM is older, and arrives first (R399). -/
def Head.writeBelow (h : Head) (k n : Nat) (l : Ln) : Head := (h.putBelow k n l).getD ((h.ackL2 k n).putHbm n l)

/-- The write-back of a line in the eviction buffer of an L1 D completes (Table 13-4). -/
def Head.ackL1 (h : Head) (e n : Nat) : Head :=
  match cached (h.l1 e).evict n with
  | none => h
  | some c => (h.setL1 e { h.l1 e with evict := dropLine (h.l1 e).evict n }).writeBelow (pelotonOf e) n c.ln

/-- Table 13-4 on a line of an L1 D (no way of it is locked): `wb` writes back, `inv` invalidates. -/
def Head.rangeL1 (h : Head) (e n : Nat) (wb inv : Bool) : Head :=
  match cached (h.l1 e).lines n with
  | none => h
  | some c =>
    let h := if c.dirty && wb then h.writeBelow (pelotonOf e) n c.ln else h
    let x := h.l1 e
    let l := if inv then dropLine x.lines n
      else x.lines.map (fun (x : CLine) => if x.line = n then { x with dirty := x.dirty && !wb } else x)
    h.setL1 e { x with lines := l }

/-- Table 13-4 on a line of an L2: a dirty line of a locked way is never discarded. -/
def Head.rangeL2 (h : Head) (k n : Nat) (wb inv : Bool) : Head :=
  match cached (h.l2 k).lines n with
  | none => h
  | some c =>
    if inv then
      if c.dirty && (wb || h.wayLocked k c.way) then h.evictL2 k c
      else h.setL2 k { h.l2 k with lines := dropLine (h.l2 k).lines n }
    else if c.dirty && wb then
      let x := h.l2 k
      let l := x.lines.map (fun (x : CLine) => if x.line = n then { x with dirty := false } else x)
      (h.putHbm n c.ln).setL2 k { x with lines := l }
    else h

/-- Table 13-4 on a line in the caches that `sel` selects (bit 0 L1 D, bit 1 L2), their eviction buffers among them. -/
def Head.cacheLine (h : Head) (e l sel : Nat) (wb inv : Bool) : Head :=
  let h := if bit sel 0 then (h.ackL1 e l).rangeL1 e l wb inv else h
  if bit sel 1 && decide (e < 96) then (h.ackL2 (pelotonOf e) l).rangeL2 (pelotonOf e) l wb inv else h

/-- CINV, CWB, CWBI over a range (R403). -/
def Head.cacheRange (h : Head) (e a n sel : Nat) (wb inv : Bool) : Head :=
  (linesOf a n).foldl (fun h l => h.cacheLine e l sel wb inv) h

/-- LOCKFILL (R402): the lines of the range stand in way `w`; what the place held before is written back. -/
def Head.lockFill (h : Head) (k w a n : Nat) : Head :=
  (linesOf a n).foldl (fun h l =>
    let x := h.l2 k
    let held := cached x.lines l
    let c := match held with | some c => c.ln | none => h.current k l
    let dirty := match held with | some c => c.dirty | none => false
    let out := x.lines.filter (fun c => c.way = w && c.line % 4096 = l % 4096 && c.line ≠ l)
    let rest := dropLine (x.lines.filter (fun c => !(out.any (fun o => o.line = c.line)))) l
    let h := h.setL2 k { x with lines := ⟨l, w, dirty, c.data, c.pois⟩ :: rest }
    (out.filter (fun c => c.dirty)).foldl (fun h c => h.putHbm c.line c.ln) h) h

end Sys2Proof.Machine
end

