-- ==== Sys2Proof/Machine/Reading.lean ====
section
/-! DEFINITION. What reads of flash and the compression and decompression units share (R66, R172, R198, R201, R202): gather slots with
their images in HBM, requests at the units, the chunks that a range of a volume is read from. -/

namespace Sys2Proof.Machine

/-! ## Gather slots (Table 7-7)

A slot stands in HBM in the layout of Table 7-7, where firmware may read and write it; what the layout does not hold (framing still to be
placed) stands beside it. -/

/-- The HBM address of a gather slot. -/
def gatherAt (s : Nat) : Nat := Config.gatherBase + 34816 * s

/-- A slot in the layout of Table 7-7. -/
def GSlot.image (g : GSlot) : List Byte :=
  let len : List Nat → List Byte := fun l => l.map (fun x => BitVec.ofNat 8 x)
  fit 0 34816 (List.replicate (32768 - g.hist.length) (0 : Byte) ++ (g.hist.take 32768).reverse ++
    leBytes 8 ((bnat g.live <<< 63) + (bnat g.hdr <<< 62) + (g.mode <<< 60) + (g.tslot <<< 56) + (g.dir <<< 55) + (g.frame <<< 53) +
      g.nextin) ++
    leBytes 8 g.accn ++ leBytes 8 g.acc ++ leBytes 8 ((g.plen <<< 32) + g.pdist) ++ leBytes 8 ((g.crcs <<< 32) + g.outn) ++
    leBytes 8 (if g.dir = 0 then g.blkin <<< 32 else g.inbit) ++ leBytes 8 ((g.adler <<< 32) + g.crc32) ++ leBytes 8 0 ++
    fit 0 288 (len g.ll) ++ fit 0 32 (len g.dl))

/-- The slot that an image shows, `g` giving what Table 7-7 does not hold. -/
def GSlot.ofImage (g : GSlot) (b : List Byte) : GSlot :=
  let f := dword (b.drop 32768)
  let nextin := f 0 31 0
  let dir := f 0 55 55
  let ns := fun (o n : Nat) => ((b.drop o).take n).map (fun x => x.toNat)
  { g with
    live := f 0 63 63 = 1, hdr := f 0 62 62 = 1, mode := f 0 61 60, tslot := f 0 59 56, dir := dir, frame := f 0 54 53, nextin := nextin
    accn := f 1 5 0, acc := f 2 63 0, plen := f 3 40 32, pdist := f 3 16 0, crcs := f 4 63 32, outn := f 4 31 0
    blkin := if dir = 0 then f 5 63 32 else g.blkin, inbit := if dir = 0 then g.inbit else f 5 63 0
    adler := f 6 63 32, crc32 := f 6 31 0, hist := (((b.take 32768).drop (32768 - min 32768 nextin)).reverse)
    ll := ns 0x8040 288, dl := ns 0x8160 32 }

/-- LIVE of a slot as its image has it. -/
def Head.gatherLive (h : Head) (s : Nat) : Bool := bit (leNat (h.unitRead false (gatherAt s + 0x8007) 1).1) 7

/-- A gather slot: as the units left it, or as firmware has written its image since. -/
def Head.gslot (h : Head) (s : Nat) : Option GSlot :=
  match look none h.red.gslots s with
  | some g =>
    let b := (h.unitRead false (gatherAt s) 34816).1
    some (if b = g.image then g else g.ofImage b)
  | none => if h.gatherLive s then some (GSlot.blank.ofImage (h.unitRead false (gatherAt s) 34816).1) else none

/-- The head with a gather slot put in place, in HBM too; or unbound: LIVE is 0. -/
def Head.setGslot (h : Head) (s : Nat) (g : Option GSlot) : Head :=
  let h := { h with red := { h.red with gslots := place none h.red.gslots s g } }
  match g with
  | some g => h.unitWrite false (gatherAt s) g.image (fun _ => false)
  | none => h.unitWrite false (gatherAt s + 0x8007) [0] (fun _ => false)

/-- The gather of a stream context discarded (R173): the partial container is abandoned, its chunk begins again from its first byte, for
which it waits for a slot. -/
def Head.dropGather (h : Head) (s : Nat) : Head :=
  let mine := fun (c : Chunk) => decide (c.st = .packing s)
  if !h.gatherLive s && (look none h.red.gslots s).isNone && !(h.red.extents.any (fun e => e.chunks.any mine)) then h
  else
    let h := h.setGslot s none
    { h with red := { h.red with
      extents := h.red.extents.map (fun e => { e with
        chunks := e.chunks.map (fun c => if mine c then { c with st := .unique, cont := [] } else c) })
      waits := h.red.waits.put 0 (h.red.waits.s0.filter (fun r => match r.who with | .pack _ _ => r.slot ≠ s | _ => true))
      units := h.red.units.filter (fun u => match u.2.cur with
        | some r => (match r.who with | .pack _ _ => r.slot ≠ s | _ => true)
        | none => true) } }

/-- Every gather of a chunk in progress discarded: the pair has lost a head, or hands over (R173). -/
def Head.dropGathers (h : Head) : Head :=
  let l := h.red.extents.flatMap (fun e => e.chunks.filterMap (fun c => match c.st with | .packing s => some s | _ => none))
  l.foldl (fun h s => h.dropGather s) h

/-! ## Extents given up -/

/-- The reference a chunk of an extent holds, 0 for none. -/
def Chunk.cref (c : Chunk) (pool side : Nat) : Nat :=
  match c.st with
  | .dup r => r.toNat
  | .stored n => mkCref pool side n
  | _ => 0

/-- An extent given up: the references that its chunks hold, until its map entries are written, and its gather slots are released. -/
def Head.dropExtent (h : Head) (pool : Nat) (e : Extent) : Head :=
  let h := e.chunks.foldl (fun h c => match c.st with | .packing s => h.dropGather s | _ => h) h
  let h := if e.tag.isNone then e.chunks.foldl (fun h c => (h.dropRef (c.cref pool e.side)).1) h else h
  { h with red := { h.red with extents := h.red.extents.filter (fun x => x.id ≠ e.id) } }

/-- The answer of a register write that waited for the end of a deletion (R225, R226). -/
def Head.ended (h : Head) (pool : Bool) (n : Nat) : Head :=
  if h.vols.ends.contains (pool, n) then
    ({ h with vols := { h.vols with ends := h.vols.ends.filter (fun x => x ≠ (pool, n)) } }).answer .ok 0 []
  else h

/-! ## Compression and decompression units (R201, R202) -/

/-- A unit that is idle. -/
def DUnit.blank : DUnit := ⟨none, 0⟩

/-- A compression (0 to 15) or decompression (16 to 39) unit, and the kind it is of. -/
def Head.dunit (h : Head) (u : Nat) : DUnit := look DUnit.blank h.red.units u
def unitKind (u : Nat) : Nat := if u < 16 then 0 else 1

/-- The head with a unit replaced, with the requests that wait for a kind replaced. -/
def Head.setDunit (h : Head) (u : Nat) (x : DUnit) : Head :=
  { h with red := { h.red with units := place DUnit.blank h.red.units u x } }
def Head.setWaits (h : Head) (k : Nat) (l : List UReq) : Head :=
  { h with red := { h.red with waits := h.red.waits.put k l } }

/-- A static table that is loaded. -/
def Head.huff (h : Head) (s : Nat) : Option Huff := look none h.red.huff s

/-- The slot number of a request that names no gather slot. -/
def noSlot : Nat := 65536

/-- A waiting request may be taken (R202): no unit works on its slot, none that has begun waits with it, and no request
before it names it. A request that gave up its unit after a span waits as the youngest (DEDUCED, log entry 36). -/
def Head.unitFree (h : Head) (before : List UReq) (all : List UReq) (r : UReq) : Bool :=
  decide (noSlot ≤ r.slot) ||
  (!(h.red.units.any (fun u => match u.2.cur with | some c => c.slot = r.slot | none => false)) &&
    (decide (0 < r.wr) || !((before ++ all.filter (fun x => decide (0 < x.wr))).any (fun x => x.slot = r.slot))))

/-- The requests of a list that may be taken, in order. -/
def Head.unitReady (h : Head) (all : List UReq) : List UReq :=
  ((upto all.length).filterMap (fun i => (all[i]?).bind (fun r => if h.unitFree (all.take i) all r then some r else none)))

/-- A unit request of a command under a contract, or of data of one. -/
def Head.unitCon (h : Head) (r : UReq) : Bool :=
  let verb := fun (vid : Nat) => h.work.verbs.any (fun v => v.vid = vid && (match h.caller v with | some c => c.con | none => false))
  match r.who with
  | .verb vid => verb vid
  | .pack ext _ => h.red.extents.any (fun e => e.id = ext && e.con)
  | .unpack (.verb vid) => verb vid
  | _ => false

/-- From THROT on best-effort requests have at most half of the units of a kind (R475: "half of its share"; DESIGN CHOICE, log entry 36). -/
def Head.unitMay (h : Head) (k : Nat) (r : UReq) : Bool :=
  !h.sys.power.thr || h.unitCon r ||
    decide ((h.red.units.filter (fun u => unitKind u.1 = k && (match u.2.cur with | some q => !(h.unitCon q) | none => false))).length <
      (if k = 0 then 8 else 12))

/-- An idle unit takes the next request (R202): the oldest of priority 0, after 7 of those in a row the oldest of
priority 1. Nothing is taken while DI does not run: the crossings into it take no word (R469 step 2). -/
def Head.unitTake (h : Head) (u : Nat) : Head :=
  let x := h.dunit u
  if x.cur.isSome || !h.runs 15 then h
  else
    let all := h.red.waits.at (unitKind u)
    let ok := (h.unitReady all).filter (h.unitMay (unitKind u))
    let p0 := ok.find? (fun r => r.prio = 0)
    let p1 := ok.find? (fun r => r.prio ≠ 0)
    match (if 7 ≤ x.run0 && p1.isSome then p1 else if p0.isSome then p0 else p1) with
    | none => h
    | some r =>
      (h.setWaits (unitKind u) (all.filter (fun q => q.who ≠ r.who))).setDunit u
        ⟨some r, if r.prio = 0 then min 7 (x.run0 + 1) else 0⟩

/-- Idle units of a kind take what waits. -/
def Head.unitsTake (h : Head) (k : Nat) : Head :=
  (if k = 0 then upto 16 else (upto 24).map (fun i => 16 + i)).foldl (fun h u => h.unitTake u) h

/-- Units take what waited for DI to run (R469 step 6). -/
def Head.unitsGo (h : Head) : Head :=
  if (h.red.waits.s0.isEmpty && h.red.waits.s1.isEmpty) || !h.runs 15 then h else (h.unitsTake 0).unitsTake 1

/-- A request joins those that wait for a unit of a kind. -/
def Head.unitJoin (h : Head) (k : Nat) (r : UReq) : Head := (h.setWaits k (h.red.waits.at k ++ [r])).unitsTake k

/-- A reader asks a decompression unit for the bytes of its containers. Reads for GET and destage have priority 0, others 1 (R202). -/
def Head.unpackAsk (h : Head) (who : Reader) (size : Nat) : Head :=
  h.unitJoin 1 ⟨.unpack who, noSlot, size, match who with | .verb _ => 0 | .afresh _ _ => 0 | _ => 1, 0, 0⟩

/-- A reader's request waits at a decompression unit, or is at work there. -/
def Head.unpacking (h : Head) (r : Reader) : Bool :=
  h.red.waits.s1.any (fun q => q.who = .unpack r) || h.red.units.any (fun u => match u.2.cur with | some q => q.who = .unpack r | none => false)

/-! ## The chunks behind a range of a volume (R66, R222, R228) -/

/-- Byte `o` of a volume as of epoch `e` comes from flash: its newest write is destaged. -/
def byteOnFlash : Nat → List Volume → Nat → Nat → Nat → Bool
  | 0, _, _, _, _ => false
  | fuel + 1, vs, v, e, o =>
    match vs.find? (fun x => x.num = v) with
    | none => false
    | some x =>
      match x.writes.find? (fun w => decide (w.epoch ≤ e) && decide (w.off ≤ o) && decide (o < w.off + w.len)) with
      | some w => w.done
      | none =>
        match x.parent with
        | some p => byteOnFlash fuel vs p.1 p.2 o
        | none => false

/-- A piece of a volume that stands on flash: its offset in the volume, the chunk it is cut from, its offset there, its bytes. -/
structure FlashPiece where
  off  : Nat
  cref : Nat
  coff : Nat
  len  : Nat
deriving DecidableEq, Repr

/-- The pieces of flash that a read of a range touches, as of an epoch. -/
def Head.flashPieces (h : Head) (v e off n : Nat) : List FlashPiece :=
  if n = 0 then []
  else
    ((upto ((off + n - 1) / 1048576 + 1 - off / 1048576)).map (fun k =>
      let u := off / 1048576 + k
      let lo := max off (u * 1048576)
      let hi := min (off + n) (u * 1048576 + 1048576)
      ((unitPieces 9 h.vols.vols v e u (lo - u * 1048576) (hi - lo)).foldl (fun (acc : List FlashPiece × Nat) p =>
        (if p.1 ≠ 0 && (upto p.2.2).any (fun i => byteOnFlash 9 h.vols.vols v e (acc.2 + i)) then acc.1 ++ [⟨acc.2, p.1, p.2.1, p.2.2⟩]
          else acc.1, acc.2 + p.2.2)) ([], lo)).1)).flatten

/-- The chunks of pieces, each once; none for a reference that the chunk table does not hold. -/
def pieceChunks (ps : List FlashPiece) : List Nat :=
  ps.foldl (fun l p => if l.contains p.cref then l else l ++ [p.cref]) []

/-- A reader asks for every codeword of some chunks. -/
def Head.askChunks (h : Head) (who : Reader) (crefs : List Nat) (con : Bool) : Head :=
  crefs.foldl (fun h c => match (h.chunk c).bind h.chunkCws with
    | some x => h.ask who x.1.num x.2 con
    | none => h) h

/-- Bytes that decompression gives of some chunks; a RAW container needs none. -/
def Head.unpackBytes (h : Head) (crefs : List Nat) : Nat :=
  sum (crefs.map (fun c => match h.chunk c with
    | some k => (match h.bandOf k with
      | some b => if isRaw (pieceBytes (b.pieces (.chunk k.chunk))) then 0 else k.llen
      | none => 0)
    | none => 0))

/-- A reader waits for the codewords of some chunks, and then for the unit that decompresses them; true once both are there. -/
def Head.readStep (h : Head) (who : Reader) (crefs : List Nat) : Head × Bool :=
  let h := h.askChunks who crefs false
  if !(h.gotAll who) then (h, false)
  else if h.red.opened.contains who then (h, true)
  else
    let n := h.unpackBytes crefs
    if n = 0 then (h, true) else if h.unpacking who then (h, false) else (h.unpackAsk who n, false)

/-- A reader has what it waited for. -/
def Head.readEnd (h : Head) (who : Reader) : Head :=
  let h := h.unask who
  { h with red := { h.red with opened := h.red.opened.filter (fun r => r ≠ who) } }

/-- Some chunks opened, each once (R196, R197). -/
def Head.openAll (h : Head) (who : Reader) (crefs : List Nat) : Head × List (Nat × ChunkRead) :=
  let gone := h.poisonFor who
  crefs.foldl (fun (acc : Head × List (Nat × ChunkRead)) c =>
    match acc.1.chunk c with
    | none => (acc.1, acc.2 ++ [(c, .bad)])
    | some k =>
      let x := acc.1.openChunk k gone
      (x.1, acc.2 ++ [(c, x.2)])) (h, [])

/-- What a read of a range gives: its bytes, the granules of it that are poisoned, the offset of the first chunk that fails (R66). -/
structure RangeRead where
  bytes : List Byte
  bad   : List Nat
  fails : Option Nat

/-- A range of a volume read, what stands on flash from the chunks opened, the rest from the lehr. -/
def Head.readRange (h : Head) (v e off n : Nat) (ps : List FlashPiece) (got : List (Nat × ChunkRead)) : RangeRead :=
  let what := fun (p : FlashPiece) => match got.find? (fun x => x.1 = p.cref) with | some x => x.2 | none => .bad
  let bad := (granules off n).filter (fun g => h.granulePoisoned v g ||
    ps.any (fun p => what p = .poison && meets (p.off, p.len) (g * 4096, 4096)))
  let bytes := (upto n).map (fun i =>
    let o := off + i
    if bad.contains (o / 4096) then 0
    else
      match (if byteOnFlash 9 h.vols.vols v e o then ps.find? (fun p => decide (p.off ≤ o) && decide (o < p.off + p.len)) else none) with
      | some p => (match what p with | .bytes l => nth 0 l (p.coff + (o - p.off)) | _ => 0)
      | none => (volByte 9 h.vols.vols v e o).getD 0)
  ⟨bytes, bad, (ps.find? (fun p => what p = .bad)).map (fun p => p.off)⟩

/-- The granules that a read of a range cannot give: the poisoned ones, and those of chunks that fail R197 unrepaired. -/
def RangeRead.lost (r : RangeRead) (off n : Nat) (ps : List FlashPiece) (got : List (Nat × ChunkRead)) : List Nat :=
  (granules off n).filter (fun g => r.bad.contains g ||
    ps.any (fun p => meets (p.off, p.len) (g * 4096, 4096) && (match got.find? (fun x => x.1 = p.cref) with | some (_, .bytes _) => false | _ => true)))

/-- A range of a volume read whole for a reader whose codewords have come: its bytes, none in a granule that it cannot have. -/
def Head.readWhole (h : Head) (who : Reader) (v e off n : Nat) : Head × List (Option Byte) :=
  let ps := h.flashPieces v e off n
  let x := h.openAll who (pieceChunks ps)
  let h := x.1.readEnd who
  let r := h.readRange v e off n ps x.2
  let lost := r.lost off n ps x.2
  (h, (upto n).map (fun i => if lost.contains ((off + i) / 4096) then none else r.bytes[i]?))

/-! ## Poison maps (R66) -/

/-- The poison map of granules, packed in bytes (R66). -/
def packBits : List Bool → List Byte
  | a :: b :: c :: d :: e :: f :: g :: i :: r =>
    BitVec.ofNat 8 (leNat [BitVec.ofNat 8 (bnat a + 2 * bnat b + 4 * bnat c + 8 * bnat d + 16 * bnat e + 32 * bnat f + 64 * bnat g +
      128 * bnat i)]) :: packBits r
  | [] => []
  | l => [BitVec.ofNat 8 ((l.zip (upto 8)).foldl (fun n x => n + bnat x.1 * 2 ^ x.2) 0)]

end Sys2Proof.Machine
end

