-- ==== Sys2Proof/Machine/RepCycle.lean ====
section
/-! DEFINITION. A cycle of a replication slot (R310): what it sends, the client's programs and entries, the reading and sending of a unit.
That units go one at a time, through one window of a unit's size, is the model's choice (DESIGN CHOICE, log entry 39). -/

namespace Sys2Proof.Machine

/-! ## What a cycle sends (R310) -/

/-- Bytes of a unit (R229). -/
def repUnit : Nat := 1048576

/-- A write of which the map does not speak yet and that is not a DROP. -/
def VWrite.undone (w : VWrite) (lo hi : Nat) : Bool := !w.done && w.data ≠ .zeros && decide (lo < w.epoch ∧ w.epoch ≤ hi)

/-- Units of a volume and of its clone parents that an entry or a write not yet destaged touches. -/
def repUnits : Nat → List Volume → Nat → List Nat
  | 0, _, _ => []
  | fuel + 1, vs, v =>
    match vs.find? (fun x => x.num = v) with
    | none => []
    | some x =>
      (x.map ++ x.emap).map (fun m => m.unit / 65) ++
      (x.writes.flatMap (fun w => if w.done || w.len = 0 then [] else
        (upto ((w.off + w.len - 1) / repUnit + 1 - w.off / repUnit)).map (fun k => w.off / repUnit + k))) ++
      (match x.parent with | some p => repUnits fuel vs p.1 | none => [])

/-- The EPOCH with which a unit resolves as of epoch `e`, and whether it resolves as HOLE or UNMAPPED (R305, R307). -/
def repEpoch : Nat → List Volume → Nat → Nat → Nat → Nat × Bool
  | 0, _, _, _, _ => (0, true)
  | fuel + 1, vs, v, e, u =>
    match vs.find? (fun x => x.num = v) with
    | none => (0, true)
    | some x =>
      let up := match x.parent with | some p => repEpoch fuel vs p.1 p.2 u | none => (0, true)
      match x.entryAt (u * 65) e with
      | none => up
      | some m =>
        match m.kind with
        | .unmapped => if x.parent.isSome then up else (m.epoch, true)
        | .hole => (m.epoch, true)
        | .recipe _ => (m.epoch, false)
        | .fine =>
          ((upto 64).foldl (fun n f => match x.entryAt (u * 65 + 1 + f) e with | some y => max n y.epoch | none => n) m.epoch, false)

/-- Writes not yet destaged that a unit has as of epoch `e`, born after `lo`; a parent's are of cycle 1. -/
def repFresh : Nat → List Volume → Nat → Nat → Nat → Nat → Bool
  | 0, _, _, _, _, _ => false
  | fuel + 1, vs, v, lo, e, u =>
    match vs.find? (fun x => x.num = v) with
    | none => false
    | some x =>
      x.writes.any (fun w => w.undone lo e && meets (w.off, w.off + w.len) (u * repUnit, (u + 1) * repUnit)) ||
      (match x.parent with
       | some p => lo = 0 && repFresh fuel vs p.1 0 p.2 u
       | none => false)

/-- Ascending without repeats. -/
def distinct (l : List Nat) : List Nat := sortNat (l.foldl (fun (acc : List Nat) x => if acc.contains x then acc else x :: acc) [])

/-- What a cycle sends of one member: units changed between two epochs, in ascending order; true for a DROP. -/
def Head.repTodo (h : Head) (v lo e : Nat) : List (Nat × Bool) :=
  let vs := h.vols.vols
  (distinct (repUnits 9 vs v)).filterMap (fun u =>
    if repFresh 9 vs v lo e u then some (u, false)
    else
      let x := repEpoch 9 vs v e u
      if lo < x.1 then some (u, x.2) else none)

/-- The members of a subject in ascending order (R309). -/
def Head.repMembers (h : Head) (x : Rep) : List Nat :=
  if x.group then h.members x.subj else if (h.vol x.subj).isSome then [x.subj] else []

/-- The epoch of a member that a cut or epoch of the subject names; 0 where there is none. -/
def Head.repEpochOf (h : Head) (x : Rep) (m e : Nat) : Nat :=
  if !x.group then e
  else
    match h.vol m with
    | none => 0
    | some v => (match v.snaps.find? (fun s => s.group = x.subj && s.cut = e) with | some s => s.epoch | none => 0)

/-- The side on which a slot's subject stands. -/
def Head.repSide (h : Head) (x : Rep) : Nat :=
  match h.repMembers x with
  | m :: _ => (match h.vol m with | some v => v.home | none => h.side)
  | [] => h.side

/-! ## The client -/

/-- A replication slot with what is new in it. -/
def Head.putRep (h : Head) (r : Nat) (x : Rep) : Head := (h.setRep r (some x)).1

/-- The words that bring a value into a register: LI, and LIH where bits 63 to 48 are not those that LI's sign gives. -/
def clientLoad (rd : Nat) (v : Word) : List Word :=
  pack [(58, 0x03), (49, rd), (0, v.toNat % 2 ^ 48)] ::
    (if (v.truncate 48).signExtend 64 = v then [] else [pack [(58, 0x04), (49, rd), (0, v.toNat / 2 ^ 48)]])

/-- The program that issues one verb (Table 2-3): its operands from g1 on, the verb with W = 1 and its result in g8, END g8. -/
def clientProgram (vc : Nat) (ops : List Word) (imm : Nat) : List Word :=
  ((upto ops.length).zip ops).flatMap (fun o => clientLoad (o.1 + 1) o.2) ++
    [pack [(58, 0x30), (49, 8), (44, bnat (!ops.isEmpty)), (41, ops.length), (33, vc), (32, 1), (0, imm)], pack [(58, 0x13), (44, 8)]]

/-- The submission entry (Table 3-1) of a verb for the target of a replication slot, on the slot's ordered stream. -/
def clientEntry (r tag vc : Nat) (ops : List Word) (imm : Nat) : Entry :=
  let p := clientProgram vc ops imm
  { h0 := pack [(32, tag), (16, Config.targetQueue r % 65536), (0, Config.targetStream r % 65536)]
    h1 := pack [(40, Config.targetSlot r % 64), (16, 1), (0, p.length)], h2 := 0, h3 := 0
    inl := fit 0 96 (p.flatMap (fun w => leBytes 8 w.toNat)) }

/-- A verb submitted to the target on the slot's stream; `vc`, operands and IMM are what its program issues. -/
def Head.repSubmit (h : Head) (r : Nat) (x : Rep) (n vc : Nat) (ops : List Word) (imm : Nat) : Head :=
  let h := h.reliable' n (.submit (Config.targetQueue r % 65536) x.slot [(clientEntry r x.slot vc ops imm).bytes])
  h.putRep r { x with tag := x.slot, slot := (x.slot + 1) % 4294967296, left := 1 }

/-- A verb submitted whose completion nobody awaits. -/
def Head.repSubmitFree (h : Head) (r : Nat) (x : Rep) (n vc : Nat) (ops : List Word) : Head × Rep :=
  (h.reliable' n (.submit (Config.targetQueue r % 65536) x.slot [(clientEntry r x.slot vc ops 0).bytes]),
   { x with slot := (x.slot + 1) % 4294967296 })

/-- Bytes sent into the target's window, the last packet with its last flag (R136). -/
def Head.repWrite (h : Head) (n maxpay : Nat) (win : Word) (b : List Byte) : Head :=
  let k := ceilDiv b.length (max 1 maxpay)
  (upto k).foldl (fun h i =>
    let part := (b.drop (i * maxpay)).take maxpay
    h.reliable' n (.write (refKey win) (refGen win) (i * maxpay) part (i + 1 = k))) h

/-- The next verb of a cycle (R310 steps 2 and 3). -/
def Head.repNext (h : Head) (r : Nat) (x : Rep) (c : Conn) : Head :=
  let base := dword x.descr 2 47 32
  match x.todo with
  | [] =>
    let subj := if x.group then dword x.descr 2 31 22 else base
    h.repSubmit r { x with phase := 6 } c.num 0x08 [BitVec.ofNat 64 subj] (bnat x.group)
  | (k, u, drop) :: _ =>
    let vol := BitVec.ofNat 64 (base + k)
    let off := BitVec.ofNat 64 (u * repUnit)
    if drop then h.repSubmit r { x with phase := 5 } c.num 0x06 [vol, off, BitVec.ofNat 64 repUnit] 0
    else h.putRep r { x with phase := 7 }

/-- A unit to be sent has been read (R310): its bytes go into the target's window, the PUT of them follows. Bytes that the read cannot give
go as free values, since the spec does not say what a client sends for them (DESIGN CHOICE, log entry 39). -/
def Head.repSend (h : Head) (r : Nat) (x : Rep) (c : Conn) (m e k u : Nat) : Head :=
  let y := h.readWhole (.rep r) m e (u * repUnit) repUnit
  let b := y.2.map (fun b => b.getD (Config.freeByte h.fresh))
  (y.1.repWrite c.num c.maxpay x.win b).repSubmit r { x with phase := 5 } c.num 0x01
    [BitVec.ofNat 64 (dword x.descr 2 47 32 + k), BitVec.ofNat 64 (u * repUnit), x.win, BitVec.ofNat 64 repUnit] 0

/-- A slot whose unit is being read from flash goes on once its chunks have come and are decompressed (R202, R222). -/
def Head.stepRep (h : Head) (r : Nat) : Head × Bool :=
  match h.rep r with
  | none => (h, false)
  | some x =>
    match x.todo, x.conn.bind h.conn with
    | (k, u, false) :: _, some c =>
      if x.phase ≠ 7 || !(h.serves (h.repSide x)) then (h, false)
      else
        let m := nth 0 (h.repMembers x) k
        let e := h.repEpochOf x m (x.cur.getD 0)
        let y := h.readStep (.rep r) (pieceChunks (h.flashPieces m e (u * repUnit) repUnit))
        if y.2 then (y.1.repSend r x c m e k u, true) else (y.1, decide (h.fl.wants.length < y.1.fl.wants.length))
    | _, _ => (h, false)

end Sys2Proof.Machine
end

