-- ==== Sys2Proof/Machine/Settle.lean ====
section
/-! DEFINITION. How commands move on (R61-R63, R75, R97-R103, R139, R148-R159, R226): commit points in stream order,
writes that become durable and final, answers of verbs, final records, completion records, the end of a QRESET, of a
volume's deletion. `Head.settle` does everything that the present state allows; every command of the block that could
let a journal record, a verb or a queue go on ends with it. -/

namespace Sys2Proof.Machine

/-- The head with its outstanding verbs replaced. -/
def Head.setVerbs (h : Head) (l : List HVerb) : Head := { h with work := { h.work with verbs := l } }

/-- The head with one outstanding verb changed. -/
def Head.updVerb (h : Head) (vid : Nat) (f : HVerb → HVerb) : Head :=
  h.setVerbs (mapFirst (fun v => v.vid = vid) f h.work.verbs)

/-- Host verbs that give a second result (Table 3-5). -/
def givesAux (vc : Nat) : Bool := vc = 3 || vc = 4 || vc = 0x14 || vc = 0x15

/-- The verbs of commit-point code C (Table 3-5), STATE.GET and STATE.SET among them. -/
def codeC (vc : Nat) : Bool := vc = 3 || (decide (0x10 ≤ vc) && decide (vc ≤ 0x15)) || vc = 0x20 || vc = 0x21

/-- An action of R418 is recorded: INSTALLER_ONLY for an installer-only action refused, MAKER_ACCESS under a maker slot,
else PRIV_ACTION. The source is the queue, or the head for an action over SMBus. -/
def Head.audit (h : Head) (slot : Nat) (queue : Option Nat) (action status : Nat) (refused : Bool) : Head :=
  let code := if refused then 0x0204 else if slotTier slot = Tier.M then 0x0205 else 0x0203
  let sev := if code = 0x0203 then 0 else 1
  match queue with
  | some q => h.event code sev slot 3 q action status 0
  | none => h.event code sev slot 0 0 action status 1

/-- The verbs that only an installer may issue (Table 14-1). -/
def installerOnly (vc : Nat) : Bool := vc = 0x16 || vc = 0x1A || vc = 0x1B || vc = 0x1C

/-- A verb whose tier is I, so that R418 records it: QRESET of a queue that the slot does not own. -/
def Head.audited (h : Head) (v : HVerb) (c : Cmd) : Bool :=
  installerOnly v.vc || v.vc = 0x18 || (v.vc = 0x17 && c.cred ≠ h.cfgS c.side .QCFG (v.arg 0) 55 48)

/-- The verb is a write of at least one byte that has its source held and its range fixed. -/
def HVerb.writes (v : HVerb) : Bool := match v.op with | some p => decide (0 < p.len) | none => false

/-- A MARK of a command has passed its own commit point, or has failed (R153). -/
def Cmd.marked (c : Cmd) (v : HVerb) (on : Bool) : Cmd :=
  if !on then c
  else if v.imm % 2 = 1 then { c with marksS := c.marksS + 1 } else { c with marksQ := c.marksQ + 1 }

/-- A verb is answered: the answer is logged for its command (R163), reaches its thread, is recorded where R418 says so,
and the verb is forgotten but for a write whose bytes the final state will move. Where several verbs of a program give a second result,
AUX of the completion record is that of the last one answered (DESIGN CHOICE, log entry 90: R60 names one verb). -/
def Head.answerVerb (h : Head) (v : HVerb) (a : VRes) : Head :=
  let h := h.setVerbs (if v.op.isSome then
      h.work.verbs.map (fun x => if x.vid = v.vid then { x with ans := some a, aw := .nothing } else x)
    else h.work.verbs.filter (fun x => x.vid ≠ v.vid))
  let h := match h.caller v with
    | none => h
    | some c =>
      let k := (c.side, c.seq)
      let h := (h.logVerb k v.vc a).updCmd k (fun c =>
        { (c.marked v (v.vc = 5 && !v.past)) with
          aux := if givesAux v.vc then a.aux else c.aux, pmap := c.pmap || a.pmap, cp := c.cp || (v.past && !v.codeC)
          wrote := c.wrote || (!c.cp && v.past && v.writes) })
      if h.audited v c then
        h.audit c.cred (some c.queue) v.vc a.status.code (installerOnly v.vc && slotTier c.cred = Tier.M)
      else h
  h.giveThread v.t v.vid a

/-! ## When a command may pass its commit point -/

/-- A command has passed its commit point, or is final (R63, R151). -/
def Cmd.through (c : Cmd) : Bool := c.passed || c.isFinal

/-- Commands accepted before a command, of either side. -/
def Head.before (h : Head) (c : Cmd) : List Cmd := h.work.cmds.takeWhile (fun d => !(d.side = c.side && d.seq = c.seq))

/-- Commands of the same side accepted before a command. -/
def Head.earlier (h : Head) (c : Cmd) : List Cmd := (h.before c).filter (fun d => d.side = c.side)

/-- Two commands of one ordered stream. -/
def Cmd.sameStream (c d : Cmd) : Bool := c.ord && d.ord && c.side = d.side && c.stream = d.stream

/-- The MARKs of a scope in a command's program may still hold later commands back (R153): not all of them have passed their commit
points, and the program has not ended without them. -/
def Head.marksOpen (h : Head) (d : Cmd) (stream : Bool) : Bool :=
  !d.isFinal && decide ((if stream then d.marksS else d.marksQ) < (if stream then d.markS else d.markQ)) &&
    (!d.ended || h.work.verbs.any (fun x => x.cmd = some (d.side, d.seq) && x.vc = 5 && !x.past && x.ans.isNone))

/-- R63 and R153 let a command pass its commit point: every earlier command of its stream has passed its own or is final, and so has
every earlier MARK whose scope holds it. -/
def Head.mayCommit (h : Head) (c : Cmd) : Bool :=
  (h.earlier c).all (fun d =>
    (d.through || !d.sameStream c) && !(d.queue = c.queue && h.marksOpen d false) && !(d.sameStream c && h.marksOpen d true))

/-- A PUTA to a volume that has not passed its commit point. -/
def HVerb.appends (x : HVerb) (vol : Nat) : Bool := !x.past && (match x.aw with | .put p => p.append && p.vol = vol | _ => false)

/-- R64: of the commands accepted before, every one that has or may still issue a PUTA to the volume has passed its commit point, and
of the command's own verbs every earlier PUTA to it. -/
def Head.mayAppend (h : Head) (v : HVerb) (c : Cmd) (vol : Nat) : Bool :=
  !(h.work.verbs.any (fun x => decide (x.vid < v.vid) && x.cmd = v.cmd && x.appends vol)) &&
  (h.before c).all (fun d => d.through || (!d.await && !holdsVerb d.prog 2) ||
    (d.ended && !(h.work.verbs.any (fun x => x.cmd = some (d.side, d.seq) && x.appends vol))))

/-- A verb's command may pass its commit point, or has done so; firmware is bound by nothing. -/
def Head.verbMay (h : Head) (v : HVerb) : Bool :=
  match h.caller v with
  | none => v.cmd.isNone
  | some c => (match c.phase with | .accepted => h.mayCommit c | _ => true)

/-! ## Writes (R69-R72, R168, R279) -/

/-- A re-run write is the one that took its command past its commit point (R164, R168): the command is COMMITTED, and no other
verb of it that is logged or outstanding could have done so. -/
def Head.vpassed (h : Head) (v : HVerb) : Bool :=
  match h.caller v with
  | none => false
  | some c =>
    c.passed && !(c.log.any (fun e => !codeC e.vc && e.status.final = .completed)) &&
      !(h.work.verbs.any (fun x => x.cmd = v.cmd && x.vid ≠ v.vid && x.past && !x.codeC))

/-- The ranges of a write whose source granules carry poison although it is past its commit point (R168): they become poison
markers. -/
def Head.poisonRanges (h : Head) (v : HVerb) (p : PutOp) : List (Nat × Nat) :=
  match p.src with
  | .inl b =>
    let ps := match h.caller v with | some c => c.pages.take 1 | none => []
    if h.pagesPoisoned ps 0 128 then [(0, b.length)] else []
  | .win key _ woff =>
    match h.window (h.vside v) key with
    | none => []
    | some w => ((upto (ceilDiv p.len 4096)).filter (fun g => h.winPoisoned w (woff + 4096 * g) (min 4096 (p.len - 4096 * g)))).map
        (fun g => (4096 * g, min 4096 (p.len - 4096 * g)))

/-- What the source of a write gives: it still waits (none), it fails, or its bytes with the lehr pages that hold them
and the time from which a delivery bound counts. -/
def Head.putSource (h : Head) (v : HVerb) (p : PutOp) : Option (Except Status (List Byte × List Nat × Nat)) :=
  match p.src with
  | .inl b =>
    let ps := match h.caller v with | some c => c.pages.take 1 | none => []
    if decide (0 < p.len) && h.pagesPoisoned ps 0 128 && !h.vpassed v then some (.error .poison)
    else if h.placesLanded ps then some (.ok (b.take p.len, ps, 0)) else none
  | .win key gen woff =>
    match h.window (h.vside v) key with
    | none => some (.error .windowStale)
    | some w =>
      if w.gen ≠ gen then some (.error .windowStale)
      else if p.len = 0 then some (.ok ([], [], 0))
      else if w.state ≠ .sealed then none
      else if !covered w.placed woff p.len then some (.error .lengthShort)
      else if h.winPoisoned w woff p.len && !h.vpassed v then some (.error .poison)
      else
        let ps := (w.pages.drop (woff / 65536)).take ((woff + p.len - 1) / 65536 + 1 - woff / 65536)
        if h.placesLanded ps then some (.ok (h.winBytes w woff p.len, ps, w.sealAt)) else none

/-- An atomic write gives up its slot without having written (R298). -/
def Head.freeAtom (h : Head) (vid : Nat) : Head :=
  (h.vols.atoms.filter (fun a => a.vid = vid)).foldl (fun h a =>
    ({ h with vols := { h.vols with atoms := h.vols.atoms.filter (fun x => x.vid ≠ vid) } }).record' (.atomic a true)) h

/-- A contracted write passes its own commit point: the bucket (R99) and the start of its bound (R100). -/
def Head.meter (h : Head) (v : HVerb) (len sealAt : Nat) : Head :=
  match h.caller v with
  | none => h
  | some c =>
    if !c.con then h
    else
      let x := h.bucket c.contract len (c.side, c.seq, v.k)
      let k := (c.side, c.seq)
      let h := x.1.updCmd k (fun c => { c with bound := some (max c.accAt sealAt) })
      if x.2 then h
      else h.setCmds (h.work.cmds.map (fun d =>
        if d.sameStream c && decide (c.seq ≤ d.seq) || (d.side = c.side && d.seq = c.seq) then
          { d with conform := false } else d))

/-- A PUT or PUTA goes as far as it can: fails, waits, or has its source held and its range fixed (code L). -/
def Head.stepPut (h : Head) (v : HVerb) (p : PutOp) : Head × Bool :=
  let failed := fun (s : Status) => (((h.freeAtom v.vid).answerVerb v (.fail s)), true)
  match h.putSource v p with
  | none => (h, false)
  | some (.error s) => failed s
  | some (.ok (b, pages, sealAt)) =>
    match h.caller v with
    | none => failed .invalid
    | some c =>
      if !h.verbMay v || (p.append && !h.mayAppend v c p.vol) then (h, false)
      else
        match h.volFor v p.vol with
        | none => failed .invalid
        | some x =>
          let key := (c.side, c.seq, v.k)
          let before := if p.append then (x.fixed.find? (fun f => f.1 = key)).map (fun f => f.2) else none
          let off := p.off.getD (before.getD x.vend)
          if pastEnd off p.len then failed .invalid
          else
            let y := if p.append && decide (0 < p.len) && before.isNone then
                h.updVol p.vol (fun x => { x with vend := x.vend + p.len, fixed := (key, off) :: x.fixed })
              else (h, none)
            let h := { y.1 with vols := { y.1.vols with
              atoms := mapFirst (fun (a : ASlot) => a.vid = v.vid) (fun a => { a with off := off }) y.1.vols.atoms } }
            let h := h.updVerb v.vid (fun v => { v with
              aw := .nothing, past := true, tag := y.2
              op := some { p with off := some off, bytes := b, pages := pages, pois := h.poisonRanges v p }
              res := .ok (if p.append then BitVec.ofNat 64 off else 0) })
            (h.meter v p.len sealAt, true)

/-! ## Verbs -/

/-- The delivery of a verb (R144): answered once every WRITE packet is acknowledged; WINDOW_STALE where a connection has
closed. -/
def Head.stepDeliver (h : Head) (v : HVerb) (l : List (Nat × Nat)) : Head × Bool :=
  if l.any (fun p => (h.conn p.1).isNone) then (h.answerVerb v (.fail .windowStale), true)
  else if l.any (fun p => match h.conn p.1 with | some c => c.unacked.any (fun x => x.psn = p.2) | none => false) then (h, false)
  else (h.answerVerb v v.res, true)

/-! ## GET from flash (R66, R196, R197, R202, R222) -/

/-- A GET whose bytes are at hand delivers them, with its poison map (R66). Where a chunk has failed, nothing at or after it goes out. -/
def Head.finishGet (h : Head) (v : HVerb) (ps : List FlashPiece) : Head :=
  let vol := v.arg 0
  let off := v.arg 1
  let x := h.openAll (.verb v.vid) (pieceChunks ps)
  let h := x.1.unask (.verb v.vid)
  let r := h.readRange vol lastEpoch off (v.arg 3) ps x.2
  let out := match r.fails with | some o => r.bytes.take (o - off) | none => r.bytes
  let map := if v.ops.length = 5 then some (nth 0 v.ops 4) else none
  match h.deliver (h.vside v) (h.vreplay v) (nth 0 v.ops 2) out with
  | .error s => h.answerVerb v (.fail s)
  | .ok (h, c, ns) =>
    match (match map with
      | some m => h.deliver (h.vside v) (h.vreplay v) m (packBits ((granules off (v.arg 3)).map (fun g => r.bad.contains g)))
      | none => .ok (h, 0, [])) with
    | .error s => h.answerVerb v (.fail s)
    | .ok (h, c', ns') =>
      h.updVerb v.vid (fun v => { v with
        aw := .deliver (ns.map (fun p => (c, p)) ++ ns'.map (fun p => (c', p)))
        res := ⟨if r.fails.isSome then .checkFail else if r.bad.isEmpty then .ok else .poison, BitVec.ofNat 64 out.length, r.bad.length,
          map.isSome⟩ })

/-- A GET reads what stands on flash: it asks for the codewords of its chunks, has compressed ones decompressed once they have come, and
delivers. -/
def Head.stepRead (h : Head) (v : HVerb) (unpacked : Bool) : Head × Bool :=
  let who := Reader.verb v.vid
  let ps := h.flashPieces (v.arg 0) lastEpoch (v.arg 1) (v.arg 3)
  let crefs := pieceChunks ps
  let g := h.askChunks who crefs (match h.caller v with | some c => c.con | none => false)
  if !g.gotAll who then (g, decide (h.fl.wants.length < g.fl.wants.length))
  else
    let n := g.unpackBytes crefs
    if !unpacked && decide (0 < n) then ((g.updVerb v.vid (fun v => { v with aw := .unpack })).unpackAsk who n, true)
    else (g.finishGet v ps, true)

/-- The bound of a FLUSH or MARK under contract runs from the later of its acceptance and the durability of the last command it covers; it
does not bind where a covered command is best-effort (R100). -/
def Head.meterCover (h : Head) (v : HVerb) : Head :=
  match h.caller v with
  | none => h
  | some c =>
    if !c.con || !(v.vc = 4 || v.vc = 5) then h
    else
      let free := (coveredBy c (decide (v.imm % 2 = 1))).any (fun s =>
        match (h.jour c.side).get s with | some r => !r.con | none => false)
      let last := (c.cover.filterMap (fun x => x.2.2)).foldl max c.accAt
      h.updCmd (c.side, c.seq) (fun c => { c with bound := some last, conform := c.conform && !free })

/-- A verb goes as far as it can. -/
def Head.stepVerb (h : Head) (v : HVerb) : Head × Bool :=
  if v.ans.isSome then (h, false)
  else
    match v.aw with
    | .put p => h.stepPut v p
    | .effect =>
      if !h.verbMay v then (h, false)
      else if (v.vc = 0x0E || v.vc = 0x0F) && !h.ledger then
        match h.askLedger v with
        | .error r => (h.answerVerb v r, true)
        | .ok h => (h.updVerb v.vid (fun v => { v with aw := .ledger }), true)
      else
        match h.effect v with
        | none => (h, false)
        | some e =>
          if e.passes then
            let g := e.head.updVerb v.vid (fun v => { v with aw := e.wait.getD .nothing, past := true, tag := e.tag, res := e.res })
            let g := match v.cmd with | some k => g.updCmd k (fun c => c.marked v (v.vc = 5)) | none => g
            (g.meterCover v, true)
          else (e.head.answerVerb v e.res, true)
    | .ledger =>
      if v.vc = 0x0E then
        (if h.whole then (h, false) else (h.answerVerb v ⟨.contractRefused, refusal 1 0, 0, false⟩, true))
      else if h.ledger then (h.updVerb v.vid (fun v => { v with aw := .effect }), true)
      else (h, false)
    | .deliver l => h.stepDeliver v l
    | .reads u => h.stepRead v u
    | .volume n => if (h.vol n).isNone then (h.answerVerb v v.res, true) else (h, false)
    | .repStop r =>
      if (match h.rep r with | some x => x.conn.isSome && decide (0 < x.left) | none => false) then (h, false)
      else (h.answerVerb v v.res, true)
    | .pool n => if (h.pool n).isNone then (h.answerVerb v v.res, true) else (h, false)
    | .image => if h.imageSent then (h.answerVerb v v.res, true) else (h, false)
    | .nothing =>
      if !h.landed v.tag then (h, false)
      else
        match (if v.op.isSome then h.caller v else none) with
        | none => (h.answerVerb v v.res, true)
        | some c => if c.passed then (h.answerVerb v v.res, true) else (h, false)
    | _ => (h, false)

/-! ## Commands -/

/-- The command has an outstanding verb past its own commit point, with its record in both PSTOREs: the first of them. -/
def Head.committer (h : Head) (c : Cmd) : Option HVerb :=
  h.work.verbs.find? (fun v => v.cmd = some (c.side, c.seq) && v.past && !v.codeC && h.landed v.tag)

/-- The first verb of a command to pass its own commit point has done so, and the verb log is on the peer (R63, R163). -/
def Head.commits (h : Head) (c : Cmd) : Bool :=
  (c.cp || (h.committer c).isSome) && h.placesLanded c.pages

/-- R97 at a commit point: F minus the declared length goes back to the reservation. -/
def Head.giveBack (h : Head) (c : Cmd) (len : Nat) : Head :=
  if c.con && !c.returned then
    match h.contract c.contract with
    | none => h
    | some k =>
      (h.chargeBack c.contract (k.frame - len) (c.side, c.seq)).updCmd (c.side, c.seq) (fun c => { c with returned := true })
  else h

/-- A command is durable from now on (R100): those that cover it learn when. -/
def Head.noteDurable (h : Head) (k : Nat × Nat) : Head :=
  h.setCmds (h.work.cmds.map (fun c =>
    if c.side = k.1 && c.cover.any (fun x => x.1 = k.2 && x.2.2.isNone) then
      { c with cover := c.cover.map (fun x => if x.1 = k.2 && x.2.2.isNone then (x.1, x.2.1, some h.now) else x) }
    else c))

/-- A command's COMMITTED record is in both PSTOREs (R149): it has passed its commit point. -/
def Head.commandPassed (h : Head) (c : Cmd) : Head :=
  let k := (c.side, c.seq)
  let len := match h.committer c with
    | some v => (match v.op with | some p => p.len | none => 0)
    | none => 0
  let wrote := c.wrote || (!c.cp && (match h.committer c with | some v => v.writes | none => false))
  let h := (h.updCmd k (fun c => { c with phase := .committed, passed := true, wrote := wrote })).giveBack c len
  let h := if wrote then h.noteDurable k else h
  if c.con then
    let bs := c.bound.getD c.accAt
    (h.durable c.contract c.seq c.accAt bs c.conform).updCmd k (fun c => { c with allow := h.allowance c.accAt bs })
  else h

/-- Verbs of a command that are not answered. -/
def Head.openVerbs (h : Head) (c : Cmd) : Bool :=
  h.work.verbs.any (fun v => v.cmd = some (c.side, c.seq) && v.ans.isNone)

/-- The volumes that the final state of a command changes. -/
def Head.finalVols (h : Head) (c : Cmd) : List Nat :=
  (h.vols.vols.filter (fun v => v.fixed.any (fun f => f.1.1 = c.side && f.1.2.1 = c.seq) ||
    h.work.verbs.any (fun x => x.cmd = some (c.side, c.seq) && x.past &&
      (match x.op with | some p => p.vol = v.num | none => false)))).map (fun v => v.num)

/-- The writes of a command become final with it (R155): their bytes stand in their volumes; its atomic slots are STAGED
(Table 10-6). -/
def Head.applyWrites (h : Head) (c : Cmd) : Head :=
  let h := h.setVols (h.vols.vols.map (fun v =>
    { v with fixed := v.fixed.filter (fun f => !(f.1.1 = c.side && f.1.2.1 = c.seq)) }))
  let mine := h.work.verbs.filter (fun v => v.cmd = some (c.side, c.seq))
  let h := mine.foldl (fun h v => match v.op with
    | some p => if v.past then h.applyWrite (c.side, c.seq) p else h
    | none => h) h
  let h := { h with vols := { h.vols with
    atoms := h.vols.atoms.map (fun (x : ASlot) => if x.side = c.side && x.seq = c.seq then { x with state := .staged } else x) } }
  h.setVerbs (h.work.verbs.filter (fun v => v.cmd ≠ some (c.side, c.seq)))

/-- The final record of a command is written (R77), with its writes in the same step (R155): one record carries both to the peer. -/
def Head.finalise (h : Head) (c : Cmd) (st : Status) (result : Word) : Head :=
  let nums := h.finalVols c
  let h := h.applyWrites c
  let r := c.record st.final result st.code
  let x := (h.jour c.side).write r
  let x := (h.setJour c.side x.1).record (.final c.side r x.2 (h.vols.vols.filter (fun v => nums.contains v.num))
    (h.vols.atoms.filter (fun a => a.side = c.side && a.seq = c.seq)))
  x.1.updCmd (c.side, c.seq) (fun c => { c with phase := .finalising x.2, vs := st.code, result := result })

/-- Windows whose sealed generation a command named or was fired by, which RECYCLE makes advance now (R139). -/
def Head.advanceWindows (h : Head) : Head :=
  (h.net.windows.filter (fun w => w.recycle && !w.out && h.consumed w)).foldl (fun h w => h.advance w) h

/-- The final state of a command is in both PSTOREs: what follows from that. -/
def Head.commandFinal (h : Head) (c : Cmd) : Head :=
  let k := (c.side, c.seq)
  let h := ((h.giveBack c 0).updCmd k (fun c => { c with phase := .final, passed := true })).noteDurable k
  let h := if c.con then (h.unmeter c.contract c.side c.seq).freeClosed c.contract else h
  let q := h.queue c.side c.queue
  let h := if q.fence && c.passed then
      (h.updQueue c.side c.queue (fun q => { q with doneN := q.doneN + 1 })).sayQueue c.side c.queue
    else h
  let h := if h.work.covers.any (fun x => x.1 = k) then
      ({ h with work := { h.work with covers := h.work.covers.filter (fun x => x.1 ≠ k) } }).record' (.cover c.side c.seq [])
    else h
  (h.winDrop false c.pages).advanceWindows

/-- A command goes as far as it can. -/
def Head.stepCmd (h : Head) (c : Cmd) : Head × Bool :=
  match c.phase with
  | .accepted =>
    if c.cp || (h.committer c).isSome then
      if h.commits c && h.mayCommit c then
        let x := h.jwrite c.side (c.record .committed 0 0)
        (x.1.updCmd (c.side, c.seq) (fun c => { c with phase := .committing x.2 }), true)
      else (h, false)
    else if c.ended && !h.openVerbs c && h.mayCommit c then (h.finalise c (statusOf c.vs) c.result, true)
    else (h, false)
  | .committing tag => if h.landed tag then (h.commandPassed c, true) else (h, false)
  | .committed => if c.ended && !h.openVerbs c then (h.finalise c (statusOf c.vs) c.result, true) else (h, false)
  | .finalising tag => if h.landed tag then (h.commandFinal c, true) else (h, false)
  | .final => (h, false)

/-- A final command's completion record is posted, dropped or suppressed when its turn has come (R61, R75, R139, R152),
and the command is forgotten. -/
def Head.post (h : Head) (c : Cmd) : Head × Bool :=
  let waits := (h.earlier c).any (fun d => d.sameStream c) ||
    h.net.windows.any (fun w => w.waitAdv && w.users.contains (c.side, c.seq))
  if !c.isFinal || waits then (h, false)
  else
    let silent := c.mute || (c.quiet && c.vs = 0)
    let h := if silent then h
      else h.postTo c.conn c.side c.queue (crec c.tag c.queue c.vs c.tko c.pmap c.seq c.result c.aux)
    ((h.setCmds (h.work.cmds.filter (fun d => !(d.side = c.side && d.seq = c.seq)))).afterPost (c.side, c.seq), true)

/-! ## QRESET (R75, R159) -/

/-- A program is stopped: its thread is free again, its verbs have no effect. -/
def Head.stopProgram (h : Head) (c : Cmd) : Head :=
  let k := (c.side, c.seq)
  let mine := h.work.verbs.filter (fun v => v.cmd = some k)
  let h := mine.foldl (fun h v => h.freeAtom v.vid) h
  let h := h.setVerbs (h.work.verbs.filter (fun v => v.cmd ≠ some k))
  let h := match c.thread with
    | some t => h.setThread t { h.thread t with run := .free, verbs := [], cmd := none, buf := false, len := 0 }
    | none => h
  h.updCmd k (fun c => { c with ended := true, thread := none })

/-- A command is recorded ABANDONED (R75). -/
def Head.abandon (h : Head) (c : Cmd) : Head :=
  ((h.stopProgram c).finalise { c with ended := true } .abandoned 0)

/-- A final-state or commit write of a queue is under way, or is due because a verb has had its effect, so that its fence must
wait (R159). -/
def Head.fenceWaits (h : Head) (side q : Nat) : Bool :=
  h.work.cmds.any (fun c => c.side = side && c.queue = q &&
    (match c.phase with
     | .finalising _ => true
     | .committing _ => true
     | .accepted => h.mayCommit c &&
         (c.cp || h.work.verbs.any (fun v => v.cmd = some (c.side, c.seq) && v.past && !v.codeC))
     | _ => false))

/-- The fence of a QRESET (R75, R159): commands not past their commit points are abandoned, every command accepted before
posts nothing more. -/
def Head.takeFence (h : Head) (side q : Nat) : Head :=
  let lose := (h.inflight side q).filter (fun c => !c.passed)
  let h := h.setCmds (h.work.cmds.map (fun c => if c.side = side && c.queue = q then { c with mute := true } else c))
  let h := (h.updQueue side q (fun x => { x with fence := true, abandN := lose.length, doneN := 0 })).sayQueue side q
  lose.foldl (fun h c => h.abandon { c with mute := true }) h

/-- A QRESET or RESET of a queue completes (R52, R68, R75): its streams are released with their gathers, its trap count
is 0, entries are taken again, the verb has its result. -/
def Head.endQreset (h : Head) (side q : Nat) : Head :=
  let x := h.queue side q
  let mine := h.work.streams.filter (fun e => e.1 / 65536 = side && e.2 = q + 1)
  let h := mine.foldl (fun h e => (h.dropGather (e.1 % 65536)).record' (.stream side (e.1 % 65536) 0)) h
  let h := { h with work := { h.work with
    streams := h.work.streams.filter (fun e => !(e.1 / 65536 = side && e.2 = q + 1)) } }
  let h := (h.updQueue side q (fun x => { x with rst := false, fence := false, abandN := 0, doneN := 0, traps := 0 })).sayQueue side q
  let r := pack [(32, x.abandN % 2 ^ 32), (0, x.doneN % 2 ^ 32)]
  h.setVerbs (h.work.verbs.map (fun v => match v.aw with
    | .qreset s' q' => if s' = side && q' = q then
        { v with aw := .nothing, res := if v.vc = 0x17 then .ok r else .ok 0 } else v
    | _ => v))

/-- A re-run program may still issue the QRESET or RESET whose fence has fallen (R170). -/
def Head.resetDue (h : Head) (side q : Nat) : Bool :=
  !(h.work.verbs.any (fun v => v.aw = .qreset side q)) &&
    h.work.cmds.any (fun c => c.again && !c.isFinal && !c.ended && (c.await || holdsVerb c.prog 0x17 || holdsVerb c.prog 0x18))

/-- A queue whose fence has fallen and none of whose commands is in flight ends its QRESET. -/
def Head.stepQueue (h : Head) (side q : Nat) : Head × Bool :=
  let x := h.queue side q
  if x.rst && x.fence && (h.inflight side q).isEmpty && !h.resetDue side q then (h.endQreset side q, true) else (h, false)

/-! ## Deletion of a volume (R226) -/

/-- What a volume that is discarded held: its writes in the lehr with their atomic slots, its extents, its metadata pages (R226). -/
def Head.dropVolume (h : Head) (v : Volume) : Head :=
  let h := (h.red.extents.filter (fun e => e.vol = v.num)).foldl (fun h e => h.dropExtent v.pool e) h
  let pages := ((v.writes.filter (fun w => !w.done)).map VWrite.held).flatten
  let slots := h.vols.atoms.filter (fun a => a.vol = v.num)
  let of : MPage → Bool := fun p => match p with
    | .map n _ => n = v.num
    | .fine n _ => n = v.num
    | .recipe n _ => n = v.num
    | .kept n _ => n = v.num
    | _ => false
  let h := { h with vols := { h.vols with
    vols := h.vols.vols.filter (fun x => x.num ≠ v.num), atoms := h.vols.atoms.filter (fun a => a.vol ≠ v.num)
    drops := h.vols.drops.filter (fun d => d.vol ≠ v.num)
    dirs := h.vols.dirs.filter (fun x => !of x.1), dirty := h.vols.dirty.filter (fun x => !of x.1), copies := h.vols.copies.filter (fun (x : PageCopy) => !of x.page)
    fines := h.vols.fines.filter (fun x => x.1 ≠ v.num), small := h.vols.small.filter (fun x => x.1 ≠ v.num)
    afresh := h.vols.afresh.filter (fun x => x.vol ≠ v.num) } }
  let h := slots.foldl (fun h a => h.record' (.atomic a true)) h
  let windows := (h.net.windows.map (fun (w : Window) => w.pages ++ (w.olds.map (fun (g : OldGen) => g.pages)).flatten)).flatten
  h.winDrop false (pages.filter (fun p => !(windows.contains p)))

/-- A volume whose deletion waits for no command any more is discarded: its map, epoch map and recipes are released. -/
def Head.stepVolume (h : Head) (v : Volume) : Head × Bool :=
  if v.deleting && (h.open' v.delFence).isEmpty then
    let h := (v.map ++ v.emap).foldl (fun h m => (h.dropRefs m.kind.pieces).1) h
    let h := h.dropVolume v
    let h := h.setVols (h.vols.vols.map (fun x =>
      match v.parent with
      | some p => if x.num = p.1 then { x with
          snaps := (x.snaps.map (fun (s : Snap) =>
            if s.epoch = p.2 then { s with clones := s.clones.filter (fun c => c ≠ v.num) } else s)).filter
            (fun (s : Snap) => s.live || !s.clones.isEmpty) } else x
      | none => x))
    let h := match v.parent with | some p => (h.sweepEpochs p.1).1 | none => h
    (((h.record' (.volGone v.num)).space).ended false v.num, true)
  else (h, false)

/-! ## Everything the state allows -/

/-- A list of things each moved as far as it can go; the Bool says whether anything changed. -/
def sweep {α : Type} (f : Head → α → Head × Bool) (l : List α) (h : Head) : Head × Bool :=
  l.foldl (fun acc a => let x := f acc.1 a; (x.1, acc.2 || x.2)) (h, false)

/-- The commands as they stand now, each moved where this head serves its side: a command is looked up again, since an
earlier one may have changed it. -/
def Head.cmdNow (f : Head → Cmd → Head × Bool) (h : Head) (k : Nat × Nat) : Head × Bool :=
  match h.cmd k with
  | some c => if h.serves c.side then f h c else (h, false)
  | none => (h, false)

/-- A verb as it stands now, moved. -/
def Head.verbNow (h : Head) (vid : Nat) : Head × Bool :=
  match h.work.verbs.find? (fun v => v.vid = vid) with
  | some v => h.stepVerb v
  | none => (h, false)

/-- An armed entry that waited for a lehr page fires once there is one. -/
def Head.stepArmed (h : Head) (k : Nat × Nat) : Head × Bool :=
  match h.windowAt k.1 k.2 with
  | some w => if w.due && h.imageRoom && h.serves w.side then (h.fire k.1 k.2, true) else (h, false)
  | none => (h, false)

/-- A write whose setting has reached both PSTOREs answers (R501). -/
def Head.stepOwed (h : Head) (x : Option Nat × Status) : Head × Bool :=
  if h.landed x.1 then (({ h with work := { h.work with owed := h.work.owed.erase x } }).answer x.2 0 [], true) else (h, false)

/-- One pass over armed entries, verbs, threads, commands, completion records, queues, volumes, replication slots and answers due. -/
def Head.pass (h : Head) : Head × Bool :=
  let z := sweep Head.stepArmed ((h.net.windows.filter Window.due).map (fun w => (w.side, w.idx))) h
  let h := z.1.startPrograms
  let a := sweep Head.verbNow (h.work.verbs.map (fun v => v.vid)) h
  let b := sweep Head.wake (a.1.core.threads.map (fun e => e.1)) a.1
  let keys := b.1.work.cmds.map (fun c => (c.side, c.seq))
  let c := sweep (Head.cmdNow Head.stepCmd) keys b.1
  let d := sweep (Head.cmdNow Head.post) keys c.1
  let e := sweep (fun h k => Head.stepQueue h (k / 65536) (k % 65536)) (d.1.work.queues.map (fun e => e.1)) d.1
  let f := sweep (fun h n => match h.vol n with | some v => Head.stepVolume h v | none => (h, false))
    (e.1.vols.vols.map (fun v => v.num)) e.1
  let r := sweep Head.stepRep (f.1.pair.reps.map (fun x => x.1)) f.1
  let w := sweep Head.stepOwed r.1.work.owed r.1
  (w.1, z.2 || a.2 || b.2 || c.2 || d.2 || e.2 || f.2 || r.2 || w.2)

/-- Passes until nothing changes, at most `n`. -/
def settleLoop : Nat → Head → Head
  | 0, h => h
  | n + 1, h =>
    let x := h.pass
    if x.2 then settleLoop n x.1 else x.1

/-- The management and PSTORE islands run, and the head is neither dark nor stopped by a head-fatal error: commands
can move on. -/
def Head.working (h : Head) : Bool := h.runs 0 && h.runs 1 && !h.dark && !h.pair.fence.fatal

/-- Everything that the state allows happens. The number of passes is bounded by what there is to move. -/
def Head.settle (h : Head) : Head :=
  if h.working then
    (settleLoop (8 + 8 * (h.work.cmds.length + h.work.verbs.length + h.vols.vols.length)) h).unitsGo
  else h

end Sys2Proof.Machine
end

