-- ==== Sys2Proof/Machine/Engine.lean ====
section
/-! DEFINITION. Issue of one instruction of a thread (R23-R30, R36-R38, R47-R50): the order of checks, the predicate, the
wait for a pending result register, the advance of PC, traps, the end of a bounded program. -/

namespace Sys2Proof.Machine

/-- What an instruction does once it executes. -/
inductive Iss where
  /-- it completes; PC moves to the next word -/
  | go (h : Head)
  /-- it completes with a new PC -/
  | jump (h : Head) (pc : Word)
  /-- it traps, with the address TADDR receives where R49 names one -/
  | trap (h : Head) (c : Trap) (addr : Option Word)
  /-- it completes, PC moves to the next word, and commands move on -/
  | act (h : Head)
  /-- an error stopped the head before it completed (R394) -/
  | stop (h : Head)
  /-- it waits: it has not issued, and is issued again later -/
  | wait

/-- The fields of an instruction word that every format has (Table 2-2). -/
structure Common where
  op   : Nat
  pois : Bool
  pn   : Bool
  ps   : BitVec 3
  /-- OP or VC is one that no instruction has (R30, R43) -/
  stray : Bool

/-- The common fields of a G word whose row fixes OP. -/
def GWord.common (w : GWord) (op : Nat) : Common :=
  ⟨(strayCode opCodes w.other).getD op, w.pois, w.pn, w.ps, (strayCode opCodes w.other).isSome⟩

/-- The common fields of a W word. -/
def WWord.common (w : WWord) (op : Nat) : Common := ⟨op, w.pois, w.pn, w.ps, false⟩

/-- The common fields of a V word. -/
def VWord.common (w : VWord) : Common := ⟨0x30, w.pois, w.pn, w.ps, (strayCode verbCodes w.other).isSome⟩

/-- An instruction counted (R38, R49). DESIGN CHOICE, log entry 84: R49 does not say whether ICOUNT counts an instruction that
its predicate skips; the model has one counter for ICOUNT and for the budget of R38, which counts it. -/
def Head.counted (h : Head) (t : Nat) : Head :=
  let x := h.thread t
  h.setThread t { x with icount := (x.icount + 1) % 2 ^ 64 }

/-- A thread moved to a PC; a bounded program that has passed its last word ends as by END g0 (R37). -/
def Head.moveTo (h : Head) (t : Nat) (pc : Word) : Head :=
  let x := h.thread t
  let overs := x.buf && decide (8 * x.len ≤ pc.toNat) && x.run = .running
  h.setThread t { x with pc := pc, run := if overs then .ending 0 else x.run }

/-- The trap of a thread at tier F without an active handler (R49): the trap registers are set and the thread continues at
TVEC + 64 × code. A TVEC never written, and TADDR where R49 names no address, are free values (log entry 5). -/
def Head.trapF (h : Head) (t : Nat) (c : Trap) (op : Nat) (addr : Option Word) : Head :=
  let x := h.thread t
  let vec := if x.xw.getLsbD 0 then x.tvec else Config.freeWord h.fresh
  let ta := addr.getD (Config.freeWord (h.fresh + 1))
  let y : Thread := { x with
    tpc := x.pc, taddr := ta, xw := x.xw ||| 6#3
    tcause := pack [(18, 3), (17, 1), (8, op), (0, c.code)]
    pc := vec + BitVec.ofNat 64 (64 * c.code) }
  (h.tick.tick).setThread t y

/-- A trap (R47-R49). Below tier F the program ends once its verbs have completed, and its queue's trap count rises. -/
def Head.trap (h : Head) (t : Nat) (c : Trap) (op : Nat) (addr : Option Word) : Head :=
  let x := h.thread t
  if x.tier = .F then
    if bit x.tcause.toNat 17 then
      (h.setThread t { x with run := .halted }).event 0x0301 2 0xFF 1 (engineOf t) t x.tcause.toNat 0
    else h.trapF t c op addr
  else
    let h := match x.cmd.bind h.cmd with
      | some k => h.updQueue k.side k.queue (fun q => { q with traps := (q.traps + 1) % 2 ^ 32 })
      | none => h
    ((h.setThread t { x with run := .trapped c }).wake t).1.settle

/-- What became of a thread that issued: where it no longer runs it goes on if it can, and commands settle. -/
def Head.afterIssue (h : Head) (t : Nat) : Head := if (h.thread t).run = .running then h else (h.wake t).1.settle

/-- A thread can issue: it runs, its island runs, and the head is not stopped by a head-fatal error (R394). -/
def Head.canIssue (h : Head) (t : Nat) : Bool :=
  decide (t < 776) && (h.thread t).run = .running && h.runs (islandOf t) && !h.pair.fence.fatal

/-- A register named by an instruction is still awaited from a verb issued without wait (R44). -/
def Thread.pending (x : Thread) (regs : List Nat) : Bool :=
  x.verbs.any (fun v => !v.taken && v.rd ≠ 0 && regs.contains v.rd.toNat)

/-- The checks of an instruction before its effect (R47) in order of priority, the predicate (R28: under a false one only
FETCH_POISON, ILLEGAL and BUDGET arise), the wait of R44: the
head where the effect does not take place, or the head and thread on which it does. -/
def Head.entry (h : Head) (t : Nat) (c : Common) (legal : Bool) (low : Tier) (uses : List Nat) : Head ⊕ (Head × Thread) :=
  if !h.canIssue t then .inl h
  else
    let h := h.fetched t
    let x := h.thread t
    if c.pois then .inl (h.trap t .fetchPoison c.op (some x.pc))
    else if c.stray || !legal then .inl (h.trap t .illegal c.op none)
    else if x.takes c.pn c.ps && !low.le x.tier then .inl (h.trap t .priv c.op none)
    else if x.buf && decide (65536 ≤ x.icount) then .inl (h.trap t .budget c.op none)
    else if !x.takes c.pn c.ps then .inl (((h.counted t).moveTo t (x.pc + 8)).afterIssue t)
    else if x.pending uses then .inl h
    else .inr (h, x)

/-- What follows the effect of an instruction issued on head `h` with thread `x`: the count, the next PC, a trap. -/
def Head.finish (h : Head) (t : Nat) (c : Common) (x : Thread) (i : Iss) : Head :=
  match i with
  | .go h => ((h.counted t).moveTo t (x.pc + 8)).afterIssue t
  | .jump h pc => ((h.counted t).moveTo t pc).afterIssue t
  | .act h => (((h.counted t).moveTo t (x.pc + 8)).wake t).1.settle
  | .trap h k a => h.trap t k c.op a
  | .stop h => h
  | .wait => h

/-- One instruction of a thread: its checks, then its effect. -/
def Head.issue (h : Head) (t : Nat) (c : Common) (legal : Bool) (low : Tier) (uses : List Nat)
    (body : Head → Thread → Iss) : Head :=
  match h.entry t c legal low uses with
  | .inl h => h
  | .inr y => y.1.finish t c y.2 (body y.1 y.2)

/-- One instruction of a thread whose effect may have an undefined outcome. -/
def Head.issueE (h : Head) (t : Nat) (c : Common) (legal : Bool) (low : Tier) (uses : List Nat)
    (body : Head → Thread → Except Fault Iss) : Except Fault Head :=
  match h.entry t c legal low uses with
  | .inl h => .ok h
  | .inr y =>
    match body y.1 y.2 with
    | .error e => .error e
    | .ok i => .ok (y.1.finish t c y.2 i)

/-- An instruction that only computes registers and predicates of its thread. -/
def Head.compute (h : Head) (t : Nat) (c : Common) (legal : Bool) (uses : List Nat) (f : Thread → Thread) : Head :=
  h.issue t c legal .O uses (fun h x => .go (h.setThread t (f x)))

end Sys2Proof.Machine
end

