-- ==== Sys2Proof/Machine/Buffers.lean ====
section
/-! DEFINITION. Buffer pools (R409-R413): allocation, quotas, frees, levels. -/

namespace Sys2Proof.Machine

/-- Fields of POOLCFG, POOLBASE and POOLTHR of a pool. -/
def Head.bufCount (h : Head) (p : Nat) : Nat := h.cfg .POOLCFG p 22 0
def Head.bufBytes (h : Head) (p : Nat) : Nat := 2 ^ h.cfg .POOLCFG p 63 59
def Head.bufScratch (h : Head) (p : Nat) : Bool := h.cfg .POOLCFG p 58 58 = 1
def Head.bufBase (h : Head) (p : Nat) : Nat := h.cfg .POOLBASE p 36 0

/-- A pool with nothing allocated. -/
def BPool.fresh : BPool := ⟨[], 0, 0⟩

/-- A buffer pool's allocations. -/
def Head.bpool (h : Head) (p : Nat) : BPool := look BPool.fresh h.core.pools p

/-- The head with a pool's allocations replaced. -/
def Head.setBpool (h : Head) (p : Nat) (x : BPool) : Head := h.setCore { h.core with pools := place BPool.fresh h.core.pools p x }

/-- Free buffers of a pool. -/
def Head.bufFree (h : Head) (p : Nat) : Nat := h.bufCount p - (h.bpool p).held.length

/-- The name of buffer `i` of a pool (R410). -/
def Head.bufName (h : Head) (p i : Nat) : Word :=
  pack [(60, p), (59, bnat (h.bufScratch p)), (0, h.bufBase p + i * h.bufBytes p)]

/-- The index of the buffer of a pool that a value names. -/
def Head.bufIndex (h : Head) (p : Nat) (v : Word) : Option Nat :=
  let i := (bits v.toNat 36 0 - h.bufBase p) / h.bufBytes p
  if i < h.bufCount p ∧ h.bufName p i = v then some i else none

/-- A percentage field of POOLTHR. -/
def Head.bufThr (h : Head) (p level : Nat) : Nat :=
  match level with
  | 1 => h.cfg .POOLTHR p 63 56
  | 2 => h.cfg .POOLTHR p 55 48
  | _ => h.cfg .POOLTHR p 47 40

/-- The quota of a charge class in percent of COUNT; class 3 has none (R412). -/
def Head.bufQuota (h : Head) (p cls : Nat) : Option Nat :=
  match cls with
  | 0 => some (h.cfg .POOLTHR p 31 24)
  | 1 => some (h.cfg .POOLTHR p 23 16)
  | 2 => some (h.cfg .POOLTHR p 15 8)
  | _ => none

/-- Some pool withholds bulk credits (R413 level 2). -/
def Head.creditsHeld (h : Head) : Bool := h.core.pools.any (fun e => decide (2 ≤ e.2.level))

/-- Best-effort acceptance pauses (R413 level 3). -/
def Head.acceptPaused (h : Head) : Bool := h.core.pools.any (fun e => decide (3 ≤ e.2.level))

/-- Credits withheld by a pool are returned once no pool is at level 2. -/
def Head.returnCredits (h : Head) : Head :=
  if h.creditsHeld || h.pair.link.withheld = 0 then h
  else (h.setLink { h.pair.link with withheld := 0 }).sendCtl (.credit 0 h.pair.link.withheld)

/-- The level of a pool after its free count changed (R413): it rises below each threshold, with an event, and falls past
the threshold plus 2 % of COUNT. -/
def Head.bufLevel (h : Head) (p : Nat) : Head :=
  let x := h.bpool p
  let f := h.bufFree p * 100
  let n := h.bufCount p
  let down := ([3, 2, 1].find? (fun k => decide (f < h.bufThr p k * n))).getD 0
  let up := ([1, 2, 3].find? (fun k => decide ((h.bufThr p k + 2) * n < f))).getD 4 - 1
  let level := if x.level < down then down else min x.level (max down up)
  let h := h.setBpool p { x with level := level }
  if x.level < level then h.headEvent 0x0404 1 p level else h.returnCredits

/-- What an allocation gives (R410-R413). -/
inductive Got where
  | buf (h : Head) (v : Word)
  | empty
  | quota

/-- A requester of a charge class and identity may have buffers at level 3. -/
def Head.bufAlways (h : Head) (cls id : Nat) : Bool :=
  cls = 3 || (cls = 0 && (h.bound 0 id || h.bound 1 id))

/-- A buffer allocated to a requester; the lowest free one is taken (DESIGN CHOICE, log entry 25). -/
def Head.bufAlloc (h : Head) (p cls id : Nat) : Got :=
  let x := h.bpool p
  let mine := x.held.countP (fun e => e.2 = (cls, id))
  let overs := match h.bufQuota p cls with
    | some q => decide (q * h.bufCount p < (mine + 1) * 100)
    | none => false
  if overs then .quota
  else if h.bufFree p = 0 || (decide (3 ≤ x.level) && !h.bufAlways cls id) then .empty
  else
    let i := nth 0 (lowestFree (fun k => x.held.any (fun e => e.1 = k)) (x.held.length + 1) 0 1) 0
    .buf ((h.setBpool p { x with held := (i, (cls, id)) :: x.held }).bufLevel p) (h.bufName p i)

/-- A buffer freed (R411); none where the value names no allocated buffer of the pool. -/
def Head.bufRelease (h : Head) (p : Nat) (v : Word) : Option Head :=
  match h.bufIndex p v with
  | none => none
  | some i =>
    let x := h.bpool p
    if x.held.any (fun e => e.1 = i) then
      some ((h.setBpool p { x with held := x.held.filter (fun e => e.1 ≠ i) }).bufLevel p)
    else none

/-- A bad free is counted and recorded (R411). -/
def Head.badFree (h : Head) (p srck srci : Nat) (v charge : Word) : Head :=
  let x := h.bpool p
  (h.setBpool p { x with dfree := satAdd 0x7FFFFF x.dfree 1 }).event 0x0403 2 0xFF srck srci v.toNat charge.toNat 0

end Sys2Proof.Machine
end

