-- ==== Sys2Proof/Machine/Twizon.lean ====
section
/-! DEFINITION. The Twizon instructions but state access and verbs (R31-R39, R49, R388-R389, R402-R403). -/

namespace Sys2Proof.Machine

/-! ## ALU and compare -/

/-- ALU, register form (R31). -/
def execAluReg (t : Nat) (w : GWord) (s : State) : Host.Outcome State Fault Refusal :=
  s.run (fun h => h.compute t (w.common 0x01) (aluRegLegal w) [w.rd.toNat, w.ra.toNat, w.rb.toNat] (fun x =>
    x.setReg w.rd.toNat (aluResult w.fn.toNat (x.reg w.ra.toNat) (x.reg w.rb.toNat) 0)))

/-- ALU, immediate form (R31). -/
def execAluImm (t : Nat) (w : GWord) (s : State) : Host.Outcome State Fault Refusal :=
  s.run (fun h => h.compute t (w.common 0x02) (aluImmLegal w) [w.rd.toNat, w.ra.toNat] (fun x =>
    x.setReg w.rd.toNat
      (if w.fn = 0x29 then insResult (x.reg w.rd.toNat) (x.reg w.ra.toNat) w.imm.toNat
       else aluResult w.fn.toNat (x.reg w.ra.toNat) (aluImmOperand w.imm) w.imm.toNat)))

/-- LI (Table 2-4). -/
def execLi (t : Nat) (w : WWord) (s : State) : Host.Outcome State Fault Refusal :=
  s.run (fun h => h.compute t (w.common 0x03) (!w.res) [w.rd.toNat] (fun x =>
    x.setReg w.rd.toNat (w.imm48.signExtend 64)))

/-- LIH replaces RD[63:48] (Table 2-4). -/
def lihValue (old : Word) (imm : BitVec 32) : Word :=
  (old &&& 0x0000FFFFFFFFFFFF#64) ||| (imm.setWidth 64 <<< 48)

/-- LIH (Table 2-4). -/
def execLih (t : Nat) (w : GWord) (s : State) : Host.Outcome State Fault Refusal :=
  s.run (fun h => h.compute t (w.common 0x04)
    (w.ra = 0 && w.rb = 0 && w.fn = 0 && bits w.imm.toNat 31 16 = 0) [w.rd.toNat] (fun x =>
      x.setReg w.rd.toNat (lihValue (x.reg w.rd.toNat) w.imm)))

/-- CMP, register form (R32). -/
def execCmpReg (t : Nat) (w : GWord) (s : State) : Host.Outcome State Fault Refusal :=
  s.run (fun h => h.compute t (w.common 0x05) (cmpRegLegal w)
    (if w.fn.toNat < 0x10 then [w.ra.toNat, w.rb.toNat] else []) (fun x =>
      x.setPred w.rd.toNat (cmpRegValue x w)))

/-- CMP, immediate form (R32). -/
def execCmpImm (t : Nat) (w : GWord) (s : State) : Host.Outcome State Fault Refusal :=
  s.run (fun h => h.compute t (w.common 0x06) (cmpImmLegal w) [w.ra.toNat] (fun x =>
    x.setPred w.rd.toNat (cmpWord w.fn.toNat (x.reg w.ra.toNat) (sext32 w.imm))))

/-! ## Load, store, atomics -/

/-- An access of `n` bytes at an address breaks ALIGN or BOUNDS for a tier (R34); the private area has 4 KiB. -/
def accFault (tier : Tier) (scr : Bool) (a n : Nat) : Option Trap :=
  if a % n ≠ 0 then some .align
  else
    let limit := if tier ≠ .F then 4096 else if scr then scrLimit else hbmLimit
    if limit < a + n ∨ (tier = .F ∧ !scr ∧ inInstr a n) then some .bounds else none

/-- LD's function field is legal (Table 2-7). -/
def ldLegal (w : GWord) : Bool := bits w.fn.toNat 6 5 = 0 && w.rb = 0

/-- A load at a tier: private area, scratch or HBM. -/
def loadAt (t : Nat) (h : Head) (x : Thread) (a n : Nat) (scr na : Bool) (c : LdCheck) (k : Head → Nat → Iss) : Iss :=
  match accFault x.tier scr a n with
  | some f => .trap h f (some (BitVec.ofNat 64 a))
  | none =>
    if x.tier ≠ .F then k h (leNat (readBytes x.priv a n))
    else if scr then
      let w := h.memWord 1 (a / 8)
      if w.2 then .trap h .dataPoison (some (BitVec.ofNat 64 a))
      else k h (leNat (((leBytes 8 w.1.toNat).drop (a % 8)).take n))
    else
      let y := h.loadCheck t (a / 64) (a % 64 / 8) c
      if y.2 then .stop y.1
      else
        match y.1.loadLine (engineOf t) (a / 64) na with
        | none => .wait
        | some (h, l) =>
          if l.poisoned (a % 64) n then .trap h .dataPoison (some (BitVec.ofNat 64 a))
          else k h (leNat ((l.data.drop (a % 64)).take n))

/-- LD (R33). -/
def execLd (t : Nat) (w : GWord) (c : LdCheck) (s : State) : Host.Outcome State Fault Refusal :=
  s.run (fun h => h.issue t (w.common 0x08) (ldLegal w) .O [w.rd.toNat, w.ra.toNat] (fun h x =>
    loadAt t h x (effAddr x w).toNat (accBytes w) (w.fn.getLsbD 3) (w.fn.getLsbD 4) c (fun h v =>
      .go (h.setThread t ((h.thread t).setReg w.rd.toNat (loadValue (w.fn.getLsbD 2) (accBytes w) v))))))

/-- ST's function field is legal (Table 2-7). -/
def stLegal (w : GWord) : Bool := bits w.fn.toNat 6 5 = 0 && !w.fn.getLsbD 2 && w.rd = 0

/-- A word of scratch with bytes stored in it, by the poison rule of Table 13-7. -/
def Head.storeScr (h : Head) (a : Nat) (b : List Byte) : Head :=
  let old := h.memWord 1 (a / 8)
  let d := overlay (leBytes 8 old.1.toNat) (a % 8) b
  h.putWord 1 (a / 8) (BitVec.ofNat 64 (leNat d)) (old.2 && decide (b.length < 8))

/-- ST (R33). -/
def execSt (t : Nat) (w : GWord) (s : State) : Host.Outcome State Fault Refusal :=
  s.run (fun h => h.issue t (w.common 0x09) (stLegal w) .O [w.ra.toNat, w.rb.toNat] (fun h x =>
    let a := (effAddr x w).toNat
    let n := accBytes w
    let b := leBytes n (x.reg w.rb.toNat).toNat
    match accFault x.tier (w.fn.getLsbD 3) a n with
    | some f => .trap h f (some (BitVec.ofNat 64 a))
    | none =>
      if x.tier ≠ .F then .go (h.setThread t { x with priv := writeBytes x.priv a b })
      else if w.fn.getLsbD 3 then .go (h.storeScr a b)
      else
        match h.storeLine (engineOf t) (a / 64) (a % 64) b (w.fn.getLsbD 4) with
        | none => .wait
        | some h => .go h))

/-- AMO's function field is legal (R33). -/
def amoLegal (w : GWord) : Bool := bits w.fn.toNat 2 0 = 0 && decide (bits w.fn.toNat 6 4 ≤ 4)

/-- AMO (R33, R393). -/
def execAmo (t : Nat) (w : GWord) (s : State) : Host.Outcome State Fault Refusal :=
  s.run (fun h => h.issue t (w.common 0x0A) (amoLegal w) .O [w.rd.toNat, w.ra.toNat, w.rb.toNat] (fun h x =>
    let a := (effAddr x w).toNat
    let scr := w.fn.getLsbD 3
    let store := fun (old : Word) => amoStore (bits w.fn.toNat 6 4) old (x.reg w.rb.toNat) (x.reg w.rd.toNat)
    match accFault x.tier scr a 8 with
    | some f => .trap h f (some (BitVec.ofNat 64 a))
    | none =>
      if x.tier ≠ .F then
        let old := BitVec.ofNat 64 (leNat (readBytes x.priv a 8))
        let x := match store old with
          | some v => { x with priv := writeBytes x.priv a (leBytes 8 v.toNat) }
          | none => x
        .go (h.setThread t (x.setReg w.rd.toNat old))
      else if scr then
        let old := h.memWord 1 (a / 8)
        if old.2 then .trap h .dataPoison (some (BitVec.ofNat 64 a))
        else
          let h := match store old.1 with | some v => h.putWord 1 (a / 8) v false | none => h
          .go (h.setThread t ((h.thread t).setReg w.rd.toNat old.1))
      else
        let i := a % 64 / 8
        let l := h.current (pelotonOf (engineOf t)) (a / 64)
        if l.poisoned (a % 64) 8 then .trap h .dataPoison (some (BitVec.ofNat 64 a))
        else
          let old := l.word i
          match (match store old with
            | some v => (h.atL2 (engineOf t) (a / 64) (fun l => l.store (a % 64) (leBytes 8 v.toNat))).map Prod.fst
            | none => some h) with
          | none => .wait
          | some h => .go (h.setThread t ((h.thread t).setReg w.rd.toNat old))))

/-- Every field after PS is 0. -/
def bare (w : GWord) (fn : BitVec 7) : Bool := w.rd = 0 && w.ra = 0 && w.rb = 0 && w.fn = fn && w.imm = 0

/-- FENCE (R35): the merging buffer drains (R397); the order it asks for holds anyway, since instructions of the model take
effect one after another. -/
def execFence (t : Nat) (w : GWord) (s : State) : Host.Outcome State Fault Refusal :=
  s.run (fun h => h.issue t (w.common 0x0B) (bare w 0) .O [] (fun h _ =>
    match h.drainWt (engineOf t) with | none => .wait | some h => .go h))

/-! ## Control -/

/-- A jump, with the bounds of R37. -/
def jumpTo (h : Head) (x : Thread) (pc : Word) : Iss := if x.outside pc then .trap h .bounds (some pc) else .jump h pc

/-- BR (R36). -/
def execBr (t : Nat) (w : GWord) (s : State) : Host.Outcome State Fault Refusal :=
  s.run (fun h => h.issue t (w.common 0x10) (w.rd = 0 && w.ra = 0 && w.rb = 0 && w.fn = 0) .O [] (fun h x =>
    jumpTo h x (branchTarget x w.imm)))

/-- CALL (R36). -/
def execCall (t : Nat) (w : GWord) (s : State) : Host.Outcome State Fault Refusal :=
  s.run (fun h => h.issue t (w.common 0x11) (w.ra = 0 && w.rb = 0 && w.fn = 0) .O [w.rd.toNat] (fun h x =>
    let pc := branchTarget x w.imm
    if x.outside pc then .trap h .bounds (some pc)
    else .jump (h.setThread t (x.setReg w.rd.toNat (x.pc + 8))) pc))

/-- JR (R36). -/
def execJr (t : Nat) (w : GWord) (s : State) : Host.Outcome State Fault Refusal :=
  s.run (fun h => h.issue t (w.common 0x12) (w.rd = 0 && w.rb = 0 && w.fn = 0 && w.imm = 0) .O [w.ra.toNat] (fun h x =>
    let pc := x.reg w.ra.toNat
    if pc.toNat % 8 ≠ 0 then .trap h .align (some pc) else jumpTo h x pc))

/-- END (R36): the thread waits for its verbs; the merging buffer drains first. -/
def execEndp (t : Nat) (w : GWord) (s : State) : Host.Outcome State Fault Refusal :=
  s.run (fun h => h.issue t (w.common 0x13) (w.rd = 0 && w.rb = 0 && w.fn = 0 && w.imm = 0) .O [w.ra.toNat] (fun h x =>
    match h.drainWt (engineOf t) with
    | none => .wait
    | some h => .go (h.setThread t { x with run := .ending (x.reg w.ra.toNat) })))

/-- WAITV (R36, R45): where a verb is still awaited the thread stops. -/
def execWaitv (t : Nat) (w : GWord) (s : State) : Host.Outcome State Fault Refusal :=
  s.run (fun h => h.issue t (w.common 0x14) (bare w 0) .O [] (fun h x =>
    match h.drainWt (engineOf t) with
    | none => .wait
    | some h => .go (h.setThread t (if x.verbsDone then x.collect else { x with run := .waitAll }))))

/-- TRAP (R36, R49): SOFT with the code in TADDR. -/
def execTrap (t : Nat) (w : GWord) (s : State) : Host.Outcome State Fault Refusal :=
  s.run (fun h => h.issue t (w.common 0x15)
    (w.rd = 0 && w.ra = 0 && w.rb = 0 && w.fn = 0 && decide (w.imm.toNat < 256)) .O [] (fun h _ =>
      .trap h .soft (some (w.imm.setWidth 64))))

/-- NOP (R36). -/
def execNop (t : Nat) (w : GWord) (s : State) : Host.Outcome State Fault Refusal :=
  s.run (fun h => h.compute t (w.common 0x16) (bare w 0) [] (fun x => x))

/-- CLRVS (R36). -/
def execClrvs (t : Nat) (w : GWord) (s : State) : Host.Outcome State Fault Refusal :=
  s.run (fun h => h.compute t (w.common 0x17) (bare w 0) [] (fun x => { x with vs := 0 }))

/-! ## Queues and signals -/

/-- A hardware queue. -/
def Head.hwq (h : Head) (q : Nat) : List Word := look [] h.core.hwq q

/-- The head with a hardware queue replaced. -/
def Head.setHwq (h : Head) (q : Nat) (l : List Word) : Head := h.setCore { h.core with hwq := place [] h.core.hwq q l }

/-- Entries that a hardware queue holds (at least one; log entry 26). -/
def queueDepth (q : Nat) : Nat := Config.hwqDepth q + 1

/-- The queue an instruction names: RA + IMM. DESIGN CHOICE, log entry 84: Table 2-9 does not say how IMM is extended; it is
sign-extended, as in every other sum with IMM. -/
def queueOf (x : Thread) (w : GWord) : Nat := (x.reg w.ra.toNat + sext32 w.imm).toNat

/-- Class and identity that allocations of a thread are charged to (Table 13-8). -/
def Thread.cls (x : Thread) : Nat := bits x.charge.toNat 17 16
def Thread.chargeId (x : Thread) : Nat := bits x.charge.toNat 15 0

/-- QPUT (R39, R411). TADDR after BOUNDS for a queue number, here and in QGET and QTRY, is that number (DESIGN CHOICE, log entry
84). -/
def execQput (t : Nat) (w : GWord) (s : State) : Host.Outcome State Fault Refusal :=
  s.run (fun h => h.issue t (w.common 0x18) (w.rd = 0 && w.fn = 0x00) .F [w.ra.toNat, w.rb.toNat] (fun h x =>
    let q := queueOf x w
    let v := x.reg w.rb.toNat
    if 4096 ≤ q then .trap h .bounds (some (BitVec.ofNat 64 q))
    else if 4080 ≤ q then
      match h.bufRelease (q - 4080) v with
      | some h => .go h
      | none => .trap (h.badFree (q - 4080) 1 (engineOf t) v x.charge) .pool none
    else if queueDepth q ≤ (h.hwq q).length then .wait
    else .go (h.setHwq q (h.hwq q ++ [v]))))

/-- What QGET and QTRY take from a queue: an entry or buffer, nothing, or a breach of a quota. -/
def Head.takeFrom (h : Head) (x : Thread) (q : Nat) : Got :=
  if 4080 ≤ q then h.bufAlloc (q - 4080) x.cls x.chargeId
  else match h.hwq q with
    | v :: r => .buf (h.setHwq q r) v
    | [] => .empty

/-- QGET (R39, R410, R412). -/
def execQget (t : Nat) (w : GWord) (s : State) : Host.Outcome State Fault Refusal :=
  s.run (fun h => h.issue t (w.common 0x18) (w.rb = 0 && w.fn = 0x01) .F [w.rd.toNat, w.ra.toNat] (fun h x =>
    let q := queueOf x w
    if 4096 ≤ q then .trap h .bounds (some (BitVec.ofNat 64 q))
    else match h.takeFrom x q with
      | .quota => .trap h .pool none
      | .empty => .wait
      | .buf h v => .go (h.setThread t ((h.thread t).setReg w.rd.toNat v))))

/-- QTRY (R39, R410, R412). -/
def execQtry (t : Nat) (w : GWord) (s : State) : Host.Outcome State Fault Refusal :=
  s.run (fun h => h.issue t (w.common 0x18) (w.rb = 0 && w.fn = 0x02) .F [w.rd.toNat, w.ra.toNat] (fun h x =>
    let q := queueOf x w
    if 4096 ≤ q then .trap h .bounds (some (BitVec.ofNat 64 q))
    else match h.takeFrom x q with
      | .quota => .trap h .pool none
      | .empty => .go (h.setThread t (x.setPred 7 false))
      | .buf h v => .go (h.setThread t (((h.thread t).setReg w.rd.toNat v).setPred 7 true))))

/-- A thread with a signal bit set: an idle one wakes (R39). -/
def Thread.signalled (x : Thread) (b : Nat) : Thread :=
  { x with sigs := x.sigs ||| (1#64 <<< b), run := if x.run = .idle then .running else x.run }

/-- SIG (R39). TADDR after BOUNDS for a thread number is RA (DESIGN CHOICE, log entry 84). -/
def execSig (t : Nat) (w : GWord) (s : State) : Host.Outcome State Fault Refusal :=
  s.run (fun h => h.issue t (w.common 0x18)
    (w.rd = 0 && w.rb = 0 && w.fn = 0x08 && decide (w.imm.toNat < 64)) .F [w.ra.toNat] (fun h x =>
      let n := (x.reg w.ra.toNat).toNat
      if 776 ≤ n then .trap h .bounds (some (x.reg w.ra.toNat))
      else .go (h.setThread n ((h.thread n).signalled w.imm.toNat))))

/-- WAITS (R39). -/
def execWaits (t : Nat) (w : GWord) (s : State) : Host.Outcome State Fault Refusal :=
  s.run (fun h => h.issue t (w.common 0x18) (w.ra = 0 && w.fn = 0x09 && w.imm = 0) .F [w.rd.toNat, w.rb.toNat] (fun h x =>
    let m := x.sigs &&& x.reg w.rb.toNat
    if m = 0 then .wait
    else .go (h.setThread t ({ x with sigs := x.sigs &&& ~~~m }.setReg w.rd.toNat m))))

/-! ## Privileged -/

/-- ERET (R49): PC := TPC and ACT is cleared. A TPC never written is a free value (R7, log entry 5). -/
def execEret (t : Nat) (w : GWord) (s : State) : Host.Outcome State Fault Refusal :=
  s.run (fun h => h.issue t (w.common 0x28) (bare w 0x00) .F [] (fun h x =>
    let pc := if x.xw.getLsbD 1 then x.tpc else Config.freeWord h.fresh
    .jump (h.tick.setThread t { x with tcause := x.tcause &&& ~~~(1#64 <<< 17) }) pc))

/-- A range of RA and RB that leaves HBM. -/
def rangeOut (a n : Word) : Bool := decide (hbmLimit < a.toNat + n.toNat)

/-- A range operation: fields, bounds, effect (R403). -/
def rangeOp (t : Nat) (w : GWord) (fn : BitVec 7) (wb inv : Bool) (s : State) : Host.Outcome State Fault Refusal :=
  s.run (fun h => h.issue t (w.common 0x28) (w.rd = 0 && w.fn = fn && decide (w.imm.toNat < 4)) .F
    [w.ra.toNat, w.rb.toNat] (fun h x =>
      let a := x.reg w.ra.toNat
      let n := x.reg w.rb.toNat
      if rangeOut a n then .trap h .bounds (some a)
      else .go (h.cacheRange (engineOf t) a.toNat n.toNat w.imm.toNat wb inv)))

/-- CINV (R403). -/
def execCinv (t : Nat) (w : GWord) (s : State) : Host.Outcome State Fault Refusal := rangeOp t w 0x01 false true s

/-- CWB (R403). -/
def execCwb (t : Nat) (w : GWord) (s : State) : Host.Outcome State Fault Refusal := rangeOp t w 0x02 true false s

/-- CWBI (R403). -/
def execCwbi (t : Nat) (w : GWord) (s : State) : Host.Outcome State Fault Refusal := rangeOp t w 0x03 true true s

/-- IINV (Table 2-10): the engine's L1 I drops the lines of the range. -/
def execIinv (t : Nat) (w : GWord) (s : State) : Host.Outcome State Fault Refusal :=
  s.run (fun h => h.issue t (w.common 0x28) (w.rd = 0 && w.fn = 0x04 && w.imm = 0) .F [w.ra.toNat, w.rb.toNat] (fun h x =>
    let a := x.reg w.ra.toNat
    let n := x.reg w.rb.toNat
    if rangeOut a n then .trap h .bounds (some a)
    else
      let e := engineOf t
      let inside := fun (l : Nat) => decide (0 < n.toNat) && decide (a.toNat / 64 ≤ l) && decide (64 * l < a.toNat + n.toNat)
      .go (h.setL1 e { h.l1 e with iline := (h.l1 e).iline.filter (fun l => !inside l) })))

/-- LOCKFILL's way is locked and its range keeps the limits (R402). -/
def Head.lockFillOk (h : Head) (e way a n : Nat) : Bool :=
  decide (e < 96) && h.wayLocked (pelotonOf e) way && a % 64 = 0 && n % 64 = 0 && decide (64 ≤ n) && decide (n ≤ 262144) &&
    decide (a + n ≤ hbmLimit)

/-- LOCKFILL (R402). -/
def execLockfill (t : Nat) (w : GWord) (s : State) : Host.Outcome State Fault Refusal :=
  s.run (fun h => h.issue t (w.common 0x28) (w.rd = 0 && w.fn = 0x05 && decide (w.imm.toNat < 16)) .F
    [w.ra.toNat, w.rb.toNat] (fun h x =>
      let a := x.reg w.ra.toNat
      let n := x.reg w.rb.toNat
      if h.lockFillOk (engineOf t) w.imm.toNat a.toNat n.toNat then
        .go (h.lockFill (pelotonOf (engineOf t)) w.imm.toNat a.toNat n.toNat)
      else .trap h .bounds (some a)))

/-- IDLE (Table 2-10): a signal bit that is already set does not let it stop (DEDUCED, log entry 27). -/
def execIdle (t : Nat) (w : GWord) (s : State) : Host.Outcome State Fault Refusal :=
  s.run (fun h => h.issue t (w.common 0x28) (bare w 0x08) .F [] (fun h x =>
    .go (h.setThread t { x with run := if x.sigs = 0 then .idle else .running })))

/-- HALT (Table 2-10). -/
def execHalt (t : Nat) (w : GWord) (s : State) : Host.Outcome State Fault Refusal :=
  s.run (fun h => h.issue t (w.common 0x28) (bare w 0x09) .F [] (fun h x => .go (h.setThread t { x with run := .halted })))

/-- Word k of the dispatch descriptor at a line (Table 13-1). -/
def descWord (l : Ln) (k hi lo : Nat) : Nat := bits (l.word k).toNat hi lo

/-- The BOUNDS cases of R389. -/
def dispatchOut (l : Ln) (n : Nat) (tier : Tier) : Bool :=
  let buf := descWord l 1 63 63 = 1
  let len := descWord l 1 31 0
  (!buf && tier ≠ .F) || (decide (768 ≤ n) && tier ≠ .F) ||
    len = 0 || decide ((if buf then 256 else 1048576) < len) ||
    descWord l 0 2 0 ≠ 0 || descWord l 1 62 50 ≠ 0 || l.word 6 ≠ 0 || l.word 7 ≠ 0

/-- A tier by its encoding. -/
def tierOf (n : Nat) : Tier := match n with | 0 => .O | 1 => .I | 2 => .M | _ => .F

/-- A thread that DISPATCH can start a program on (R389). -/
def Head.startable (h : Head) (n : Nat) : Bool :=
  ((h.thread n).run = .free || (h.thread n).run = .halted) && h.runs (islandOf n)

/-- DISPATCH (R388, R389). TADDR after BOUNDS is the descriptor's address whatever was out of range (DESIGN CHOICE, log entry
84). -/
def execDispatch (t : Nat) (w : GWord) (s : State) : Host.Outcome State Fault Refusal :=
  s.run (fun h => h.issue t (w.common 0x28) (w.rd = 0 && w.fn = 0x0A && decide (w.imm.toNat < 4)) .F
    [w.ra.toNat, w.rb.toNat] (fun h x =>
      let n := (x.reg w.ra.toNat).toNat
      let d := x.reg w.rb.toNat
      let tier := tierOf w.imm.toNat
      if d.toNat % 64 ≠ 0 then .trap h .align (some d)
      else if 776 ≤ n ∨ hbmLimit < d.toNat + 64 ∨ inInstr d.toNat 64 then .trap h .bounds (some d)
      else
        let l := h.current (pelotonOf (engineOf t)) (d.toNat / 64)
        if dispatchOut l n tier then .trap h .bounds (some d)
        else if !h.startable n then .wait
        else
          .go (h.setThread n ((h.thread n).begin tier [l.word 2, l.word 3, l.word 4, l.word 5]
            (descWord l 1 63 63 = 1) (descWord l 1 31 0) (descWord l 0 63 0)
            (pack [(16, descWord l 1 49 48), (0, descWord l 1 47 32)]) none))))

/-! ## A verb issued without wait completes (R44, R45) -/

/-- VERB_COMPLETE: the `i`-th outstanding verb of a thread, where it has been answered, writes RD and is awaited no more;
p7 and VS change only at WAITV or END. -/
def execVerbComplete (t i : Nat) (s : State) : Host.Outcome State Fault Refusal :=
  s.run (fun h =>
    let x := h.thread t
    match x.verbs[i]? with
    | none => h
    | some v =>
      match v.ans with
      | none => h
      | some a =>
        if v.taken || x.run = .waitVerb v.vid then h
        else
          h.setThread t { (x.setReg v.rd.toNat a.result) with
            verbs := x.verbs.map (fun (u : OutVerb) => if u.vid = v.vid then { u with taken := true } else u) })

end Sys2Proof.Machine
end

