-- ==== Sys2Proof/Machine/Verbs.lean ====
section
/-! DEFINITION. The host verbs at issue (R42-R46, R62-R73, R79, R98, R164, R450): the checks in their order, what a verb
does at once, what it waits for. Effects at the commit point stand in Effects, the way there in Settle. -/

namespace Sys2Proof.Machine

/-! ## Issue -/

/-- A verb put among those that wait. -/
def Head.push (h : Head) (v : HVerb) (aw : Await) : Head := h.setVerbs (h.work.verbs ++ [{ v with aw := aw }])

/-- A verb of code C that has its answer and waits for the packets of its delivery. -/
def Head.pushC (h : Head) (v : HVerb) (aw : Await) (res : VRes) : Head :=
  h.setVerbs (h.work.verbs ++ [{ v with aw := aw, res := res, codeC := true, past := true }])

/-- A verb of code A is accepted: it is past its commit point (Table 3-4). -/
def Head.pushA (h : Head) (v : HVerb) (aw : Await) (res : VRes) : Head :=
  h.setVerbs (h.work.verbs ++ [{ v with aw := aw, res := res, past := true }])

/-- A verb that fails its checks. -/
def Head.failVerb (h : Head) (v : HVerb) (s : Status) : Head := h.answerVerb v (.fail s)

/-- A logged verb of a re-run program answers from the log and does not act (R164): the first entry left with its verb
code (DEDUCED, log entry 28). -/
def Head.fromLog (h : Head) (v : HVerb) : Option Head :=
  match h.caller v with
  | none => none
  | some c =>
    match c.replay.find? (fun e => e.vc = v.vc) with
    | none => none
    | some e =>
      let h := h.updCmd (c.side, c.seq) (fun c => { (c.marked v (v.vc = 5)) with
        replay := c.replay.erase e, aux := if givesAux v.vc then e.aux else c.aux
        pmap := c.pmap || (v.vc = 3 && v.ops.length = 5 && e.status ≠ .invalid) })
      some (h.giveThread v.t v.vid (⟨e.status, e.result, e.aux, false⟩ : VRes))

/-- What R98 forbids a command under contract. -/
def Head.forbidden (h : Head) (v : HVerb) : Bool :=
  match h.caller v with
  | none => false
  | some c =>
    if !c.con then false
    else
      match h.contract c.contract with
      | none => !(v.vc = 4 || v.vc = 5)
      | some k =>
        let put := fun (len : Nat) => v.arg 0 ≠ k.volume || decide (k.frame < len)
        if v.vc = 1 then put (v.arg 3) else if v.vc = 2 then put (v.arg 2) else !(v.vc = 4 || v.vc = 5)

/-- The tier check of R43: QRESET needs I but for a queue its slot owns, the I verbs need I, and the installer-only ones
refuse a maker (R417). -/
def Head.tierFails (h : Head) (v : HVerb) (tier : Tier) : Bool :=
  let low := installerOnly v.vc || v.vc = 0x18 ||
    (v.vc = 0x17 && (match h.caller v with | some c => c.cred ≠ h.cfgS c.side .QCFG (v.arg 0) 55 48 | none => false))
  (low && !Tier.I.le tier) || (installerOnly v.vc && tier = .M)

/-- A verb of a re-run program that acted in its first run and was not answered: the verb of the re-run is that one, and nothing acts twice
(R162, R164). -/
def Head.resumeVerb (h : Head) (v : HVerb) : Option Head :=
  match h.work.verbs.find? (fun x => x.cmd.isSome && x.cmd = v.cmd && x.k = v.k && x.vc = v.vc && x.past && !x.codeC && x.ans.isNone &&
      x.vid ≠ v.vid) with
  | none => none
  | some o =>
    let h := { h with vols := { h.vols with
      atoms := h.vols.atoms.map (fun (a : ASlot) => if a.vid = o.vid then { a with vid := v.vid } else a) } }
    some (h.setVerbs ((h.work.verbs.filter (fun x => x.vid ≠ o.vid)) ++ [{ o with vid := v.vid, t := v.t }]))

/-- A verb that has issued: it answers from the log, goes on where its first run left it, fails the checks of R62 in their order, or begins. `counts` are the
operand counts Table 3-5 allows; another count is an operand out of range (DEDUCED, log entry 29). -/
def Head.beginVerb (h : Head) (v : HVerb) (tier : Tier) (counts : List Nat) (begin_ : Head → HVerb → Head) : Head :=
  match h.fromLog v with
  | some h => h
  | none =>
  match h.resumeVerb v with
  | some h => h
  | none =>
    if h.tierFails v tier then h.failVerb v .tier
    else if h.forbidden v || !(counts.contains v.ops.length) then h.failVerb v .invalid
    else begin_ h v

/-- One more verb issued by the program of a command. -/
def Head.countVerb (h : Head) (k : Option (Nat × Nat)) : Head :=
  match k with
  | some k => h.updCmd k (fun c => { c with issued := c.issued + 1 })
  | none => h

/-- Verbs of a thread that are not answered. -/
def Thread.outs (x : Thread) : Nat := x.verbs.countP (fun v => v.ans.isNone)

/-- A verb issued by a thread, and the head that holds it as outstanding (R42-R45): its number, code and operands; with W = 1
the thread waits for it. -/
def Head.verbIssued (h : Head) (x : Thread) (t vc : Nat) (w : VWord) : Head × HVerb :=
  let h := h.logGrown x.cmd x.outs
  let vid := h.work.vid
  let v : HVerb :=
    { vid := vid, vc := vc, t := t, cmd := x.cmd, ops := verbOps x w, imm := w.imm.toNat, ans := none, tag := none
      aw := .nothing, past := false, codeC := false, op := none, res := .ok 0
      k := (match x.cmd.bind h.cmd with | some c => c.issued | none => 0) }
  let o : OutVerb := ⟨vid, vc, w.rd, none, false⟩
  let h := (h.countVerb x.cmd).nextVerb
  (h.setThread t { x with verbs := x.verbs ++ [o], run := if w.w then .waitVerb vid else x.run }, v)

/-- A thread issues a verb (R44, R45): a ninth outstanding one waits, and so does one for which the verb log has no room (log entry
89). -/
def Head.issueVerb (h : Head) (x : Thread) (t vc : Nat) (w : VWord) (run : Head → HVerb → Head) : Iss :=
  if 8 ≤ x.outs || h.logWaits x.cmd x.outs then .wait
  else
    let y := h.verbIssued x t vc w
    .act (run y.1 y.2)

/-- A host verb of a thread. -/
def Head.hostVerb (h : Head) (t vc mask : Nat) (counts : List Nat) (w : VWord) (begin_ : Head → HVerb → Head) : Head :=
  h.issue t w.common (verbLegal mask w) .O (verbUses w) (fun h x =>
    h.issueVerb x t vc w (fun h v => h.beginVerb v x.tier counts begin_))

/-- A command names the present generation of a window as a source (R139). -/
def Head.named (h : Head) (v : HVerb) (w : Window) : Head :=
  match v.cmd with
  | none => h
  | some k =>
    let h := h.updWindow' w.side w.idx (fun w => { w with users := if w.users.contains k then w.users else w.users ++ [k] })
    h.updCmd k (fun c => { c with srcs := (w.side, w.idx, w.gen) :: c.srcs })

/-! ## PUT and PUTA (R64, R65, R69-R73, R298) -/

/-- Atomic slots that hold writes of the sides that this head serves; the peer's stand among them only as its mirror (R65). -/
def Head.atomsFull (h : Head) : Bool := decide (64 ≤ h.vols.atoms.countP (fun a => h.serves a.side))

/-- The slot that a first run of a write took and that its re-run goes on with (Table 10-6). -/
def Head.atomOf (h : Head) (v : HVerb) (vol len : Nat) : Option ASlot :=
  h.vols.atoms.find? (fun a => v.cmd = some (a.side, a.seq) && a.state = .opened && a.vol = vol && a.len = len &&
    !(h.work.verbs.any (fun x => x.vid = a.vid)))

/-- The atomic slot of a write taken (R298). -/
def Head.takeAtom (h : Head) (v : HVerb) (vol off len : Nat) : Head :=
  let k := v.cmd.getD (h.side, 0)
  let rest := match h.atomOf v vol len with
    | some a => h.vols.atoms.filter (fun x => x.vid ≠ a.vid)
    | none => h.vols.atoms
  let a : ASlot := ⟨k.1, k.2, v.vid, vol, off, len, .opened, 0, 0⟩
  ({ h with vols := { h.vols with atoms := rest ++ [a] } }).record' (.atomic a false)

/-- The source a write names (R71, R72): inline data, or a lehr window. -/
def Head.writeSource (h : Head) (v : HVerb) (r : Word) (len : Nat) : Except Status (Head × Src) :=
  if r = 0 then
    match h.caller v with
    | none => .error .invalid
    | some c => if c.inl.length = len then .ok (h, .inl c.inl) else .error .lengthMismatch
  else
    match h.ref (h.vside v) (h.vreplay v) r with
    | .error s => .error s
    | .ok w =>
      if w.out || w.unmir || decide (w.size < refOff r + len) then .error .invalid
      else .ok (h.named v w, .win w.key w.gen (refOff r))

/-- A write begins. The slots are tested after the source (DESIGN CHOICE, log entry 90: R65 and R69 to R72 give CAPACITY no place among
their statuses). -/
def Head.beginPut (h : Head) (v : HVerb) (vol : Nat) (off : Option Nat) (r : Word) (len : Nat) : Head :=
  let atom := v.imm % 2 = 1
  match h.volFor v vol with
  | none => h.failVerb v .invalid
  | some _ =>
    if (match off with | some o => pastEnd o len | none => decide (2 ^ 50 < len)) || (atom && decide (268435456 < len)) then
      h.failVerb v .invalid
    else
      match h.writeSource v r len with
      | .error s => h.failVerb v s
      | .ok (h, src) =>
        if atom && decide (0 < len) && h.atomsFull && (h.atomOf v vol len).isNone then h.failVerb v .capacity
        else
          let h := if atom && decide (0 < len) then h.takeAtom v vol (off.getD 0) len else h
          h.push v (.put ⟨vol, off, len, src, atom, off.isNone, [], [], [], []⟩)

/-- PUT (R69-R73). -/
def execPut (t : Nat) (w : VWord) (s : State) : Host.Outcome State Fault Refusal :=
  s.run (fun h => h.hostVerb t 0x01 1 [4] w (fun h v => h.beginPut v (v.arg 0) (some (v.arg 1)) (nth 0 v.ops 2) (v.arg 3)))

/-- PUTA (R64, R69-R73). -/
def execPuta (t : Nat) (w : VWord) (s : State) : Host.Outcome State Fault Refusal :=
  s.run (fun h => h.hostVerb t 0x02 1 [3] w (fun h v => h.beginPut v (v.arg 0) none (nth 0 v.ops 1) (v.arg 2)))

/-- The wait of a write for its last-flag packet has lasted QCFG.WAIT (R69): LENGTH_SHORT, nothing is written. -/
def execLastFlagWaitExpire (vid : Nat) (s : State) : Host.Outcome State Fault Refusal :=
  s.run (fun h =>
    match h.work.verbs.find? (fun v => v.vid = vid) with
    | none => h
    | some v =>
      match v.aw with
      | .put p =>
        match h.putSource v p with
        | none =>
          (match p.src with
           | .win key _ _ =>
             (match h.window (h.vside v) key with
              | some w => if w.state = .sealed then h else ((h.freeAtom vid).failVerb v .lengthShort).settle
              | none => h)
           | .inl _ => h)
        | some _ => h
      | _ => h)

/-! ## GET (R66) -/

/-- GET begins: its operands are checked, and it reads (R66, R222); the answer waits for what stands on flash and for the delivery
(R144). -/
def Head.beginGet (h : Head) (v : HVerb) : Head :=
  let vol := v.arg 0
  let off := v.arg 1
  let len := v.arg 3
  match h.volFor v vol with
  | none => h.failVerb v .invalid
  | some _ =>
    if pastEnd off len then h.failVerb v .invalid
    else
      let side := h.vside v
      let re := h.vreplay v
      let map := if v.ops.length = 5 then some (nth 0 v.ops 4) else none
      match h.dest side re (nth 0 v.ops 2) len with
      | .error s => h.failVerb v s
      | .ok _ =>
        match (match map with
          | some m => (match h.dest side re m (((granules off len).length + 7) / 8) with | .error s => some s | .ok _ => none)
          | none => none) with
        | some s => h.failVerb v s
        | none =>
          if len = 0 then h.pushC v .nothing ⟨.ok, 0, 0, false⟩
          else ((h.pushC v (.reads false) (.ok 0)).stepRead v false).1

/-- GET (R66). -/
def execGet (t : Nat) (w : VWord) (s : State) : Host.Outcome State Fault Refusal :=
  s.run (fun h => h.hostVerb t 0x03 0 [4, 5] w Head.beginGet)

/-! ## Verbs that act at the commit point -/

/-- FLUSH and MARK of stream scope need ORD = 1 (R153, R154). -/
def Head.beginCover (h : Head) (v : HVerb) : Head :=
  match h.caller v with
  | none => h.failVerb v .invalid
  | some c => if v.imm % 2 = 1 && !c.ord then h.failVerb v .invalid else h.push v .effect

/-- FLUSH (R154). -/
def execFlush (t : Nat) (w : VWord) (s : State) : Host.Outcome State Fault Refusal :=
  s.run (fun h => h.hostVerb t 0x04 1 [0] w Head.beginCover)

/-- MARK (R153). -/
def execMark (t : Nat) (w : VWord) (s : State) : Host.Outcome State Fault Refusal :=
  s.run (fun h => h.hostVerb t 0x05 1 [0] w Head.beginCover)

/-- A verb of code E with its operands. -/
def Head.beginEffect (h : Head) (v : HVerb) : Head := h.push v .effect

/-- DROP (R238). -/
def execDrop (t : Nat) (w : VWord) (s : State) : Host.Outcome State Fault Refusal :=
  s.run (fun h => h.hostVerb t 0x06 0 [3] w Head.beginEffect)

/-- SDROP (R306). -/
def execSdrop (t : Nat) (w : VWord) (s : State) : Host.Outcome State Fault Refusal :=
  s.run (fun h => h.hostVerb t 0x07 0 [1] w Head.beginEffect)

/-- SNAP (R303). -/
def execSnap (t : Nat) (w : VWord) (s : State) : Host.Outcome State Fault Refusal :=
  s.run (fun h => h.hostVerb t 0x08 1 [1] w Head.beginEffect)

/-- CLONE (R307). -/
def execClone (t : Nat) (w : VWord) (s : State) : Host.Outcome State Fault Refusal :=
  s.run (fun h => h.hostVerb t 0x09 0 [2] w Head.beginEffect)

/-- REPLICATE, start (R311). -/
def execReplicateStart (t : Nat) (w : VWord) (s : State) : Host.Outcome State Fault Refusal :=
  s.run (fun h => h.hostVerb t 0x0A 3 [2] w Head.beginEffect)

/-- REPLICATE, stop (R311). -/
def execReplicateStop (t : Nat) (w : VWord) (s : State) : Host.Outcome State Fault Refusal :=
  s.run (fun h => h.hostVerb t 0x0A 3 [2] w (fun h v => h.beginEffect v))

/-- REPLICATE, report (R311). -/
def execReplicateReport (t : Nat) (w : VWord) (s : State) : Host.Outcome State Fault Refusal :=
  s.run (fun h => h.hostVerb t 0x0A 3 [2] w (fun h v => h.push v .effect))

/-- WINDOW.OPEN (R133, R134). -/
def execWindowOpen (t : Nat) (w : VWord) (s : State) : Host.Outcome State Fault Refusal :=
  s.run (fun h => h.hostVerb t 0x0B 0 [2] w Head.beginEffect)

/-- WINDOW.REVOKE (R140). -/
def execWindowRevoke (t : Nat) (w : VWord) (s : State) : Host.Outcome State Fault Refusal :=
  s.run (fun h => h.hostVerb t 0x0C 0 [1] w Head.beginEffect)

/-- ARM (R67, R143). -/
def execArm (t : Nat) (w : VWord) (s : State) : Host.Outcome State Fault Refusal :=
  s.run (fun h => h.hostVerb t 0x0D 1 [2] w Head.beginEffect)

/-- CONTRACT.OPEN (R84, R94). -/
def execContractOpen (t : Nat) (w : VWord) (s : State) : Host.Outcome State Fault Refusal :=
  s.run (fun h => h.hostVerb t 0x0E 0 [2] w Head.beginEffect)

/-- CONTRACT.CLOSE (R101). -/
def execContractClose (t : Nat) (w : VWord) (s : State) : Host.Outcome State Fault Refusal :=
  s.run (fun h => h.hostVerb t 0x0F 0 [1] w Head.beginEffect)

/-- EVENT.CLEAR (R451). -/
def execEventClear (t : Nat) (w : VWord) (s : State) : Host.Outcome State Fault Refusal :=
  s.run (fun h => h.hostVerb t 0x16 0 [0] w Head.beginEffect)

/-- DOZE, enter (R80). -/
def execDozeEnter (t : Nat) (w : VWord) (s : State) : Host.Outcome State Fault Refusal :=
  s.run (fun h => h.hostVerb t 0x19 1 [1] w Head.beginEffect)

/-- DOZE, leave (R80). -/
def execDozeLeave (t : Nat) (w : VWord) (s : State) : Host.Outcome State Fault Refusal :=
  s.run (fun h => h.hostVerb t 0x19 1 [1] w (fun h v => h.beginEffect v))

/-- UPDATE.STAGE (R439). -/
def execUpdateStage (t : Nat) (w : VWord) (s : State) : Host.Outcome State Fault Refusal :=
  s.run (fun h => h.hostVerb t 0x1A 0 [2] w Head.beginEffect)

/-- CONFIRM (R441). -/
def execConfirm (t : Nat) (w : VWord) (s : State) : Host.Outcome State Fault Refusal :=
  s.run (fun h => h.hostVerb t 0x1C 0 [0] w Head.beginEffect)

/-! ## JOURNAL.READ (R79, R157) and EVENT.READ (R450) -/

/-- The newest sequence number of a side that may be read: where the pair is whole and the side is this head's own, the
newest whose ACCEPTED record is in the peer's mirror (R157). -/
def Head.readable (h : Head) (side : Nat) : Nat :=
  let newest := (h.jour side).newest
  if side = h.side && h.whole then
    match (h.pair.link.mir.unacked ++ h.pair.link.mir.waiting).findSome? (fun f => match f.2 with
      | .prec (.journal s r) => if s = side && r.state = .accepted then some r.seq else none
      | .prec (.seal _ (some a)) => if a.1 = side && a.2.state = .accepted then some a.2.seq else none
      | _ => none) with
    | some q => if q = 1 then (h.jour side).newestBefore else q - 1
    | none => newest
  else newest

/-- States of a record that are on their way to the peer and have not been acknowledged there. -/
def Head.pendingStates (h : Head) (side seq : Nat) : List JState :=
  (h.pair.link.mir.unacked ++ h.pair.link.mir.waiting).filterMap (fun f => match f.2 with
    | .prec (.journal s r) => if s = side && r.seq = seq then some r.state else none
    | .prec (.seal _ (some a)) => if a.1 = side && a.2.seq = seq then some a.2.state else none
    | .prec (.held s r) => if s = side && r.seq = seq then some r.state else none
    | .prec (.final s r _ _ _) => if s = side && r.seq = seq then some r.state else none
    | _ => none)

/-- A record of this head's own side as the peer's mirror holds it (R157): a state on its way there has not been reached yet. -/
def Head.mirrored (h : Head) (side : Nat) (r : JRec) : JRec :=
  if side = h.side && h.whole then
    let l := h.pendingStates side r.seq
    if l.contains .committed then { r with state := .accepted, result := 0, status := 0 }
    else if l.any JState.isFinal then
      { r with state := (match h.cmd (side, r.seq) with | some c => if c.passed then .committed else .accepted | none => .accepted)
               result := 0, status := 0 }
    else r
  else r

/-- The sequence number `k` places after `s` (R76: 0 is never assigned). -/
def seqAfter (s k : Nat) : Nat := if s + k < 281474976710656 then s + k else s + k + 1 - 281474976710656

/-- A number is assigned: it is not newer than the newest. -/
def assigned (newest s : Nat) : Bool := s ≠ 0 && decide ((newest + 281474976710656 - s) % 281474976710656 < 140737488355328)

/-- The records that a JOURNAL.READ finds in its range, and whether some assigned one is gone. -/
def Head.journalRange (h : Head) (side first n newest : Nat) (held : Bool) : List JRec × Bool :=
  let j := h.jour side
  if held then
    let l := ((j.held.map (fun e => e.1)).drop first).take n
    (if side = h.side && h.whole then l.filter (fun r => (h.pendingStates side r.seq).isEmpty) else l, false)
  else
    let seqs := ((upto n).map (seqAfter first)).filter (assigned newest)
    let found := seqs.map (fun q => j.inRing q)
    ((found.filterMap id).map (h.mirrored side), found.any (fun r => r.isNone))

/-- JOURNAL.READ acts at once (R79). -/
def Head.beginJournalRead (h : Head) (v : HVerb) : Head :=
  let side := v.arg 0
  let n := v.arg 2
  if 1 < side ∨ 65536 < n then h.failVerb v .invalid
  else
    let newest := h.readable side
    if n = 0 then h.pushC v .nothing ⟨.ok, BitVec.ofNat 64 newest, 0, false⟩
    else
      match h.dest (h.vside v) (h.vreplay v) (nth 0 v.ops 3) (32 * n) with
      | .error s => h.failVerb v s
      | .ok _ =>
        let x := h.journalRange side (v.arg 1) n newest (v.imm % 2 = 1)
        let slot := h.vslot v
        let deny := fun (r : JRec) => slotTier slot = .O && slot ≠ h.cfgS side .QCFG r.queue 55 48
        let b := (x.1.map (fun r => r.bytes (deny r))).flatten
        match h.deliver (h.vside v) (h.vreplay v) (nth 0 v.ops 3) b with
        | .error s => h.failVerb v s
        | .ok (h, c, ps) =>
          h.pushC v (.deliver (ps.map (fun p => (c, p))))
            ⟨if x.2 then .partially else .ok, BitVec.ofNat 64 newest, x.1.length, false⟩

/-- JOURNAL.READ (R79). -/
def execJournalRead (t : Nat) (w : VWord) (s : State) : Host.Outcome State Fault Refusal :=
  s.run (fun h => h.hostVerb t 0x14 1 [4] w Head.beginJournalRead)

/-- EVENT.READ acts at once (R450). -/
def Head.beginEventRead (h : Head) (v : HVerb) : Head :=
  let first := v.arg 0
  let n := v.arg 1
  if 65536 < n then h.failVerb v .invalid
  else if n = 0 then h.pushC v .nothing ⟨.ok, BitVec.ofNat 64 h.newestEvent, 0, false⟩
  else
    match h.dest (h.vside v) (h.vreplay v) (nth 0 v.ops 2) (64 * n) with
    | .error s => h.failVerb v s
    | .ok _ =>
      let seqs := ((upto n).map (fun k => first + k)).filter (fun q => decide (q ≤ h.newestEvent))
      let found := seqs.map (fun q => h.eventAt q)
      let evs := found.filterMap id
      match h.deliver (h.vside v) (h.vreplay v) (nth 0 v.ops 2) (evs.map (fun e => e.bytes)).flatten with
      | .error s => h.failVerb v s
      | .ok (h, c, ps) =>
        h.pushC v (.deliver (ps.map (fun p => (c, p))))
          ⟨if found.any (fun r => r.isNone) then .partially else .ok, BitVec.ofNat 64 h.newestEvent, evs.length, false⟩

/-- EVENT.READ (R450). -/
def execEventRead (t : Nat) (w : VWord) (s : State) : Host.Outcome State Fault Refusal :=
  s.run (fun h => h.hostVerb t 0x15 0 [3] w Head.beginEventRead)

/-! ## QRESET and RESET (R68, R75, R161, R162) -/

/-- The queue of the command that carries a verb. -/
def Head.ownQueue (h : Head) (v : HVerb) (q : Nat) : Bool := match h.caller v with | some c => c.queue = q | none => false

/-- A QRESET of a queue is accepted (R75): the queue takes no entries, those that wait in slots are discarded. A QRESET that is performed
afresh after a takeover finds a fence already taken as it stands (R170). -/
def Head.beginQreset (h : Head) (v : HVerb) (q : Nat) : Head :=
  if 65535 < q || h.ownQueue v q then h.failVerb v .invalid
  else
    let side := h.vside v
    let h := (h.updQueue side q (fun x => { x with rst := true, slots := [] })).sayQueue side q
    h.pushA v (.qreset side q) (.ok 0)

/-- QRESET (R75). -/
def execQreset (t : Nat) (w : VWord) (s : State) : Host.Outcome State Fault Refusal :=
  s.run (fun h => h.hostVerb t 0x17 0 [1] w (fun h v => h.beginQreset v (v.arg 0)))

/-- RESET of head, island or queue scope (R68, R161, R162). Firmware without a command has no completion after which a reset
could begin, and gets INVALID (log entry 30). -/
def Head.beginReset (h : Head) (v : HVerb) : Head :=
  let k := v.cmd.getD (h.side, 0)
  match v.arg 0 with
  | 0 =>
    if v.cmd.isNone then h.failVerb v .invalid
    else if h.pair.handoff.isSome then h.failVerb v .busyActivation
    else (h.setRst { h.sys.rst with pend := h.sys.rst.pend ++ [(k, 0, 0)] }).pushA v .nothing (.ok 0)
  | 1 =>
    let i := v.arg 1
    if v.cmd.isNone || h.islandRefused i then h.failVerb v .invalid
    else (h.setRst { h.sys.rst with pend := h.sys.rst.pend ++ [(k, 1, i)] }).pushA v .nothing (.ok 0)
  | 2 => h.beginQreset v (v.arg 1)
  | _ => h.failVerb v .invalid

/-- RESET, head scope (R161). -/
def execResetHead (t : Nat) (w : VWord) (s : State) : Host.Outcome State Fault Refusal :=
  s.run (fun h => h.hostVerb t 0x18 0 [2] w Head.beginReset)

/-- RESET, island scope (R162). -/
def execResetIsland (t : Nat) (w : VWord) (s : State) : Host.Outcome State Fault Refusal :=
  s.run (fun h => h.hostVerb t 0x18 0 [2] w (fun h v => h.beginReset v))

/-- RESET, queue scope (R68). -/
def execResetQueue (t : Nat) (w : VWord) (s : State) : Host.Outcome State Fault Refusal :=
  s.run (fun h => (h.hostVerb t 0x18 0 [2] w (fun h v => Head.beginReset h v)))

/-- The fence of a QRESET falls (R75, R159), once no final-state or commit write of the queue is under way. -/
def execQresetFence (side q : Nat) (s : State) : Host.Outcome State Fault Refusal :=
  s.run (fun h =>
    let x := h.queue side q
    if x.rst && !x.fence && !h.fenceWaits side q && h.working then (h.takeFence side q).settle else h)

end Sys2Proof.Machine
end

