-- ==== Sys2Proof/Machine/Write.lean ====
section
/-! DEFINITION. Register writes in general (R5-R8, R40, R417, R418, R498-R504): the checks in their order, storing fields,
settings records, the audit of an access, the answer. The registers whose write is an action stand with their chapters;
Access joins them all. -/

namespace Sys2Proof.Machine

/-- What a register write leads to: the head and the status, or an undefined outcome. -/
abbrev WriteResult := Except Fault (Head × Status)

/-- A write that changes nothing. -/
def Head.noWrite (h : Head) (s : Status) : WriteResult := .ok (h, s)

/-- The side copy that an access of a side reaches (Table 18-1). -/
def RegDef.copy (d : RegDef) (side : Nat) : Nat := if d.scope = .S then side else 0

/-- A field's code lets it be written with its value. -/
def Acc.settable (a : Acc) : Bool := a = .rw || a = .rws || a = .rwl

/-- A write acts on a field (R8). -/
def Fld.reach (f : Fld) (old v : Nat) : Bool :=
  if f.acc.settable then bits old f.hi f.lo ≠ bits v f.hi f.lo
  else if f.acc = .rw1c || f.acc = .wo then bits v f.hi f.lo ≠ 0 else false

/-- Bits of a register that belong to a field; the others are reserved (R5). -/
def RegDef.known (d : RegDef) : Nat := d.flds.foldl (fun m f => m ||| maskBits f.hi f.lo) 0

/-- Bits of a register that a write sets to the value written. -/
def RegDef.rwBits (d : RegDef) : Nat := d.flds.foldl (fun m f => if f.acc.settable then m ||| maskBits f.hi f.lo else m) 0

/-- MI serves these registers from its own copy in every state of their islands (R503). -/
def miCopy (r : Reg) : Bool :=
  [Reg.RSTSTAT, .CLKSTAT, .THERMSTAT, .CVRSTAT, .FNCSTAT, .LEHRSTAT, .SPILLSTAT, .PLSTAT, .ISTAT, .EVNEW, .EVFLOOR,
   .EVSTAT].contains r

/-- A register's island serves it (R503); in TRIM_FAULT and BOOT_FAULT only MI does. -/
def Head.served (h : Head) (d : RegDef) (i : Nat) : Bool :=
  d.scope = .T || miCopy d.reg || (d.island i = 0 && h.runs 0) ||
    (h.runs (d.island i) && !h.sys.rst.tflt && !h.sys.rst.bflt)

/-- A lock holds a field (RWL, R6): that of POOLGEO is set while the pool has built a band (R245, LIVE of Table 9-9).
DESIGN CHOICE (log entry 96): R6 lets a lock clear only at a head reset, while LIVE has Reset P and R225 makes the POOLGEO of a pool created
again writable until its first band; the lock follows LIVE. -/
def Head.lockedFld (h : Head) (d : RegDef) (i : Nat) (f : Fld) : Bool :=
  f.acc = .rwl && d.reg = .POOLGEO &&
    (match h.fl.pools.find? (fun p => p.num = i) with | some p => p.built | none => false)

/-- The value of a settable field must lie in its range (Table of the register). -/
def Fld.inRange (f : Fld) (v : Nat) : Bool :=
  !f.acc.settable || (decide (f.min ≤ bits v f.hi f.lo) && decide (bits v f.hi f.lo ≤ f.max))

/-- The value that a register's settable fields have now, in a side copy: those that the head keeps beside the register file
come from where they are kept. -/
def Head.present (h : Head) (copy : Nat) (d : RegDef) (i : Nat) : Word :=
  let p := h.sys.power
  match d.reg with
  | .CLKSTAT => pack [(51, p.loss.toNat)]
  | .TRIMSTAT => pack [(62, h.sys.rst.fails)]
  | .THERMSTAT => pack [(48, p.tjpeak), (46, bnat p.trip)]
  | .EVTIME => BitVec.ofNat 64 h.now
  | .DGCTX => (match h.keys.dg.find? (fun e => e.1 = i) with
    | some e => pack [(60, e.2.alg), (56, e.2.kslot)]
    | none => 0)
  | .VCG => (match h.vols.vols.find? (fun v => v.num = i) with | some v => pack [(0, v.group)] | none => 0)
  | .POOLGEO => (match h.fl.pools.find? (fun p => p.num = i) with
    | some p => pack [(8, p.w), (0, p.p)]
    | none => h.stored copy d.reg i)
  | .TLREG => (h.tape.ports.at i).link.rsp
  | _ => h.stored copy d.reg i

/-- A hand-off has begun to move the registers of a side (R504). -/
def Head.moving (h : Head) (side : Nat) : Bool := h.pair.handoff.any (fun o => o.side = side && o.mine && o.step = 4)

/-- The checks of R40 on a write, in their order; none where all pass. -/
def Head.writeCheck (h : Head) (c : Caller) (d : RegDef) (i : Nat) (v : Word) : Option Status :=
  let old := (h.present (d.copy c.side) d i).toNat
  let n := v.toNat
  if !h.served d i || (d.scope = .S && (!h.serves c.side || h.moving c.side)) then some .invalid
  else if d.flds.any (fun f => f.reach old n && !f.tier.le c.tier) then some .tier
  else if d.flds.any (fun f => h.lockedFld d i f && f.reach old n) then some .invalid
  else if n &&& d.known ≠ n then some .invalid
  else if d.flds.any (fun f => !f.inRange n) then some .invalid
  else none

/-- The settable fields of a register take the value written; a setting is mirrored (R501). -/
def Head.setReg (h : Head) (c : Caller) (d : RegDef) (i : Nat) (v : Word) : Head :=
  let copy := d.copy c.side
  let m := BitVec.ofNat 64 d.rwBits
  let w := (h.stored copy d.reg i &&& ~~~m) ||| (v &&& m)
  let h := h.store copy d.reg i w
  if d.flds.any (fun f => f.keep = .pers && f.acc.settable) then h.record' (.setting copy d.reg.ctorIdx i w) else h

/-- The address of a register. -/
def RegDef.addr (d : RegDef) (i : Nat) : Nat := d.base + d.stride * (i % d.count) + d.stride2 * (i / d.count)

/-- A write of the register is recorded whatever its outcome (R418): a writable field has tier I or M, or the caller is a
maker. -/
def RegDef.auditedFor (d : RegDef) (c : Caller) : Bool :=
  c.tier ≠ .F && (c.tier = .M || d.flds.any (fun f => f.acc ≠ .ro && (f.tier = .I || f.tier = .M)))

/-- The record of a register access (R418): a credential slot that is none stands as 255. -/
def Head.auditReg (h : Head) (c : Caller) (d : RegDef) (i : Nat) (s : Status) (refused : Bool) : Head :=
  if d.auditedFor c || refused then h.audit c.slot c.queue (d.addr i + 2 ^ 32) s.code refused else h

/-- A write with its checks, its effect and its record; `act` runs only where every check passes. -/
def Head.writeWith (h : Head) (c : Caller) (d : RegDef) (i : Nat) (v : Word) (act : Head → WriteResult) : WriteResult :=
  match h.writeCheck c d i v with
  | some s => .ok (h.auditReg c d i s false, s)
  | none =>
    match act h with
    | .error e => .error e
    | .ok (h, s) => .ok (h.auditReg c d i s false, s)

/-- As `writeWith`, for a register that only an installer may write: a maker gets TIER (R417). -/
def Head.writeInstaller (h : Head) (c : Caller) (d : RegDef) (i : Nat) (v : Word) (act : Head → WriteResult) : WriteResult :=
  if c.tier = .M && h.served d i then .ok (h.auditReg c d i .tier true, .tier) else h.writeWith c d i v act

/-- The last frame that a write sent on the mirror channel (R501): where it stands, the write completes once that frame is on
the peer. -/
def Head.sentSince (h k : Head) : Option Nat :=
  if k.pair.link.mir.next = h.pair.link.mir.next then none
  else some ((k.pair.link.mir.next + 4294967295) % 4294967296)

/-- A write that led from `h` to `k` answers, or, where its setting is still to reach the peer's PSTORE, will (R501). -/
def Head.answered (h k : Head) (st : Status) : Head :=
  if k.landed (h.sentSince k) then k.answer st 0 []
  else { k with reply := none, work := { k.work with owed := k.work.owed ++ [(h.sentSince k, st)] } }

/-- A register write that came as a command: its answer, and commands move on. -/
def State.write (s : State) (f : Head → WriteResult) : Host.Outcome State Fault Refusal :=
  s.runE (fun h => match f h with
    | .error e => .error e
    | .ok (k, st) => .ok ((h.answered k st).settle))

/-- Bytes that a TABREF names: a source window of the caller's side. -/
def Head.tabref (h : Head) (c : Caller) (v : Word) (n : Nat) : Option (List Byte) :=
  match h.source c.side false v n with
  | .ok b => if b.2 then none else some b.1
  | .error _ => none

end Sys2Proof.Machine
end

