-- ==== Sys2Proof/Machine/Queues.lean ====
section
/-! DEFINITION. Queues and admission as events (R57-R59, R82, R86-R91, R99): acceptance of entries, the idle timer of
management queues, the cadence epoch, the load of a cost table; and what every format table has in common (R426). -/

namespace Sys2Proof.Machine

/-! ## Acceptance -/

/-- Acceptance of entries is held on a queue: the head does not work or serve the side, a spill or an island's quiesce is
under way (R162, R290), a hand-off moves the side (R166), or replayed commands of the queue have not all started (R164). -/
def Head.acceptHeld (h : Head) (side q : Nat) : Bool :=
  !h.working || !h.serves side || h.spilling || h.quiescing ||
    (match h.pair.handoff with | some o => o.side = side && o.mine | none => false) ||
    h.work.cmds.any (fun c => c.side = side && c.queue = q && c.again && c.thread.isNone && !c.ended && !c.isFinal)

/-- The entry at the head of a queue's ring. -/
def Queue.first (x : Queue) : Option (Entry × Nat) := look none (x.slots.map (fun e => (e.1, some e.2))) (x.qnext % 4294967296)

/-- The ring moves on by one entry. -/
def Queue.moved (x : Queue) : Queue :=
  { x with slots := x.slots.filter (fun e => e.1 ≠ x.qnext % 4294967296), qnext := (x.qnext + 1) % 4294967296 }

/-- An entry that passes its checks waits for a lehr page for its image (log entry 89); a best-effort one also while a pool is at level 3
(R413), and while contracts hold all that is left of the epoch's journal work (R88, R106). -/
def Head.entryWaits (h : Head) (e : Entry) : Bool := !h.imageRoom || (!e.con && (h.acceptPaused || !h.spare 3))

/-- One entry checked and accepted or refused (R57-R59), or left where it waits. -/
def Head.acceptEntry (h : Head) (side q : Nat) (e : Entry) (conn : Nat) : Head :=
  let go := (h.updQueue side q Queue.moved).sayQueue side q
  let live := h.sessionSlot conn = some e.cred
  match h.checkEntry side q e live none with
  | .error s => go.refuse side q e conn e.tag s
  | .ok ext =>
    match h.checkRun e ext with
    | .error s => go.refuse side q e conn e.tag s
    | .ok _ =>
      if h.entryWaits e then h
      else ((go.wakeQueue side q).accept side q e ext conn e.tag [] [] (PRec.journal side)).1

/-- ENTRY_ACCEPT: the next entry of a queue is taken (R57-R59). -/
def execEntryAccept (side q : Nat) (s : State) : Host.Outcome State Fault Refusal :=
  s.run (fun h =>
    let x := h.queue side q
    match x.first with
    | none => h
    | some (e, conn) =>
      if x.rst then h.setQueue side q { x with slots := [] }
      else if h.acceptHeld side q then h
      else (h.acceptEntry side q e conn).settle)

/-- The idle timer of a management queue expires (R82): with MGMT = 1, a timer that is not disabled and no command in flight
the queue idles. -/
def execMgmtQueueIdle (side q : Nat) (s : State) : Host.Outcome State Fault Refusal :=
  s.run (fun h =>
    let x := h.queue side q
    if h.serves side && h.cfgS side .QCFG q 62 62 = 1 && h.cfgS side .QIDLE q 31 0 ≠ 0 && x.slots.isEmpty &&
        (h.inflight side q).isEmpty then h.updQueue side q (fun x => { x with idle := true })
    else h)

/-! ## The cadence epoch (R86-R88, R99) -/

/-- A contract at the start of an epoch: its bucket rises by RE up to B + F, its tokens are its loads where its queue is on
this head, unused ones are lost. -/
def Contract.epoch (k : Contract) (mine : Bool) : Contract :=
  { k with level := min (k.level + k.rate) (k.burst + k.frame), tokens := if mine then k.loads else [] }

/-- The health window counts a second down (R441): only while the image is unconfirmed, the head does not serve alone and
its peer does not rejoin. It stays at 1 until HWIN_EXPIRE. -/
def Head.windowRuns (h : Head) : Head :=
  let f := h.keys.fw
  if (h.work.epochs + 1) % 100000 = 0 && !f.conf && decide (1 < f.hleft) && !h.pair.solo && h.pair.fence.peer ≠ .rejoining then
    h.setFw { f with hleft := f.hleft - 1 }
  else h

/-- CADENCE_EPOCH: an epoch of 10 µs begins; best-effort frames and NAND operations that waited for capacity go on (R88), windows that wait
on a rail (R215), and frames for a host link whose pause has ended (R110). -/
def execCadenceEpoch (s : State) : Host.Outcome State Fault Refusal :=
  s.run (fun h =>
    let h := h.windowRuns
    let h : Head := { h with
      now := h.now + 10000
      red := { h.red with clook := 0 }
      fl := { h.fl with rbSpent := 0 }
      work := { h.work with
        epochs := h.work.epochs + 1
        spent := [0, 0, 0, 0]
        contracts := h.work.contracts.map (fun e => (e.1, e.2.map (fun k => k.epoch (h.serves k.side)))) } }
    h.bulkGo.flushTx.windows.pump)

/-! ## Format tables (R91, R426) -/

/-- A table's CHK holds: CRC-32C over it with CHK, bytes 8 to 11, taken as 0. -/
def chkOk (b : List Byte) : Bool := dword b 1 31 0 = crc32c (overlay b 8 [0, 0, 0, 0])

/-- Bytes after a table are a trailer of a maker signature (R426). -/
def isTrailer (t : List Byte) : Bool :=
  let slot := dword t 0 47 40
  t.length = 80 && dword t 0 63 48 = 0x7C5D && (slot = 72 || slot = 73) && dword t 0 39 0 = 0 && dword t 1 63 0 = 0

/-- The signature of a trailer verifies: its slot is live and its key signed the table. -/
def Head.makerSigned (h : Head) (b t : List Byte) : Bool :=
  match look none h.keys.slots (dword t 0 47 40) with
  | some k => Config.edVerify k.key b (t.drop 16)
  | none => false

/-- A table's signature lets it load (R178, R426): one that carries a signature is verified; where SIGREQ asks for one, it must carry it. -/
def Head.signedOk (h : Head) (c : Caller) (v : Word) (typ : Nat) (b : List Byte) : Bool :=
  match h.source c.side false v (b.length + 80) with
  | .ok (t, _) =>
    if isTrailer (t.drop b.length) then h.makerSigned b (t.drop b.length) else !(bit (h.cfg .MKACC 0 15 0) typ)
  | .error _ => !(bit (h.cfg .MKACC 0 15 0) typ)

/-- The bytes of a format table of a TYPE that a TABREF names: `form` says that the header and body are well-formed; then CHK and the
maker's signature. The upper half of T1 is reserved but in a static table, which has its SLOT there (Table 7-5). -/
def Head.table (h : Head) (c : Caller) (v : Word) (typ : Nat) (form : List Byte → Bool) : Except Status (List Byte) :=
  match h.source c.side false v 16 with
  | .error s => .error s
  | .ok (hd, _) =>
    let len := dword hd 0 15 0
    if dword hd 0 63 48 ≠ typ ∨ len < 16 then .error .invalid
    else
      match h.source c.side false v len with
      | .error s => .error s
      | .ok (b, bad) =>
        if bad || !form b || (typ ≠ 2 && dword b 1 63 32 ≠ 0) || !chkOk b then .error .invalid
        else if h.signedOk c v typ b then .ok b
        else .error .checkFail

/-- A cost table is well-formed (R89): lengths, reserved words, verb codes of its classes. -/
def costForm (b : List Byte) : Bool :=
  let n := dword b 0 31 16
  decide (1 ≤ n) && decide (n ≤ 16) && b.length = 96 + 32 * n && dword b 2 63 0 = 0 && dword b 3 63 0 = 0 &&
  (upto 5).all (fun k => dword b (4 + k) 63 32 = 0) && (upto 3).all (fun k => dword b (9 + k) 63 0 = 0) &&
  (upto n).all (fun k =>
    [1, 2, 4, 5].contains (dword b (12 + 4 * k) 63 56) && dword b (12 + 4 * k) 55 4 = 0 && dword b (15 + 4 * k) 63 0 = 0)

/-- The table that the bytes hold. -/
def costOf (b : List Byte) : CostTable :=
  { version := dword b 0 47 32
    caps := (upto 5).map (fun k => dword b (4 + k) 31 0)
    classes := (upto (dword b 0 31 16)).map (fun k =>
      let e := 12 + 4 * k
      { vc := dword b e 63 56, geo := dword b e 3 0
        fix := [dword b (e + 1) 63 48, dword b (e + 1) 31 16, dword b (e + 2) 63 48, dword b (e + 2) 31 16]
        perg := [dword b (e + 1) 47 32, dword b (e + 1) 15 0, dword b (e + 2) 47 32, dword b (e + 2) 15 0] }) }

/-- A table's caps reach what contracts have committed (R91). -/
def Head.capsReach (h : Head) (t : CostTable) : Bool :=
  let l := h.openContracts.map (fun x => x.2)
  (upto 5).all (fun r => decide (max (committed l 0 r) (committed l 1 r) ≤ nth 0 t.caps r))

/-- The load of a cost table (R91). -/
def Head.doAdmtab (h : Head) (c : Caller) (v : Word) : WriteResult :=
  match h.table c v 8 costForm with
  | .error s => h.noWrite s
  | .ok b =>
    let t := costOf b
    if h.capsReach t then .ok (({ h with work := { h.work with cost := t } }).record' (.costTab t), .ok)
    else h.noWrite .invalid

/-- ADMTAB_LOAD (R91). -/
def execAdmtabLoad (c : Caller) (v : Word) (s : State) : Host.Outcome State Fault Refusal :=
  s.write (fun h => h.writeWith c Reg.ADMTAB.row 0 v (fun h => h.doAdmtab c v))

end Sys2Proof.Machine
end

