-- ==== Sys2Proof/Machine/CptRx.lean ====
section
/-! DEFINITION. Received CPT packets (R109-R132, R135-R138): the receive checks, connections, submission, placement,
acknowledgement, loss and rate. -/

namespace Sys2Proof.Machine

/-! ## Receive checks (R115) -/

/-- The head receives frames: the fabric island runs and the lanes do not idle (R267). -/
def Head.listens (h : Head) : Bool := h.runs 16 && !h.dark

/-- The side whose head address a destination is, among those the head holds (R111). -/
def Head.addrSide (h : Head) (dst : Nat) : Option Nat :=
  [0, 1].find? (fun s => h.net.addrs.at s && dst ≠ 0 && (dst = h.addr4 s || dst = h.addr6 s))

/-- Checks 1 to 4 of Table 5-5: the counter of the first that fails. -/
def Head.frameFails (h : Head) (f : FrameInfo) : Option Nat :=
  if !f.fcsOk || decide (9216 < f.length) || decide (1 < f.tags) || f.etherType = 0x88E5 then some 0
  else if !f.ipOk || (h.addrSide f.dst).isNone then some 1
  else if f.udpPort ≠ h.udpPort || !f.udpSumOk then some 2
  else if f.ver ≠ 1 || !f.lenOk || !f.chkOk || !f.resOk then some 3
  else none

/-- Check 5 failed: counted, and a CLOSE with reason UNKNOWN to the source, at most once per ms per source address, from the address that
the packet came to. -/
def Head.rxUnknown (h : Head) (k : Pkt) : Head :=
  let h := h.rxCount 4
  let last := look 0 h.net.unk k.src
  if last ≠ 0 && decide (h.now < last + 1000000) then h
  else
    ({ h with net := { h.net with unk := place 0 h.net.unk k.src (h.now + 1) } }).sendPacket ((h.addrSide k.frame.dst).getD h.side) k.src
      (h.cfg .CLASS 0 13 8) (pathPort k.dconn 0) h.udpPort (cptPacket k.dconn 0 (h.now % 4294967296) false false (.close 3))

/-- A received frame: checks 1 to 4, then `body`; `is` says that the packet is of the row's TYPE: one of an unlisted TYPE is none's and
fails check 4 (R113). -/
def Head.rxFrame (h : Head) (k : Pkt) (is : Bool) (body : Head → Head) : Head :=
  if !h.listens then h
  else
    let h := h.seen k.arr
    match h.frameFails k.frame with
    | some n => h.rxCount n
    | none => if is then body h else h.rxCount 3

/-- The connection of the destination address that a packet names. -/
def Head.connOf (h : Head) (k : Pkt) : Option Conn :=
  h.net.conns.find? (fun c => c.num = k.dconn && some c.side = h.addrSide k.frame.dst)

/-- A received packet for a connection: the checks, then `body`; `takes` is what check 5 asks of the connection's state,
`fits` what check 4 asks of the length where the connection decides it. -/
def Head.rx (h : Head) (k : Pkt) (is : Bool) (takes fits : Conn → Bool) (body : Head → Conn → Head) : Head :=
  h.rxFrame k is (fun h =>
    match h.connOf k with
    | none => h.rxUnknown k
    | some c =>
      if !fits c then h.rxCount 3
      else if !takes c then h.rxUnknown k
      else body ((h.updConn c.num (fun c => { c with lastRx := h.now })).noteUse c.num) c)

/-- What an open connection takes, and what a draining one does. -/
def takesAll (c : Conn) : Bool := c.state = .opened
def takesEnd (c : Conn) : Bool := c.state = .opened || c.state = .draining

/-! ## Sequence numbers (R123, R124) -/

/-- CUMPSN past every received number, with the numbers still above it. -/
def advanceCum : Nat → Nat → List Nat → Nat × List Nat
  | 0, c, l => (c, l)
  | n + 1, c, l => if l.contains c then advanceCum n ((c + 1) % 4294967296) (l.filter (fun p => p ≠ c)) else (c, l)

/-- How far a number lies above CUMPSN, modulo 2^32. -/
def Conn.ahead (c : Conn) (psn : Nat) : Nat := (psn + 4294967296 - c.cum) % 4294967296

/-- Every number below a packet's own has been received. -/
def Conn.ready (c : Conn) (psn : Nat) : Bool := c.ahead psn = 0 || decide (2147483648 ≤ c.ahead psn)

/-- The newest packet since the last ACK noted. -/
def Head.noteRx (h : Head) (k : Pkt) (n : Nat) : Head :=
  h.updConn n (fun c => { c with newest := (k.tsv, k.arr, k.sport) })

/-- A reliable packet (R123, R124): marked and processed, or a duplicate, or out of the span. `now_` asks for an ACK at once. -/
def Head.rxReliable (h : Head) (k : Pkt) (c : Conn) (now_ : Bool) (process : Head → Head) : Head :=
  let d := c.ahead k.psn
  if d < 65536 ∧ !c.recv.contains k.psn then
    let x := advanceCum (c.recv.length + 2) c.cum (k.psn :: c.recv)
    let h := (h.noteRx k c.num).updConn c.num (fun c =>
      { c with cum := x.1, recv := x.2, ackCnt := c.ackCnt + 1, ackAt := if c.ackCnt = 0 then h.now else c.ackAt })
    let h := process h
    match h.conn c.num with
    | none => h
    | some c => if now_ || k.acknow || decide (h.cfg .CPTCFG 0 47 40 ≤ c.ackCnt) then h.sendAck c.num else h
  else if d < 65536 ∨ 2147483648 ≤ d then ((h.rxCount 5).noteRx k c.num).sendAck c.num
  else h

/-- A packet that needs a session (R118): without one it is acknowledged and discarded, with one ACCESS event. -/
def Head.withSession (h : Head) (c : Conn) (typ key : Nat) (process : Head → Head) : Head :=
  if c.slot.isSome then process h else h.connEventOnce c.num 0x0004 118 typ (BitVec.ofNat 64 key)

/-- A packet that is not numbered, and whose processing gave a head: where it asks for it an ACK goes out at once (R124). -/
def Head.ackAsked (h : Head) (k : Pkt) (n : Nat) : Head := if k.acknow then (h.noteRx k n).sendAck n else h

/-! ## Placement (R135-R138) -/

/-- A packet held or stored on some connection of the side is a last-flag of the generation with another message end (check 5). -/
def Head.otherEnd (h : Head) (side : Nat) (p : HeldWrite) : Option HeldWrite :=
  if !p.last then none
  else ((h.net.conns.filter (fun x => x.side = side)).map (fun x => x.held ++ x.strict)).flatten.find? (fun q =>
    q.last && q.key = p.key && q.gen = p.gen && q.off + q.bytes.length ≠ p.off + p.bytes.length)

/-- Check 2 of Table 5-12: the generation is the current one. A window whose revocation still waits for memory takes none yet. -/
def Window.takes (w : Window) (gen : Nat) : Bool := gen = w.gen && !(w.state = .revoking && w.waitAdv)

/-- Checks 1 to 5 of Table 5-12 for a WRITE: the head after the failing check's action, or the window. -/
def Head.placeCheck (h : Head) (c : Conn) (p : HeldWrite) : Except Head Window :=
  let ref := mkRef p.key p.gen
  let denied := (h.rxCount 6).connEventOnce c.num 0x0004 136 1 (BitVec.ofNat 64 p.key)
  match h.window c.side p.key with
  | none => .error denied
  | some w =>
    if w.out || some w.slot ≠ c.slot then .error denied
    else if !w.takes p.gen then
      if w.retired = some p.gen then
        .error ((h.rxCount 8).connEventOnce c.num 0x0001 (w.key * 65536 + p.gen) w.gen ref)
      else .error ((h.rxCount 7).connEventOnce c.num 0x0002 w.key w.gen ref)
    else if w.state = .sealed then .error (h.rxCount 9)
    else if w.size < p.off + p.bytes.length then .error ((h.rxCount 10).connEventOnce c.num 0x0003 w.key (w.size % 2 ^ 32) ref)
    else
      match h.otherEnd c.side p with
      | some q => .error ((h.rxCount 11).connEventOnce c.num 0x0005 w.key ((q.off + q.bytes.length) % 2 ^ 32) ref)
      | none => .ok w

/-- The bytes of a WRITE placed; a last-flag packet seals the generation, and its armed entry fires (R136, R137, R143). -/
def Head.placed (h : Head) (n : Nat) (w : Window) (p : HeldWrite) : Head :=
  let con := h.armedUnder w
  let h := (h.winWrite w p.off p.bytes).draw 0 (ceilDiv p.bytes.length 16) con
  if p.last then
    let h := h.updWindow' w.side w.idx (fun w => { w with
      state := .sealed, msgEnd := some (p.off + p.bytes.length), sealAt := h.now, conn := n })
    let h := if con.isSome then h.updConn n (fun c => { c with firedAt := h.now + 1 }) else h
    (h.fire w.side w.idx).settle
  else h

/-- A packet whose wait has ended (R137, R138): check 2, check 3 and, in a relaxed window, check 5 again; it is placed, or discarded and
counted as the failing check counts it. -/
def Head.placeLate (h : Head) (c : Conn) (p : HeldWrite) : Head :=
  match h.window c.side p.key with
  | none => h.rxCount 7
  | some w =>
    if !w.takes p.gen then h.rxCount (if w.retired = some p.gen then 8 else 7)
    else if w.state = .sealed then h.rxCount 9
    else if !w.strict && (h.otherEnd c.side p).isSome then h.rxCount 11
    else h.placed c.num w p

/-- Last-flag placements are held (R166 step 2), and nothing is placed during a spill (R293). -/
def Head.placeHeld (h : Head) (side : Nat) : Bool :=
  h.spilling || (match h.pair.handoff with | some o => o.side = side && o.mine | none => false)

/-- A packet below a number still waits on its connection: what comes after it is placed after it (R137, R138). -/
def Conn.behind (c : Conn) (psn : Nat) : Bool :=
  (c.held ++ c.strict).any (fun q => decide (2147483648 ≤ (q.psn + 4294967296 - psn) % 4294967296))

/-- A WRITE to a strict window that cannot be stored (R138): early, with 512 early ones stored. -/
def Head.strictFull (h : Head) (c : Conn) (k : Pkt) (key : Nat) : Bool :=
  match h.window c.side key with
  | some w => w.strict && !w.out && !c.ready k.psn && decide (512 ≤ c.strict.countP (fun q => !c.ready q.psn))
  | none => false

/-- What a WRITE carries. -/
def Pkt.heldWrite (k : Pkt) : HeldWrite := ⟨k.psn, k.th 0 4, k.th 4 2, k.th 8 8, k.pay, k.last⟩

/-- CPT_WRITE_RX (R136-R138). -/
def execCptWriteRx (k : Rx) (key gen off pay : List Byte) (s : State) : Host.Outcome State Fault Refusal :=
  s.run (fun h =>
    let k := (k.join [key, gen, off, pay]).pkt
    h.rx k (k.typ = 1) takesAll (fun c => decide (k.pay.length ≤ c.maxpay)) (fun h c =>
      let p := k.heldWrite
      if c.slot.isSome && h.strictFull c k p.key && !c.recv.contains k.psn && decide (c.ahead k.psn < 65536) then h
      else
        h.rxReliable k c false (fun h => h.withSession c 1 p.key (fun h =>
          if h.spilling then h
          else
            match h.placeCheck c p with
            | .error h => h
            | .ok w =>
              let waits := !c.ready k.psn || c.behind k.psn || (k.last && h.placeHeld c.side)
              if w.strict && waits then h.updConn c.num (fun c => { c with strict := c.strict ++ [p] })
              else if k.last && waits then h.updConn c.num (fun c => { c with held := c.held ++ [p] })
              else h.placed c.num w p))))

/-- A waiting packet of a connection is placed, once every packet below it has come and been placed. -/
def Head.waitEnds (h : Head) (conn psn : Nat) (list : Conn → List HeldWrite) (drop : Conn → Conn) : Head :=
  match h.conn conn with
  | none => h
  | some c =>
    match (list c).find? (fun p => p.psn = psn) with
    | none => h
    | some p =>
      if !c.ready psn || c.behind psn || h.placeHeld c.side then h
      else (h.updConn conn drop).placeLate c p

/-- LAST_FLAG_PLACE: a held last-flag packet whose earlier packets have all come (R137). -/
def execLastFlagPlace (conn psn : Nat) (s : State) : Host.Outcome State Fault Refusal :=
  s.run (fun h => h.waitEnds conn psn (fun c => c.held) (fun c => { c with held := c.held.filter (fun q => q.psn ≠ psn) }))

/-- STRICT_PLACE: a stored packet of a strict window whose earlier packets have all come (R138). -/
def execStrictPlace (conn psn : Nat) (s : State) : Host.Outcome State Fault Refusal :=
  s.run (fun h => h.waitEnds conn psn (fun c => c.strict) (fun c => { c with strict := c.strict.filter (fun q => q.psn ≠ psn) }))

/-- GEN_ADVANCE: a window that waited for free lehr advances (R139). -/
def execGenAdvance (side idx : Nat) (s : State) : Host.Outcome State Fault Refusal :=
  s.run (fun h =>
    match h.windowAt side idx with
    | none => h
    | some w => if w.waitAdv && h.consumed w then (h.advance w).settle else h)

/-- REVOKE_DRAIN_DONE: the pipeline has drained (R140). The window is OPEN at the new generation and gives back what it kept of the old
one; where it still waits for fresh memory that the lehr does not have it stays REVOKING. -/
def execRevokeDrainDone (side idx : Nat) (s : State) : Host.Outcome State Fault Refusal :=
  s.run (fun h =>
    match h.windowAt side idx with
    | none => h
    | some w =>
      if w.revBy.isNone then h
      else
        match (if w.waitAdv then h.winMemory w.size w.unmir w.key none else some (h, w.pages)) with
        | none => h
        | some (h, pages) =>
          let h := h.updWindow side idx (fun w => { w with
            state := if w.state = .revoking then .opened else w.state, pages := pages, waitAdv := false, olds := [], revBy := none })
          let h := h.winDrop w.unmir ((if w.waitAdv then w.pages else []) ++ (w.olds.map (fun g => g.pages)).flatten)
          (h.setVerbs (h.work.verbs.map (fun v =>
            if v.aw = .revoke side idx then { v with aw := .nothing } else v))).settle)

/-- WINDOW_LINGER_EXPIRE: no connection has held a live session of the window's slot for WLINGER (R141). -/
def execWindowLingerExpire (side idx : Nat) (s : State) : Host.Outcome State Fault Refusal :=
  s.run (fun h =>
    match h.windowAt side idx with
    | none => h
    | some w =>
      if w.out || h.net.conns.any (fun c => c.slot = some w.slot) then h else (h.winRelease side idx).settle)

/-! ## Submission (R120, R121) -/

/-- Ring slots of a queue. -/
def Head.ringSize (h : Head) (side q : Nat) : Nat := 2 ^ (h.cfgS side .QCFG q 43 40 + 6)

/-- A queue attached to a connection; another connection loses it with the slots it filled (R121). -/
def Head.attach (h : Head) (side q : Nat) (c : Conn) : Head :=
  match (h.queue side q).conn with
  | none => h.updQueue side q (fun x => { x with conn := some c.num })
  | some n =>
    if n = c.num then h
    else
      (h.updQueue side q (fun x => { x with conn := some c.num, slots := x.slots.filter (fun s => s.2.2 ≠ n) })).connEvent
        n 0x0006 q (BitVec.ofNat 64 c.far)

/-- One entry of a SUBMIT for slot number `n` (R120). -/
def Head.fillSlot (h : Head) (c : Conn) (q n : Nat) (e : Entry) : Head :=
  let x := h.queue c.side q
  let d := (n + 4294967296 - x.qnext % 4294967296) % 4294967296
  if x.rst then h
  else if d < h.ringSize c.side q then
    if x.slots.any (fun s => s.1 = n) then h
    else h.setQueue c.side q { x with slots := insertBy (fun s => s.1) (n, (e, c.num)) x.slots }
  else if 2147483648 ≤ d ∨ x.srEv.contains c.num then h
  else (h.setQueue c.side q { x with srEv := c.num :: x.srEv }).connEvent c.num 0x0007 q (BitVec.ofNat 64 n)

/-- CPT_SUBMIT_RX (R120, R121). -/
def execCptSubmitRx (k : Rx) (queue slot entries : List Byte) (s : State) : Host.Outcome State Fault Refusal :=
  s.run (fun h =>
    let k := (k.join [queue, slot, entries]).pkt
    h.rx k (k.typ = 2) takesAll (fun _ => true) (fun h c =>
      h.rxReliable k c false (fun h => h.withSession c 2 0 (fun h =>
        let q := k.th 0 2
        let n := k.th 2 1
        let may := match c.slot with | some n => h.mayUse c.side q n | none => false
        let h := if may then h.attach c.side q c else h
        if n = 0 then
          if may then h.sendComplete c.num c.side q []
          else h.connEventOnce c.num 0x0004 121 2 0
        else
          ((upto n).zip ((partsOf 128 n k.pay).map entryOf)).foldl (fun h e =>
            h.fillSlot c q ((k.th 4 4 + e.1) % 4294967296) e.2) h))))

/-- QNEXT_TIMER: QNEXT has advanced and no COMPLETE has carried it (R122). -/
def execQnextTimer (side q : Nat) (s : State) : Host.Outcome State Fault Refusal :=
  s.run (fun h =>
    let x := h.queue side q
    match x.conn with
    | some n => if x.said ≠ x.qnext then h.sendComplete n side q [] else h
    | none => h)

/-! ## Acknowledgements, loss and rate (R124, R126-R129, R132) -/

/-- A packet resent (R126): same PSN and content, RETX = 1, another path where there is one; CPTCNT 12 counts it. -/
def Head.resend (h : Head) (n psn : Nat) : Head :=
  match h.conn n with
  | none => h
  | some c =>
    match c.unacked.find? (fun p => p.psn = psn) with
    | none => h
    | some p =>
      let other := (upto h.paths).filter (fun x => x ≠ p.path && !(h.net.paths.any (fun y => y.conn = n && y.path = x)))
      let path := nth p.path other (psn % (max 1 other.length))
      let h := h.updConn n (fun c => { c with
        unacked := mapFirst (fun p => p.psn = psn) (fun p => { p with sent := h.now, path := path }) c.unacked })
      (h.rxCount 12).sendMsg c psn path true (h.dport c) p.msg

/-- A packet found lost (R126, R127): it is sent again, or, more than 100 ms after it was first sent, the connection is LOST. -/
def Head.retransmit (h : Head) (n psn : Nat) : Head :=
  match (h.conn n).bind (fun c => c.unacked.find? (fun p => p.psn = psn)) with
  | none => h
  | some p => if p.first + 100000000 < h.now then h.loseConn n else h.resend n psn

/-- The sender's line rate in bytes per µs: 12,500 for each 100GBASE-R link in service, four times that for a port that runs as
400GBASE-R, at most 400,000 (R129, R488). -/
def Head.lineRate (h : Head) : Nat :=
  min 400000 (max 12500 (sum ((upto 32).map (fun i =>
    if !h.net.up.getLsbD i then 0 else if bit (h.cfg .HPCFG 0 7 0) (i / 4) then 12500 else 50000))))

/-- The round-trip samples that can still be the least of the last 10 s. -/
def sampled (l : List (Nat × Nat)) (now rtt : Nat) : List (Nat × Nat) :=
  ((l.filter (fun x => decide (now ≤ x.1 + 10000000000))).filter (fun x => decide (x.2 < rtt))) ++ [(now, rtt)]

/-- The rate law on an ACK (R129). -/
def Rate.onAck (r : Rate) (now tse adly newly tgt rmax : Nat) : Rate :=
  let rtt := (now + 2 * 4294967296 - tse % 4294967296 - adly % 4294967296) % 4294967296
  let l := sampled r.rtts now rtt
  let base := match l with | x :: _ => x.2 | [] => rtt
  let srtt := (7 * r.srtt + rtt) / 8
  let qf := (3 * r.qf + (rtt - base)) / 4
  let acked := r.acked + newly
  let t := 1000 * tgt
  if now - r.step < srtt then { r with rtts := l, srtt := srtt, qf := qf, acked := acked }
  else
    let drate := 1000 * acked / (max 1 (now - r.step))
    let rate := if qf ≤ t then min rmax (r.rate + 2000)
      else if 2 * t < qf then max 100 (min (r.rate - r.rate / 8) drate) else r.rate
    { rate := rate, rtts := l, srtt := srtt, qf := qf, acked := 0, step := now }

/-- An ACK shows a PSN received. -/
def ackShows (cum : Nat) (ranges : List (Nat × Nat)) (psn : Nat) : Bool :=
  decide (2147483648 ≤ (psn + 4294967296 - cum) % 4294967296) ||
    ranges.any (fun r => decide ((psn + 4294967296 - r.1) % 4294967296 ≤ (r.2 + 4294967296 - r.1) % 4294967296))

/-- Verbs that await the acknowledgement of packets await those acknowledged no more (R144). -/
def Head.delivered (h : Head) (n : Nat) (got : List TxPkt) : Head :=
  h.setVerbs (h.work.verbs.map (fun v => match v.aw with
    | .deliver l => { v with aw := .deliver (l.filter (fun x => !(x.1 = n && got.any (fun p => p.psn = x.2)))) }
    | _ => v))

/-- An ACK on a connection (R124-R129): received packets leave, those that waited for the limit of R127 follow, those it shows lost are
sent again, the rate moves; a draining connection with nothing left is CLOSED. -/
def Head.acked (h : Head) (c : Conn) (cum tse adly : Nat) (ranges : List (Nat × Nat)) : Head :=
  let got := c.unacked.filter (fun p => p.out && ackShows cum ranges p.psn)
  let left := c.unacked.filter (fun p => !(p.out && ackShows cum ranges p.psn))
  let newly := sum (got.map (fun p => p.msg.pay.length))
  let tgt := h.cfg .CLASS c.tclass 7 0
  let h := (h.delivered c.num got).updConn c.num (fun c => { c with
    unacked := left, progAt := if got.isEmpty then c.progAt else h.now
    rate := if tse = 0 then c.rate else c.rate.onAck h.now tse adly newly tgt h.lineRate })
  if c.state = .draining && left.isEmpty then h.connClosed c.num
  else
    let late := max 4000 (c.rate.srtt / 4)
    let lost := left.filter (fun p => p.out && got.any (fun g => decide (p.sent + late ≤ g.sent)))
    lost.foldl (fun h p => h.retransmit c.num p.psn) (h.releaseTx c.num)

/-- CPT_ACK_RX. -/
def execCptAckRx (k : Rx) (cum tse adly ranges : List Byte) (s : State) : Host.Outcome State Fault Refusal :=
  s.run (fun h =>
    let k := (k.join [cum, tse, adly, ranges]).pkt
    h.rx k (k.typ = 4) takesEnd (fun _ => true) (fun h c =>
      ((h.acked c (k.th 0 4) (k.th 4 4) (k.th 8 4) k.ranges).ackAsked k c.num).settle))

/-- CPT_ACK_TIMER: ACKT has passed since the first packet not yet acknowledged arrived (R124). -/
def execCptAckTimer (conn : Nat) (s : State) : Host.Outcome State Fault Refusal :=
  s.run (fun h => match h.conn conn with
    | some c => if 0 < c.ackCnt then h.sendAck conn else h
    | none => h)

/-- CPT_RTO_EXPIRE: RTO has passed since a packet was last sent (R126, R127, R129, R132). -/
def execCptRtoExpire (conn psn : Nat) (s : State) : Host.Outcome State Fault Refusal :=
  s.run (fun h =>
    match (h.conn conn).bind (fun c => c.unacked.find? (fun p => p.psn = psn && p.out)) with
    | none => h
    | some p =>
      if p.first + 100000000 < h.now then (h.loseConn conn).settle
      else
        let h := h.updConn conn (fun c => { c with rate := { c.rate with rate := max 100 (c.rate.rate / 2) } })
        let h := { h with net := { h.net with paths := h.net.paths.filter (fun (x : Path) => !(x.conn = conn && x.path = p.path)) ++ [(⟨conn, p.path⟩ : Path)] } }
        h.resend conn psn)

/-- PATH_RESUME: 1 ms has passed since an RTO loss on a path (R132). -/
def execPathResume (conn path : Nat) (s : State) : Host.Outcome State Fault Refusal :=
  s.run (fun h => { h with net := { h.net with paths := h.net.paths.filter (fun (x : Path) => !(x.conn = conn && x.path = path)) } })

/-- KEEPALIVE_TIMER: the connection has sent nothing for CPTTIM.IDLE (R128). -/
def execKeepaliveTimer (conn : Nat) (s : State) : Host.Outcome State Fault Refusal :=
  s.run (fun h => match h.conn conn with
    | some c => if c.state = .opened then h.sendFree conn .keepalive else h
    | none => h)

/-- CPT_KEEPALIVE_RX: answered by an ACK (Table 5-3). -/
def execCptKeepaliveRx (r : Rx) (s : State) : Host.Outcome State Fault Refusal :=
  s.run (fun h =>
    let k := r.pkt
    h.rx k (k.typ = 9) takesEnd (fun _ => true) (fun h c => (h.noteRx k c.num).sendAck c.num))

/-- CONN_LOST_TIMER: no progress for LOSTT, or nothing received for 4 × IDLE (R128). -/
def execConnLostTimer (conn : Nat) (s : State) : Host.Outcome State Fault Refusal :=
  s.run (fun h => match h.conn conn with
    | some c => if c.state = .opened then (h.loseConn conn).settle else h
    | none => h)

/-- DRAIN_TIMEOUT: a DRAINING connection has drained for 10 ms (Table 5-7). -/
def execDrainTimeout (conn : Nat) (s : State) : Host.Outcome State Fault Refusal :=
  s.run (fun h => match h.conn conn with
    | some c => if c.state = .draining then (h.connClosed conn).settle else h
    | none => h)

/-- SESSION_SETUP_TIMEOUT: no session within 1 s of OPEN (R118). -/
def execSessionSetupTimeout (conn : Nat) (s : State) : Host.Outcome State Fault Refusal :=
  s.run (fun h => match h.conn conn with
    | some c => if c.state = .opened && c.slot.isNone then (h.closeConn conn 6).settle else h
    | none => h)

/-! ## Connection set-up and close (R116, R117) -/

/-- A number for a new connection: a salt drawn at random, the lowest free index. -/
def Head.newConnNum (h : Head) : Head × Nat :=
  let idx := nth 0 (lowestFree (fun i => h.net.conns.any (fun c => c.num % 262144 = i)) (h.net.conns.length + 1) 0 1) 0
  (h.tick, (Config.freeNat h.fresh % 16383 + 1) * 262144 + idx)

/-- A new connection. As responder the head measures no round trip in the CONNECT exchange, and the spec gives it no initial srtt and
base: srtt starts at 0 and the first ACK's round trip is the first base (DESIGN CHOICE, log entry 92). -/
def newConn (num side addr far isn isnFar dport maxpay tclass now : Nat) (st : CnState) (init evsub : Bool) : Conn :=
  { num := num, side := side, addr := addr, far := far, isn := isn, isnFar := isnFar, dport := dport, state := st, init := init
    maxpay := maxpay, tclass := tclass, evsub := evsub, slot := none, txNext := isn, unacked := [], cum := isnFar, recv := []
    ackCnt := 0, ackAt := 0, newest := (0, 0, 0)
    rate := { rate := 12500, rtts := [], srtt := 0, qf := 0, acked := 0, step := now }
    held := [], strict := [], once := [], openAt := now, lastRx := now, lastTx := now, progAt := now, tries := 0
    closeWith := 0, firedAt := 0 }

/-- MAXPAY is one the head supports (Table 5-4). -/
def maxpayOk (m : Nat) : Bool := decide (1024 ≤ m) && decide (m ≤ 8192) && m % 1024 = 0

/-- CFLAGS of Table 5-4. -/
def connFlags (reply refuse tko evsub : Bool) (tclass : Nat) : Nat :=
  128 * bnat reply + 64 * bnat refuse + 32 * bnat tko + 16 * bnat evsub + tclass % 8

/-- The reply of a connection that the head has accepted (R116); it repeats the initiator's TCLASS (DESIGN CHOICE, log entry 92). -/
def Head.sendReply (h : Head) (c : Conn) (tsv : Nat) : Head :=
  h.sendFree c.num (.connect c.num c.isn tsv 8192 (connFlags true false (c.side ≠ h.side) false c.tclass) 0)

/-- A CONNECT refused (R116): the reply names the initiator's connection; no context is kept. -/
def Head.sendRefusal (h : Head) (side : Nat) (k : Pkt) (reason : Nat) : Head :=
  h.sendPacket side k.src (h.cfg .CLASS 0 13 8) (pathPort (k.th 0 4) 0) h.udpPort
    (cptPacket (k.th 0 4) 0 (h.now % 4294967296) false false
      (.connect 0 0 k.tsv 8192 (connFlags true true (side ≠ h.side) false (k.th 14 1)) reason))

/-- A CONNECT that names no connection (R116). -/
def Head.onConnect (h : Head) (side : Nat) (k : Pkt) : Head :=
  let scon := k.th 0 4
  let isn := k.th 4 4
  let maxpay := k.th 12 2
  let flags := k.th 14 1
  if !maxpayOk maxpay then h.sendRefusal side k 2
  else
    match h.net.conns.find? (fun c => c.state = .opened && c.addr = k.src && c.far = scon && c.isnFar = isn) with
    | some c => h.sendReply c k.tsv
    | none =>
      if 262144 ≤ h.net.conns.length then h.sendRefusal side k 1
      else
        let x := h.newConnNum
        let c := newConn x.2 side k.src scon (Config.freeNat x.1.fresh % 4294967296) isn 0 maxpay (flags % 8) h.now .opened false (bit flags 4)
        let h := x.1.tick
        ((h.setConns (h.net.conns ++ [c])).noteUse c.num).sendReply c k.tsv

/-- CPT_CONNECT_RX: a CONNECT that is not a reply (R116); one that names an open connection changes nothing. -/
def execCptConnectRx (k : Rx) (scon isn maxpay tclass evsub : List Byte) (s : State) : Host.Outcome State Fault Refusal :=
  s.run (fun h =>
    let k := (k.join [scon, isn, maxpay, tclass, evsub]).pkt
    h.rxFrame k (k.typ = 5 && !bit (k.th 14 1) 7) (fun h =>
      if k.dconn = 0 then h.onConnect ((h.addrSide k.frame.dst).getD h.side) k
      else
        match h.connOf k with
        | some c => if takesAll c then h else h.rxUnknown k
        | none => h.rxUnknown k))

/-- The CONNECT of a connection that the head opens (R116). -/
def Head.sendConnect (h : Head) (c : Conn) : Head :=
  h.sendFree c.num (.connect c.num c.isn 0 8192 (connFlags false false false c.evsub c.tclass) 0)

/-- CONNECT_RETRY: a CONNECT unanswered for 1 ms; the ninth time the connection is CLOSED (R116, Table 5-7). -/
def execConnectRetry (conn : Nat) (s : State) : Host.Outcome State Fault Refusal :=
  s.run (fun h => match h.conn conn with
    | some c =>
      if c.state ≠ .opening then h
      else if 8 ≤ c.tries then (h.connClosed conn).settle
      else (h.updConn conn (fun c => { c with tries := c.tries + 1 })).sendConnect c
    | none => h)

/-- A draining connection that has nothing left to be acknowledged is CLOSED. -/
def Head.endDrain (h : Head) (n : Nat) : Head :=
  match h.conn n with
  | some c => if c.state = .draining && c.unacked.isEmpty then (h.connClosed n).settle else h
  | none => h

/-- CPT_CLOSE_RX: a reliable CLOSE (R117). -/
def execCptCloseRx (k : Rx) (reason : List Byte) (s : State) : Host.Outcome State Fault Refusal :=
  s.run (fun h =>
    let k := (k.join [reason]).pkt
    h.rx k (k.typ = 6 && k.th 0 1 ≠ 3) takesEnd (fun _ => true) (fun h c =>
      h.rxReliable k c true (fun h => h.updConn c.num (fun c => { c with state := .draining }))
        |>.endDrain c.num))

/-- CPT_CLOSE_UNKNOWN_RX: a CLOSE with reason UNKNOWN, whose DCONN is the far end's own number (R115, R117). -/
def execCptCloseUnknownRx (r : Rx) (s : State) : Host.Outcome State Fault Refusal :=
  s.run (fun h =>
    let k := r.pkt
    h.rxFrame k (k.typ = 6 && k.th 0 1 = 3) (fun h =>
      match h.net.conns.find? (fun c => c.far = k.dconn && c.addr = k.src) with
      | some c => (h.connClosed c.num).settle
      | none => h.rxUnknown k))

/-- CPT_EVENT_RX: an event of a far end of which the head is a client: acknowledged; the head has no use for it. -/
def execCptEventRx (k : Rx) (code detail arg : List Byte) (s : State) : Host.Outcome State Fault Refusal :=
  s.run (fun h =>
    let k := (k.join [code, detail, arg]).pkt
    h.rx k (k.typ = 7) takesAll (fun _ => true) (fun h c => h.rxReliable k c false (fun h => h.withSession c 7 0 (fun h => h))))

/-! ## Addresses, echo, pause, ports (R110, R111, R146) -/

/-- ARP_ND_RX: the head answers for the addresses it holds, on the link that the request came by. -/
def execArpNdRx (dst : Asked) (v6 : Bool) (s : State) : Host.Outcome State Fault Refusal :=
  s.run (fun h =>
    let a := if v6 then dst.addr else mapped4 dst.addr
    match (if h.listens then h.addrSide a else none) with
    | some side => h.sendEth ⟨some dst.link, h.vlan side, .arpNd a false⟩
    | none => h)

/-- ICMP_ECHO_RX: an echo message that came at a time, answered with its data, at most 1,000 per second. -/
def execIcmpEchoRx (dst src : Nat) (arr : Rx) (s : State) : Host.Outcome State Fault Refusal :=
  s.run (fun h =>
    if !h.listens then h
    else
      let h := h.seen arr.arr
      let sec := h.now / 1000000000
      let n := if h.net.echo.1 = sec then h.net.echo.2 else 0
      match h.addrSide dst with
      | none => h
      | some side =>
        if 1000 ≤ n then h
        else ({ h with net := { h.net with echo := (sec, n + 1) } }).sendEth ⟨none, h.vlan side, .echo dst src arr.frame⟩)

/-- Nanoseconds that a pause of a number of quanta of 512 bit times lasts on a link: 100 Gb/s, or 400 Gb/s for a port that runs as
400GBASE-R. -/
def Head.pauseTime (h : Head) (link quanta : Nat) : Nat :=
  if bit (h.cfg .HPCFG 0 7 0) (link / 4) then ceilDiv (quanta * 128) 25 else ceilDiv (quanta * 32) 25

/-- PAUSE_RX: the pause of a link is honoured: nothing more leaves on it until it ends (R110); a pause of 0 quanta ends it. -/
def execPauseRx (link quanta : Nat) (s : State) : Host.Outcome State Fault Refusal :=
  s.run (fun h =>
    if h.listens then
      let stop := if quanta = 0 then 0 else h.now + h.pauseTime link quanta
      ({ h with net := { h.net with paused := place 0 h.net.paused link stop } }).flushTx
    else h)

/-- HOST_PORT_DOWN (R146). -/
def execHostPortDown (link : Nat) (s : State) : Host.Outcome State Fault Refusal :=
  s.run (fun h =>
    if h.net.up.getLsbD link then
      ({ h with net := { h.net with up := h.net.up &&& ~~~(1#32 <<< link) } }).deviceEvent 0x0100 link 0
    else h)

/-- A link may come up: its port is in service, and a port that runs as 400GBASE-R has its lowest link only (R146, R488). -/
def Head.linkUsable (h : Head) (link : Nat) : Bool :=
  decide (link < 32) && bit (h.cfg .HPCFG 0 15 8) (link / 4) && (bit (h.cfg .HPCFG 0 7 0) (link / 4) || link % 4 = 0)

/-- HOST_PORT_UP (R146). -/
def execHostPortUp (link : Nat) (s : State) : Host.Outcome State Fault Refusal :=
  s.run (fun h =>
    if !h.runs 16 || !h.linkUsable link || h.net.up.getLsbD link then h
    else ({ h with net := { h.net with up := h.net.up ||| (1#32 <<< link) } }).deviceEvent 0x0101 link 0)

end Sys2Proof.Machine
end

