-- ==== Sys2Proof/Machine/Recovery.lean ====
section
/-! DEFINITION. Recovery and the passing of service between the heads (R21, R105, R111, R142, R155-R167, R218, R264-R273,
R280-R283, R296-R299, R384): rebuilding commands from journal and lehr, the spill read back, the fence, takeover,
hand-off, the return of a side, and the start of service. -/

namespace Sys2Proof.Machine

/-! ## Replay (R163-R165) -/

/-- The pages of the entry image and the verb log of a command, in their order. -/
def Head.image (h : Head) (side seq : Nat) : List LPage :=
  h.pair.lehr.filter (fun p => p.use = .image && p.key = imageKey side seq)

/-- The verb log that the pages of an image hold: 16-byte entries up to the first whose VC is 0. -/
def imageLog (ps : List LPage) : Nat → Nat → List LogEntry
  | 0, _ => []
  | n + 1, k =>
    let at_ := logPlace k
    match ps[at_.1]? with
    | none => []
    | some p =>
      let b := readBytes p.data at_.2 16
      let vc := leNat ((b.drop 10).take 1)
      if vc = 0 then []
      else ⟨BitVec.ofNat 64 (leNat (b.take 8)), statusOf (leNat ((b.drop 8).take 2)), vc, leNat ((b.drop 12).take 4)⟩ ::
        imageLog ps n (k + 1)

/-- Entries that the pages of an image have room for. -/
def imageSpan (ps : List LPage) : Nat := logFirst + logNext * ps.length

/-- A connection number that no connection has (R134 gives 32 bits): completions of re-run commands have none (R61, R142). -/
def noConn : Nat := 2 ^ 64

/-- A COMMITTED command is a write (R279), as its record and log show: a logged write, or a write verb of its program where no logged verb
can have taken it past its commit point (DEDUCED, log entry 91). -/
def wroteBy (prog : List Word) (log : List LogEntry) : Bool :=
  log.any (fun e => (e.vc = 1 || e.vc = 2) && e.status = .ok) ||
    (!(log.any (fun e => !codeC e.vc && e.status.final = .completed)) && (holdsVerb prog 1 || holdsVerb prog 2))

/-- A command as its journal record and its entry image give it (R164): a COMMITTED one has its log, an ACCEPTED one an
empty log. What its MARK or FLUSH covers is what it covered when it was accepted, by the record kept of it (R154). -/
def Head.rebuilt (h : Head) (side : Nat) (r : JRec) (ps : List LPage) : Cmd :=
  let img := match ps with | p :: _ => p.data | [] => []
  let e := entryOf (readBytes img 0 128)
  let prog := e.program (wordsOf e.plen (readBytes img 128 (8 * e.plen)))
  let done := decide (r.state = .committed)
  let log := if done then imageLog ps (imageSpan ps) 0 else []
  let mk := marksOf prog
  let cover := match h.work.covers.find? (fun x => x.1 = (side, r.seq)) with | some x => x.2 | none => []
  let metered := match h.contract r.contract with
    | some k => k.met.all (fun m => !(m.1.1 = side && m.1.2.1 = r.seq) || m.2)
    | none => true
  { side := side, seq := r.seq, origin := r.origin, queue := r.queue, tag := r.tag, stream := r.stream, ord := r.ord
    con := r.con, quiet := e.quiet, contract := r.contract, cred := e.cred, conn := noConn, cls := r.cls, prog := prog
    inl := e.inline, regs := wordsOf 4 (readBytes img 2176 32), pages := ps.map (fun p => p.o * 1048576 + p.p), thread := none
    ended := false, phase := if done then .committed else .accepted, passed := done, log := log, replay := log, vs := 0
    result := 0, aux := 0, pmap := false, tko := true, accAt := h.now, bound := none
    conform := h.follows side r.stream r.ord && metered, allow := none, mute := (h.queue side r.queue).fence
    cover := cover.map (fun x => (x.1, x.2, none)), markQ := mk.1, markS := mk.2, marksQ := 0, marksS := 0, srcs := []
    returned := match h.contract r.contract with | some k => k.back.contains (side, r.seq) | none => false
    issued := 0, cp := done, wrote := done && wroteBy prog log, again := true, await := false }

/-- A command of which only the journal record is at hand: it ends with a status (R21, R170, R297). -/
def Head.bare (h : Head) (side : Nat) (r : JRec) (st : Status) : Cmd :=
  { h.rebuilt side r [] with
    prog := [], regs := [], pages := [], ended := true, log := [], replay := [], vs := st.code }

/-- A command whose entry image is not back yet (R296): it keeps its place, and may hold a MARK. -/
def Head.awaited (h : Head) (side : Nat) (r : JRec) : Cmd :=
  { h.rebuilt side r [] with prog := [], regs := [], pages := [], log := [], replay := [], markQ := 1, markS := 1, await := true }

/-- The records of a side's journal that are not final, oldest first. -/
def Journal.unfinal (j : Journal) : List JRec :=
  let l := (j.held.map (fun e => e.1)) ++ (j.ring.map (fun e => e.2))
  sortBy (fun (r : JRec) => (r.seq + 281474976710656 - j.next) % 281474976710656)
    (l.filter (fun r => r.seq ≠ 0 && !r.state.isFinal))

/-- A verb log that an ACCEPTED command will not use is cleared in its pages. -/
def Head.clearLog (h : Head) (ps : List LPage) : Head :=
  (upto (imageLog ps (imageSpan ps) 0).length).foldl (fun h n =>
    match ps[(logPlace n).1]? with
    | some p => h.placePage (p.o * 1048576 + p.p) (logPlace n).2 (List.replicate 16 0)
    | none => h) h

/-- A command put among the commands, in place of the one that awaited its image. -/
def Head.takeCmd (h : Head) (c : Cmd) : Head :=
  h.setCmds ((h.work.cmds.filter (fun d => !(d.side = c.side && d.seq = c.seq))) ++ [c])

/-- One record of a side taken up: re-run, or ended where its image went with an incomplete spill, or held in its place until its
image is back (R296). A command that stood uncommitted at a fence already taken is recorded ABANDONED (R170). `lost` are page identities
that no spill holds. -/
def Head.replayOne (h : Head) (side : Nat) (lost : List Nat) (r : JRec) : Head :=
  if (match h.cmd (side, r.seq) with | some c => !c.await | none => false) then h
  else
    let g := { h with work := { h.work with
      streams := if r.ord then place 0 h.work.streams (sq side r.stream) (r.queue + 1) else h.work.streams } }
    if (h.queue side r.queue).fence && r.state ≠ .committed then g.takeCmd (h.bare side r .abandoned)
    else
      let ps := h.image side r.seq
      if ps.isEmpty || ps.any (fun p => !p.pois.isEmpty && lost.contains (p.o * 1048576 + p.p)) then g.takeCmd (h.bare side r .poison)
      else if ps.all (fun p => p.pois.isEmpty) then
        (if r.state = .committed then g else g.clearLog ps).takeCmd (h.rebuilt side r ps)
      else g.takeCmd (h.awaited side r)

/-- Commands in acceptance order again. -/
def Head.inOrder (h : Head) : Head :=
  h.setCmds (sortBy (fun (c : Cmd) => (c.seq + 281474976710656 - (h.jour c.side).next) % 281474976710656) h.work.cmds)

/-- The atomic slots that commands of a side took which are not COMMITTED are freed (Table 10-6); those of commands that already
run again are theirs. -/
def Head.freeOpened (h : Head) (side : Nat) : Head :=
  (h.vols.atoms.filter (fun a => a.side = side && a.state = .opened && (h.cmd (side, a.seq)).isNone &&
      (match (h.jour side).get a.seq with | some r => r.state ≠ .committed | none => true))).foldl (fun h a =>
    ({ h with vols := { h.vols with atoms := h.vols.atoms.filter (fun x => !(x.side = side && x.vid = a.vid)) } }).record'
      (.atomic a true)) h

/-- The commands whose ARCHIVE or RESTORE runs on the tape ports of a side's head (R384). -/
def Head.jobsOf (h : Head) (side : Nat) : List (Nat × Nat) :=
  (upto 2).filterMap (fun p => look none h.pair.jobs (2 * side + p))

/-- The record of the job that runs on a tape port of this head, or that none does (R384). -/
def Head.sayJob (h : Head) (p : Nat) (job : Option (Nat × Nat)) : Head :=
  ({ h with pair := { h.pair with jobs := place none h.pair.jobs (2 * h.side + p) job } }).record' (.tapeJob h.side p job)

/-- Queues whose QRESET had not taken its fence are as before it: it is performed afresh when its command is re-run (R170). -/
def Head.unfenced (h : Head) (side : Nat) : Head :=
  { h with work := { h.work with queues := h.work.queues.map (fun e =>
    if e.1 / 65536 = side && !e.2.fence then (e.1, { e.2 with rst := false }) else e) } }

/-- A side's commands that are not final are re-run (R164). `hold` leaves those that run on the tape ports of the side's head alone
(R166, R384). -/
def Head.replay (h : Head) (side : Nat) (lost : List Nat) (hold : Bool) : Head :=
  let l := (h.jour side).unfinal.filter (fun r => !(hold && (h.jobsOf side).contains (side, r.seq)))
  (l.foldl (fun h r => h.replayOne side lost r) ((h.unfenced side).freeOpened side)).inOrder

/-- The ARCHIVE and RESTORE commands that ran on the tape ports of a lost head end with HEAD_LOST (R21, R383, R384). -/
def Head.tapeLost (h : Head) (side : Nat) : Head :=
  let h := (h.jobsOf side).foldl (fun h k =>
    match (h.jour k.1).unfinal.find? (fun r => r.seq = k.2) with
    | none => h
    | some r => if (h.cmd k).isSome then h else h.setCmds (h.work.cmds ++ [h.bare k.1 r .headLost])) h
  (upto 2).foldl (fun h p =>
    ({ h with pair := { h.pair with jobs := place none h.pair.jobs (2 * side + p) none } }).record' (.tapeJob side p none)) h

/-! ## Spill recovery (R296, R297, R299) -/

/-- A page restored from a spill set, and sent to the peer where it is there. -/
def Head.restorePage (h : Head) (p : LPage) : Head :=
  let id := p.o * 1048576 + p.p
  match h.page id with
  | none => h
  | some x =>
    if x.pois.isEmpty then h
    else
      let h := h.setPair { h.pair with lehr := h.pair.lehr.map (fun y => if y.o = p.o && y.p = p.p then { p with use := y.use, key := y.key } else y) }
      if h.pair.fence.peer = .inService && h.pair.link.state = .up then h.bulk (.copypage p.o p.p 0 (readBytes p.data 0 65536)) else h

/-- The parts of a write that lost pages held, as poison above it (R297). -/
def VWrite.lose (w : VWrite) (lost : List Nat) : List VWrite :=
  let bad := (upto w.pages.length).filter (fun k => lost.contains (nth 0 w.pages k))
  let cut := fun (k : Nat) =>
    let lo := max w.off (w.first.1 + 65536 * k - w.first.2)
    let hi := min (w.off + w.len) (w.first.1 + 65536 * (k + 1) - w.first.2)
    ({ w with off := lo, len := hi - lo, data := .poison, pages := [], done := false } : VWrite)
  if w.done then [w] else ((bad.map cut).filter (fun x => decide (0 < x.len))) ++ [w]

/-- An atomic write that lost pages is rolled back: the range reads as before it (R299). -/
def Head.rollAtom (h : Head) (a : ASlot) (lost : List Nat) : Head :=
  let mine := fun (w : VWrite) => w.src = (a.side, a.seq) && decide (a.off ≤ w.off) && decide (w.off + w.len ≤ a.off + a.len)
  let hit := match h.vol a.vol with
    | some v => v.writes.any (fun w => mine w && !w.done && w.pages.any lost.contains)
    | none => false
  if hit then
    let h := (h.updVol a.vol (fun v => { v with writes := v.writes.filter (fun w => !(mine w && !w.done)) })).1
    let h := { h with vols := { h.vols with atoms := h.vols.atoms.filter (fun x => x.vid ≠ a.vid) } }
    (h.record' (.atomic a true)).headEvent 0x0709 2 a.seq 0
  else h

/-- Lehr pages are lost: atomic writes roll back, other writes read poison there. -/
def Head.losePages (h : Head) (lost : List Nat) : Head :=
  if lost.isEmpty then h
  else
    let h := h.vols.atoms.foldl (fun h a => h.rollAtom a lost) h
    h.setVols (h.vols.vols.map (fun v => { v with writes := (v.writes.map (fun w => w.lose lost)).flatten }))

/-- A side's spill sets read back: entry images first (R296); an incomplete spill, and one that never came to its record,
loses the pages it has not written (R297). The answer names the pages lost. -/
def Head.recoverSpill (h : Head) (side : Nat) : Head × List Nat :=
  let s := h.spillOf side
  let part := if s.rcd = 0 then h.spillPart side else s.share.map (fun x => x.2)
  let h := (s.sets.filter (fun x => x.2.use = .image)).foldl (fun h x => h.restorePage x.2) h
  let h := (s.sets.filter (fun x => x.2.use ≠ .image)).foldl (fun h x => h.restorePage x.2) h
  let gone := part.filter (fun i => match h.page i with | some p => decide (p.pois.length = 16) | none => false)
  if s.rcd = 2 || (s.rcd = 0 && (gone.isEmpty || h.sys.rst.cause ≠ 0)) then
    (if s.rcd = 0 then h else (h.setSpill side { s with rcd := 0, share := [], last := 1 }).record' (.spill side 0 s.n), [])
  else
    let h := (h.setSpill side { s with rcd := 0, share := [], last := 2 }).record' (.spill side 0 s.n)
    ((h.headEvent 0x0708 3 gone.length 0).losePages gone, gone)

/-- A row whose fill was interrupted (R250, R256): its pages are dead, and the next fill takes the next row. -/
def Band.deadRow (b : Band) (r : SJRec) : Band :=
  if b.num = r.band ∧ b.fills.length ≤ r.row then { b with fills := b.fills ++ [⟨r.stripe, r.row, 0⟩], wseq := max b.wseq r.wseq } else b

/-- Records of fills that were in progress become DISCARD (R256). -/
def Head.discardFills (h : Head) (side : Nat) : Head :=
  let hit := fun (r : SJRec) => r.side = side && r.st = 1
  let l := h.fl.jour.filter hit
  let h := h.setFl { h.fl with
    jour := h.fl.jour.map (fun r => if hit r then { r with st := 3 } else r)
    bands := h.fl.bands.map (fun b => if b.side = side then l.foldl Band.deadRow { b with filling := none } else b) }
  if l.isEmpty then h else h.count .STCNT 2 l.length

/-! ## Groups and addresses (R17, R111, R218, R219) -/

/-- This head is giving a side up (R166 steps 2 to 4): its staged bytes go to flash, and nothing new starts on its dies (R218, R252). -/
def Head.handing (h : Head) (side : Nat) : Bool :=
  match h.pair.handoff with | some o => o.mine && decide (o.side = side) | none => false

/-- A side's band has nothing staged and no fill in progress. -/
def Band.settled (b : Band) : Bool := b.filling.isNone && (!b.isOpen || b.stage.isEmpty)

/-- The groups of a side can be given up: every operation of its dies has ended, or is an erase that can be suspended, and what was staged
is on flash (R218 step 2, R252). -/
def Head.groupsFree (h : Head) (side : Nat) : Bool :=
  h.fl.ops.all (fun o => dieSide o.die ≠ side || (match o with | .erase d _ _ => h.canSuspend d | _ => false)) &&
    h.fl.bands.all (fun b => b.side ≠ side || b.settled)

/-- The erases of a side that have not ended: those of GC slots in ERASE (R236), those of deleted pools' bands (R225), those of spill sets
(R296). -/
def Head.dueErases (h : Head) (side : Nat) : List NOp :=
  ((h.fl.gc.filter (fun g => g.side = side && decide (g.st = .erase))).map (fun g =>
    g.left.map (fun m => NOp.erase m.1 m.2 (some (g.side, g.idx))))).flatten ++
  ((h.fl.bands.filter (fun b => b.side = side && (h.pool b.pool).any (fun p => p.deleting))).map (fun b =>
    b.members.map (fun m => NOp.erase m.1 m.2 none))).flatten ++
  (h.pair.spill.at side).blocks.left.map (fun m => NOp.erase m.1 m.2 none)

/-- The erases of a side go on: one that another head has suspended is resumed (R218), the others are issued again (R219, R236). -/
def Head.resumeErases (h : Head) (side : Nat) : Head :=
  (h.dueErases side).foldl (fun h o =>
    if h.fl.ops.contains o || h.fl.waits.any (fun w => w.1 = o) then h
    else if (h.die o.die).any (fun d => d.susp) then (h.setFl { h.fl with ops := h.fl.ops ++ [o] }).suspend o.die false
    else h.nand o false) h

/-- The groups of a side become this head's: by hand-off, where the first window on each volume is a Volume Select and a suspended erase
is resumed (R218), or, with `resync`, by takeover, where each die is resynchronised before anything else (R219, R270). -/
def Head.takeGroups (h : Head) (side : Nat) (resync : Bool) : Head :=
  let h := (sideGroups side).foldl (fun h g =>
    let ds := h.groupDies g
    let h := h.setGroup g { Group.blank with own := true, resync := if resync then ds else [], lastOp := h.now }
    if resync then ds.foldl (fun h d => h.updDie d (fun x => { x with susp := false })) h else h.emitAll ds .select) h
  (h.resumeErases side).protect

/-- What this head does on the dies of a side ends (R218 step 2): erases are suspended, reads are asked for no more, extents and gathers
of the side are given up (R173). -/
def Head.quitSide (h : Head) (side : Nat) : Head :=
  let h := h.fl.ops.foldl (fun h o => match o with
    | .erase d _ _ => if dieSide d = side then h.suspend d true else h
    | _ => h) h
  let on := fun (band : Nat) => match h.band band with | some b => decide (b.side = side) | none => false
  let h := h.setFl { h.fl with
    ops := h.fl.ops.filter (fun o => dieSide o.die ≠ side), waits := h.fl.waits.filter (fun w => dieSide w.1.die ≠ side)
    late := h.fl.late.filter (fun x => !(on x.1)), wants := h.fl.wants.filter (fun w => !(on w.band))
    gc := restGc (h.fl.gc.filter (fun g => g.side = side)) ++ h.fl.gc.filter (fun g => g.side ≠ side)
    bands := h.fl.bands.map (fun b => if b.side = side then b.orphans else b) }
  let pool := fun (e : Extent) => match h.vol e.vol with | some v => v.pool | none => 0
  (h.red.extents.filter (fun e => e.side = side)).foldl (fun h e => h.dropExtent (pool e) e) h

/-- The groups of a side are released: operations have ended or are suspended, the pins float, the peer is told (R218). -/
def Head.giveGroups (h : Head) (side : Nat) : Head :=
  (sideGroups side).foldl (fun h g =>
    if (h.group g).own then (h.setGroup g Group.blank).sendCtl (.control .groupUp g) else h) (h.quitSide side)

/-- Chunks of a side counted again from the recipes that name them (R231, R271): what extents of the lost head held is released, what
nothing names is dead. -/
def Head.recount (h : Head) (side : Nat) : Head :=
  let named := (h.vols.vols.map (fun v => ((v.map ++ v.emap).map (fun m => m.kind.pieces.map (fun p => p.1))).flatten)).flatten
  let refs := fun (c : ChunkEnt) => named.countP (fun n => n = mkCref c.pool c.side c.chunk)
  let kept := (h.fl.chunks.map (fun c => if c.side = side then { c with refs := refs c } else c)).filter (fun c => decide (0 < c.refs))
  h.setFl { h.fl with
    chunks := kept
    bands := h.fl.bands.map (fun b => if b.side = side then Band.orphans { b with cells := b.cells.map (fun x => { x with live := x.live && (match x.item with
      | .chunk n => kept.any (fun k => k.pool = b.pool && k.side = side && k.chunk = n)
      | .page _ => true) }) } else b) }

/-- A gratuitous ARP for a side's IPv4 address and an unsolicited Neighbor Advertisement for its IPv6 address on every port in service
(R111). -/
def Head.announce (h : Head) (side : Nat) : Head :=
  ([h.addr4 side, h.addr6 side].filter (fun a => a ≠ 0)).foldl (fun h a =>
    ((upto 32).filter (fun l => h.net.up.getLsbD l)).foldl (fun h l => h.sendEth ⟨some l, h.vlan side, .arpNd a true⟩) h) h

/-- The address of a side is held from now on, and announced (R111). -/
def Head.takeAddr (h : Head) (side : Nat) : Head :=
  ({ h with net := { h.net with addrs := h.net.addrs.put side true } }).announce side

/-- The address of a side is given back, and announced (R111): its connections end here. -/
def Head.giveAddr (h : Head) (side : Nat) : Head :=
  let h := ({ h with net := { h.net with addrs := h.net.addrs.put side false } }).announce side
  ((h.net.conns.filter (fun c => c.side = side)).map (fun c => c.num)).foldl (fun h n => h.connClosed n) h

/-- This head serves a side from now on. -/
def Head.serveSide (h : Head) (side : Nat) (on : Bool) : Head :=
  h.setPair { h.pair with serve := h.pair.serve.put side on }

/-- The hot index and the queues of programs of a side that this head serves no longer are forgotten with its commands. -/
def Head.dropSide (h : Head) (side : Nat) : Head :=
  let gone := (h.work.cmds.filter (fun c => c.side = side))
  let ts := gone.filterMap (fun c => c.thread)
  let h := ts.foldl (fun h t => h.setThread t { h.thread t with run := .free, verbs := [], cmd := none, buf := false, len := 0 }) h
  let h := h.setVerbs (h.work.verbs.filter (fun v => match v.cmd with | some k => k.1 ≠ side | none => true))
  h.setCmds (h.work.cmds.filter (fun c => c.side ≠ side))

/-! ## Serving alone, the fence (R264-R269, R280) -/

/-- The head serves alone from now on (R280). -/
def Head.goSolo (h : Head) : Head :=
  if h.pair.solo then h else (h.setPair { h.pair with solo := true, remir := false, remirLeft := 0 }).headEvent 0x0703 1 0 0

/-- The event of R103 starts for a side. -/
def Head.startEvent (h : Head) (side : Nat) : Head :=
  { h with work := { h.work with event := h.work.event.put side (some h.now) } }

/-- Levels of the fence pins as R266 lets a head assert its fence: never while it is fenced, after PFAIL_L, or while its
own FENCE_IN_L is low. -/
def Head.mayFence (h : Head) : Bool :=
  h.runs 0 && h.sys.pins.fenceIn && h.sys.pins.fenceOut && !h.dark && !h.spilling

/-- The head fences its peer (R268): FENCE_OUT_L falls, the event of R103 starts, SETTLE begins to run. -/
def Head.assertFence (h : Head) : Head :=
  if !h.mayFence then h
  else
    let h := { h with sys := { h.sys with pins := { h.sys.pins with fenceOut := false } } }
    let h := h.setPair { h.pair with takeover := .settle, tkSide := h.far, handoff := none, remir := false, remirLeft := 0
                                     fence := { h.pair.fence with peer := .fenced } }
    ((h.goSolo).startEvent h.far).settle

/-- The head drives nothing and serves nothing but SMBus from now on (R14, R267): its NAND pins, its host ports, the pair link and the
transport links are released. -/
def Head.goDark (h : Head) : Head :=
  let h := h.setPair { h.pair with
    serve := Two.both false, handoff := none, takeover := .none, remir := false, remirLeft := 0
    link := { h.pair.link with state := .down, txw := 0, rxw := 0 } }
  let h := { h with net := { h.net with addrs := Two.both false, up := 0 } }
  let h := h.setFl { h.fl with ops := [], waits := [], late := [], wants := [], groups := [] }
  let down := fun (p : Port) => { p with link := { p.link with state := .down, txw := 0, rxw := 0 } }
  { h with tape := { h.tape with ports := ⟨down h.tape.ports.s0, down h.tape.ports.s1⟩ } }

/-- A head latches FENCED (R266, R267): it drives nothing, accepts nothing, serves only SMBus. -/
def Head.latchFenced (h : Head) (tie : Bool) : Head :=
  let h := { h with sys := { h.sys with pins := { h.sys.pins with fenceOut := true } } }
  let h := h.setPair { h.pair with fence := { h.pair.fence with fenced := true, tie := tie } }
  (h.goDark).headEvent 0x0702 3 (bnat tie) 0

/-- The heads report the same side (R14): recorded, and the head serves SMBus only until its next reset. -/
def Head.sideConflict (h : Head) : Head :=
  if h.pair.fence.conflict then h
  else ((h.setPair { h.pair with fence := { h.pair.fence with conflict := true } }).goDark).headEvent 0x0701 3 0 0

/-! ## Takeover (R21, R227, R270-R272, R283) -/

/-- Replication of a side that this head takes over goes on from its base; a cycle in progress restarts (R311). -/
def Head.restartReps (h : Head) : Head :=
  h.setPair { h.pair with reps := h.pair.reps.map (fun e => (e.1, e.2.map (fun r =>
    if r.state = 1 || r.state = 2 then
      { r with state := 1, conn := none, phase := 0, left := 0, win := 0, todo := [] } else r))) }

/-- The hot index of a side's domains starts empty, and every page of their cold indices is read again before the COLD filter counts for
them (R183, R271). -/
def Head.coldUnread (h : Head) (side : Nat) : Head :=
  { h with red := { h.red with
    unread := h.red.unread.filter (fun x => x.2.1 ≠ side) ++ h.fl.pools.map (fun p => (p.num, side, []))
    hot := h.red.hot.filter (fun w => bits w.e.cref.toNat 61 61 ≠ side) } }

/-- Atomic slots that were MAPPING are destaged again (Table 10-6). -/
def Head.restageAtoms (h : Head) (side : Nat) : Head :=
  { h with vols := { h.vols with atoms := h.vols.atoms.map (fun a =>
    if a.side = side && a.state = .mapping then { a with state := .staged, start := 0, count := 0 } else a) } }

/-- SETTLE has passed since the fence (Table 9-5, events 3 to 6): the survivor takes the groups of the lost side, the
ledger, addresses and windows, fixes the journal's end, re-runs its commands. -/
def Head.takeOver (h : Head) : Head :=
  let side := h.pair.tkSide
  let h := h.setPair { h.pair with
    takeover := .none, mark := h.pair.mark.put side (h.jour side).newest }
  let h := h.setFl { h.fl with gc := restGc (h.fl.gc.filter (fun g => g.side = side)) ++ h.fl.gc.filter (fun g => g.side ≠ side) }
  let h := (h.takeGroups side true).deviceEvent 0x0110 side 0
  let h := if h.pair.fence.tie then (sideGroups h.side).foldl (fun h g => h.setGroup g { h.group g with resync := h.groupDies g }) h else h
  let h := (h.takeAddr side).serveSide side true
  let h := (((((h.discardFills side).recount side).coldUnread side).restageAtoms side).restartReps).tapeLost side
  (h.replay side [] false).settle

/-! ## Hand-off (R92, R103, R166, R218, R280, R384) -/

/-- A hand-off activation of a side begins on the head that will serve it: it serves alone from now on, the other is told
(R166 step 1). -/
def Head.beginHandoff (h : Head) (side : Nat) (act : Bool) : Head :=
  let h := h.setPair { h.pair with handoff := some ⟨side, 1, false, act⟩ }
  let h := (h.goSolo).startEvent side
  (h.sendCtl (.control .handoffBegin (side + 2 * bnat act))).deviceEvent 0x0112 side 0

/-- The head that is to restart stops acceptance and placements (R166 step 2); the event of R103 starts for it too. -/
def Head.enterHandoff (h : Head) (act : Bool) : Head :=
  (h.setPair { h.pair with handoff := some ⟨h.side, 2, true, act⟩ }).startEvent h.side

/-- Everything this head mirrored is on the peer (R166 step 3). -/
def Head.allMirrored (h : Head) : Bool := h.pair.link.mir.unacked.isEmpty && h.pair.link.mir.waiting.isEmpty

/-- The tape job of a port that runs is held, with its record mirrored (R384). -/
def Head.holdJob (h : Head) (p : Nat) : Head :=
  let x := h.tape.ports.at p
  match x.job with
  | none => h
  | some j =>
    let y : Port := { x with job := none, held := some { j with held := true, saved := x.buf }, state := .stopped, cur := none, buf := [] }
    ({ h with tape := { h.tape with ports := h.tape.ports.put p y } }).sayJob p (look none h.pair.jobs (2 * h.side + p))

/-- Chunks that a record names and that have not come. -/
def TJob.missing (j : TJob) (r : TRec) : List Nat :=
  (r.pieces.map (fun q => q.1)).filter (fun n => n ≠ 0 && !(j.got.any (fun g => g.1 = n)))

/-- A port's transport is between data sets, with every record written whose chunks have been read (R384). -/
def Port.atBoundary (x : Port) : Bool :=
  x.cur.isNone && (match x.job with
    | some j => j.archive || (match j.recs with | r :: _ => !(j.missing r).isEmpty | [] => true)
    | none => true)

/-- Both tape ports stand at a data-set boundary (R384): no data set is being written or read. -/
def Head.tapeBoundary (h : Head) : Bool := h.tape.ports.s0.atBoundary && h.tape.ports.s1.atBoundary

/-- The restarting head has mirrored everything: it holds its tape jobs, gives up its address and its groups (R166 step
4), and restarts. -/
def Head.giveUp (h : Head) (act : Bool) : Head :=
  let s := h.side
  let h := ((h.holdJob 0).holdJob 1).giveAddr s
  let h := ((h.giveGroups s).sendCtl (.control .handoffGiven s)).serveSide s false
  let h := h.dropSide s
  h.setPair { h.pair with handoff := some ⟨s, 4, true, act⟩ }

/-- The peer takes on what was given up (R166 step 5). -/
def Head.takeOn (h : Head) (side : Nat) (act : Bool) : Head :=
  let h := h.setPair { h.pair with
    handoff := some ⟨side, 5, false, act⟩, mark := h.pair.mark.put side (h.jour side).newest }
  let h := ((h.takeGroups side false).takeAddr side).serveSide side true
  let h := ((h.coldUnread side).restageAtoms side).restartReps
  (h.replay side [] true).settle

/-- Tape jobs held for this head resume on their ports (R384, R166 step 7). -/
def Head.resumeJobs (h : Head) : Head :=
  let back := fun (p : Port) => match p.held with
    | some j => { p with job := some { j with held := false, saved := [] }, held := none, buf := j.saved }
    | none => p
  { h with tape := { h.tape with ports := ⟨back h.tape.ports.s0, back h.tape.ports.s1⟩ } }

/-- The return of a side to its own head goes by the same sequence with the roles exchanged (R103, R161, R166 step 7). First, the head that
has come back begins to take its queues. -/
def Head.beginReturn (h : Head) : Head :=
  let s := h.side
  let h := (h.setPair { h.pair with solo := false, newer := [], handoff := some ⟨s, 1, false, false⟩ }).startEvent s
  h.sendCtl (.control .handoffBegin s)

/-- Then the head that serves the side stops acceptance and placements for it (step 2): in the return that ends a hand-off (step 7), and
in that which ends a takeover (R273). -/
def Head.enterReturn (h : Head) (side : Nat) : Head :=
  let o : Handoff := match h.pair.handoff with | some o => ⟨side, 7, true, o.act⟩ | none => ⟨side, 2, true, false⟩
  (h.setPair { h.pair with handoff := some o }).startEvent side

/-- Then, with everything mirrored and the side's groups free, it gives up the side's address and groups (steps 3 and 4). -/
def Head.returnSide (h : Head) (side : Nat) : Head :=
  let h := ((((h.giveAddr side).giveGroups side).serveSide side false).dropSide side).sendCtl (.control .handoffGiven side)
  h.setPair { h.pair with handoff := none }

/-- A head takes its own side back. -/
def Head.takeBack (h : Head) : Head :=
  let s := h.side
  let h := h.setPair { h.pair with rejoin := false, handoff := none }
  let h := ((h.takeGroups s false).takeAddr s).serveSide s true
  let h := ((h.coldUnread s).restageAtoms s).resumeJobs
  (h.replay s [] false).settle

/-! ## Start of service after a reset (R14, R105, R167, R273, R282, R471) -/

/-- Every island runs and firmware is dispatched. -/
def Head.ready (h : Head) : Bool := h.sys.islands.all (fun x => x.st = .running) && h.sys.rst.image

/-- The head may take up service: everything is ready and it has met its peer or fenced it; a head that rejoins waits
until its side is returned. -/
def Head.canServe (h : Head) : Bool :=
  h.ready && !h.dark && !h.pair.rejoin && h.sys.power.held = false &&
    !h.serves h.side && h.pair.handoff.isNone && (h.pair.link.state = .up || !h.sys.pins.fenceOut)

/-- The spill sets that this head reads: its own side's, and the other's where it is alone (R296). -/
def Head.recoverSpills (h : Head) : Head × List Nat :=
  let x := h.recoverSpill h.side
  if x.1.pair.solo then
    let y := x.1.recoverSpill x.1.far
    (y.1, x.2 ++ y.2)
  else x

/-- A side taken up again after a reset: its fills, its commands; `lost` are the pages that the spill lost. -/
def Head.recoverSide (h : Head) (side : Nat) (lost : List Nat) : Head :=
  let h := ((h.discardFills side).restageAtoms side).coldUnread side
  let h := (((h.takeGroups side false).takeAddr side).serveSide side true).tapeLost side
  h.replay side lost false

/-- Service begins where it may. -/
def Head.takeUp (h : Head) : Head :=
  if !h.canServe then h
  else
    let x := h.recoverSpills
    let h := x.1.recoverSide h.side x.2
    let h := if h.pair.solo && h.pair.takeover = .none then (h.recoverSide h.far x.2) else h
    (h.restartReps).settle

/-- A rejoining head discards its journal records above the newest that the peer holds (R157, R273 step 2). -/
def Head.discardAbove (h : Head) (m : Nat) : Head :=
  let j := h.jour h.side
  let above := fun (s : Nat) => decide (0 < (s + 281474976710656 - m) % 281474976710656) &&
    decide ((s + 281474976710656 - m) % 281474976710656 < 140737488355328)
  h.setJour h.side { j with
    next := nextSeq m
    ring := j.ring.filter (fun e => !above e.2.seq)
    held := j.held.filter (fun e => !above e.1.seq) }

/-- The page table entry of a page, as its record (Table 10-2, structure 8). -/
def LPage.tab (p : LPage) : PRec := .pageTab p.o p.p (match p.use with | .window => 1 | .image => 2) p.key

/-! ## What the peer knows of the dies (R232, R236, R271) -/

/-- The state of a GC slot as its record has it (Table 8-11): 1 COPY, 2 MAP, 3 ERASE, 4 DONE. -/
def GState.num : GState → Nat
  | .read => 1
  | .copy => 1
  | .moved _ => 1
  | .map _ => 2
  | .erase => 3
  | .done => 4

/-- What a side's dies and directories hold (R232, R236, R255; DESIGN CHOICE, log entry 73). -/
def Head.media (h : Head) (side : Nat) : Media :=
  let of := fun (v : Nat) => match h.vol v with | some x => decide (x.home = side) | none => false
  { bands := (h.fl.bands.filter (fun b => b.side = side)).map (fun b => { b with stage := [], filling := none })
    chunks := h.fl.chunks.filter (fun c => c.side = side)
    dies := (h.fl.dies.filterMap (fun e => e.2)).filter (fun d => dieSide d.num = side)
    spill := (h.pair.spill.at side).blocks
    gc := h.fl.gc.filter (fun g => g.side = side)
    vols := h.vols.vols.filter (fun v => v.home = side)
    dirs := (h.vols.dirs.filter (fun x => x.2.1 = side)).map (fun x => (x.1, x.2.2))
    dirty := (h.vols.dirty.filter (fun x => x.2 = side)).map (fun x => x.1)
    fines := h.vols.fines.filter (fun x => of x.1)
    copies := h.vols.copies.filter (fun x => x.side = side)
    last := h.fl.nextChunk.at side
    pools := h.fl.pools.map (fun p => (p.num, p.debit.at side, p.worn.at side, p.built)) }

/-- A side of which nothing is known yet. -/
def Media.blank : Media := ⟨[], [], [], SpillSets.blank, [], [], [], [], [], [], 0, []⟩

/-- The peer is told what has changed on the sides that this head serves. -/
def Head.sayMedia (h : Head) : Head :=
  ((upto 2).filter h.serves).foldl (fun h side =>
    let m := h.media side
    if !h.mirroring || (h.pair.said.at side).getD Media.blank = m then h
    else (h.setPair { h.pair with said := h.pair.said.put side (some m) }).record' (.media side m)) h

/-- Deltas of the pages of a side that are written are in the ring no more (R232). -/
def Head.retireClean (h : Head) (side : Nat) (busy : MPage → Bool) : Head :=
  let keep : Delta → Bool := fun d => d.side ≠ side || decide (5 ≤ d.typ) || decide (d.typ = 4) || (match h.deltaPage d with
    | some p => h.vols.dirty.contains (p, side) || busy p
    | none => false)
  { h with vols := { h.vols with deltas := h.vols.deltas.filter keep } }

/-- What the head that serves a side tells of it is taken over. Writes of this head's own commands that the other has not seen stay. -/
def Head.takeMedia (h : Head) (side : Nat) (m : Media) : Head :=
  let vols : List Volume := h.vols.vols.map (fun (v : Volume) => match m.vols.find? (fun x => x.num = v.num) with
    | some x => { v with map := x.map, emap := x.emap
                         writes := v.writes.filter (fun (w : VWrite) => !(x.writes.any (fun (y : VWrite) => y.src = w.src))) ++ x.writes }
    | none => v)
  let gone : Nat → Bool := fun v => match h.vol v with | some x => decide (x.home = side) | none => true
  let dies := m.dies.foldl (fun l d => place none l d.num (some d)) (h.fl.dies.filter (fun e => dieSide e.1 ≠ side))
  let h := h.setFl { h.fl with
    bands := h.fl.bands.filter (fun b => b.side ≠ side) ++ m.bands
    chunks := h.fl.chunks.filter (fun c => c.side ≠ side) ++ m.chunks
    dies := dies, gc := h.fl.gc.filter (fun g => g.side ≠ side) ++ m.gc, nextChunk := h.fl.nextChunk.put side m.last
    pools := h.fl.pools.map (fun (p : Pool) => match m.pools.find? (fun x => x.1 = p.num) with
      | some x => { p with debit := p.debit.put side x.2.1, worn := p.worn.put side x.2.2.1, built := p.built || x.2.2.2 }
      | none => p) }
  let h := { h with vols := { h.vols with
    vols := vols
    dirs := h.vols.dirs.filter (fun (x : MPage × Nat × Nat) => x.2.1 ≠ side) ++ m.dirs.map (fun (x : MPage × Nat) => (x.1, side, x.2))
    dirty := h.vols.dirty.filter (fun (x : MPage × Nat) => x.2 ≠ side) ++ m.dirty.map (fun p => (p, side))
    copies := h.vols.copies.filter (fun (x : PageCopy) => x.side ≠ side) ++ m.copies
    fines := h.vols.fines.filter (fun (x : Nat × Nat) => !gone x.1) ++ m.fines } }
  (h.setSets side m.spill).retireClean side (fun _ => false)

/-- Every mirrored PSTORE structure as records (R273, R281). -/
def Head.structures (h : Head) : List PRec :=
  (h.pair.lehr.map LPage.tab) ++
  (upto 2).flatMap (fun s => ((h.jour s).ring.map (fun e => PRec.journal s e.2)) ++ ((h.jour s).held.map (fun e => PRec.held s e.1))) ++
  (h.work.contracts.map (fun e => PRec.ledger e.1 e.2)) ++ [PRec.costTab h.work.cost] ++
  (h.work.covers.map (fun e => PRec.cover e.1.1 e.1.2 e.2)) ++
  (h.work.streams.map (fun e => PRec.stream (e.1 / 65536) (e.1 % 65536) e.2)) ++
  (h.work.queues.map (fun e => PRec.queue (e.1 / 65536) (e.1 % 65536) e.2.qnext e.2.rst e.2.fence e.2.abandN e.2.doneN)) ++
  (h.vols.vols.map PRec.epoch) ++ (h.vols.cuts.map (fun e => PRec.cuts e.1 e.2 [])) ++ (h.vols.atoms.map (fun a => PRec.atomic a false)) ++
  ((h.net.windows.filter (fun w => !w.out)).map PRec.window) ++
  (h.fl.jour.map (fun r => PRec.stripe r.side 0 r.band r.stripe r.row r.st r.mask r.wseq)) ++
  (upto 2).flatMap (fun s => (h.fl.bitmap.at s).map (fun i => PRec.bitmap s i true) ++ [PRec.room s (h.pair.room.at s)]) ++
  (h.pair.reps.map (fun e => PRec.repl e.1 e.2)) ++
  (h.pair.jobs.map (fun e => PRec.tapeJob (e.1 / 2) (e.1 % 2) e.2)) ++
  (h.keys.slots.map (fun e => PRec.key e.1 (e.2.map (fun k => (k.key, k.by_))))) ++
  (h.keys.hkeys.map (fun e => PRec.hkey e.1 (e.2.map (fun k => (k.key, k.use))))) ++
  (h.fl.pools.map (fun p => PRec.pool p.num (some ⟨p.enc, p.w, p.p, p.cidxk, p.key⟩))) ++
  (h.fl.gc.map (fun g => PRec.gcSlot g.side g.idx g.victim (g.dest.getD 0) g.st.num)) ++
  (upto 2).flatMap (fun s =>
    let l := h.vols.deltas.filter (fun d => d.side = s)
    (l.zip (upto l.length)).map (fun x => PRec.delta s (h.vols.ndelta.at s + 1 + x.2 - l.length) x.1)) ++
  (upto 2).map (fun s => PRec.media s (h.media s)) ++ [h.keys.fw.said]

/-- The copy of R281 begins: the PSTORE records, then the live pages, on the bulk channel. -/
def Head.startRemirror (h : Head) : Head :=
  let pages := h.pair.lehr
  let recs := h.structures
  let h := h.setPair { h.pair with
    remir := true, fence := { h.pair.fence with peer := .rejoining }, said := ⟨some (h.media 0), some (h.media 1)⟩ }
  let h := recs.foldl (fun h r => h.bulk (.copyrec r)) h
  let h := pages.foldl (fun h p => h.bulk (.copypage p.o p.p 0 (readBytes p.data 0 65536))) h
  h.setPair { h.pair with remirLeft := pages.length + recs.length }

/-- An activation has ended: the verbs that wait for it have their answer (R440). -/
def Head.endActivation (h : Head) (ok : Bool) : Head :=
  h.setVerbs (h.work.verbs.map (fun v => match v.aw with
    | .activation => { v with aw := .nothing, res := if ok then .ok 0 else .fail .checkFail }
    | _ => v))

/-- Re-mirroring has ended: the pair is whole, FENCE_OUT_L is released (R273 step 4, R281), and the head that has come back is told, which
then takes its side back. Of a hand-off it is kept that its return is due. -/
def Head.endRemirror (h : Head) : Head :=
  let back := h.pair.handoff.isNone
  let h := h.setPair { h.pair with
    remir := false, remirLeft := 0, solo := false, handoff := h.pair.handoff.map (fun o => { o with step := 6 })
    fence := { h.pair.fence with peer := .inService } }
  let h := { h with sys := { h.sys with pins := { h.sys.pins with fenceOut := true } } }
  let h := (h.headEvent 0x0704 0 0 0).sendCtl (.control .remirrored h.far)
  if back then h.deviceEvent 0x0111 h.far 0 else h

/-- A side has been given back (R166 step 7). With the end of a hand-off its event goes out; in an activation side 0 goes on with its own
hand-off once side 1 is back, and with side 0's return the activation ends (R440). -/
def Head.endReturn (h : Head) (side : Nat) (hand act : Bool) : Head :=
  let h := h.returnSide side
  let h := if hand then h.deviceEvent 0x0113 side 0 else h
  if !act then h
  else
    let h := h.setFw { h.keys.fw with peerConf := false, peerVer := h.keys.fw.peerStaged.getD h.keys.fw.peerVer }
    if h.side = 0 then (h.enterHandoff true).sendCtl (.control .handoffBegin 2) else h.endActivation true

end Sys2Proof.Machine
end

