-- ==== Sys2Proof/Machine/Fences.lean ====
section
/-! DEFINITION. Fences, takeover, hand-off and re-mirroring as events (R265-R273, R281, R384, R440). -/

namespace Sys2Proof.Machine

/-- The head with the level of FENCE_IN_L. -/
def Head.fenceInPin (h : Head) (high : Bool) : Head :=
  { h with sys := { h.sys with pins := { h.sys.pins with fenceIn := high } } }

/-- FENCED is latched under R266 where the fence is not simultaneous, or this is side 1. -/
def Head.fencedBy (h : Head) : Head :=
  let tie := !h.sys.pins.fenceOut
  if h.pair.fence.fenced then h
  else if tie && h.side = 0 then h.setFence { h.pair.fence with tie := true }
  else h.latchFenced tie

/-- FENCE_IN_FALL: FENCE_IN_L falls and stays low for `low` ns (R265, R266, R513). Below 20 ns the pins are forced, and the
latch may or may not act: a free value; below 5 ns nothing is promised, and nothing latches. -/
def execFenceInFall (low : Nat) (s : State) : Host.Outcome State Fault Refusal :=
  s.run (fun h =>
    if low < 5 then h
    else if low < 20 then (if Config.freeBool h.fresh then h.fencedBy.tick else h.tick)
    else (h.fenceInPin false).fencedBy)

/-- FENCE_IN_RISE: the pins of a head that is not FENCED are released (R265, R266). -/
def execFenceInRise (s : State) : Host.Outcome State Fault Refusal := s.run (fun h => h.fenceInPin true)

/-- FENCED_RESET_TIMER: 100 ms after FENCED was latched (R267), unless HOLD is 1. -/
def execFencedResetTimer (s : State) : Host.Outcome State Fault Refusal :=
  s.run (fun h => if h.pair.fence.fenced && h.cfg .FNCCFG 0 39 39 = 0 then h.pulseReset .watchdog else h)

/-- HEARTBEAT_LOSS: no heartbeat has come for HBLIM (R268). In a hand-off the head that serves fences the other, never the one that gives
up its queues or has not yet had them back; while the restart of a hand-off is due nobody fences (R166). -/
def execHeartbeatLoss (s : State) : Host.Outcome State Fault Refusal :=
  s.run (fun h =>
    match h.pair.handoff with
    | some o => if (o.mine = decide (o.side = h.side)) || o.step = 5 then h else h.assertFence
    | none => if h.pair.fence.peer = .inService || h.pair.fence.peer = .rejoining then h.assertFence else h)

/-- The effect of a write of FNCCTL. -/
def Head.doFncctl (h : Head) (c : Caller) (v : Word) : WriteResult :=
  .ok ((if bit v.toNat 63 then h.assertFence else h.setReg c Reg.FNCCTL.row 0 v), .ok)

/-- FNCCTL_FORCE (R268). -/
def execFncctlForce (c : Caller) (v : Word) (s : State) : Host.Outcome State Fault Refusal :=
  s.write (fun h => h.writeWith c Reg.FNCCTL.row 0 v (fun h => h.doFncctl c v))

/-- TAKEOVER_SETTLE: SETTLE has passed with FENCE_IN_L high since this head asserted its fence (R269, R272). -/
def execTakeoverSettle (s : State) : Host.Outcome State Fault Refusal :=
  s.run (fun h =>
    if h.pair.takeover = .settle && h.sys.pins.fenceIn && !h.dark && !h.spilling then h.takeOver.takeUp else h)

/-- REMIRROR_DONE: every frame of the copy is on the rejoining head, and every change made meanwhile (R273, R281). -/
def execRemirrorDone (s : State) : Host.Outcome State Fault Refusal :=
  s.run (fun h =>
    let b := h.pair.link.bulk
    if h.pair.remir && h.pair.link.state = .up && b.unacked.isEmpty && b.waiting.isEmpty && h.allMirrored then
      h.endRemirror.settle
    else h)

/-- The head that an activation restarts starts its staged image, unconfirmed (R440, R441); the health window begins to run
when that image starts. -/
def Head.startStaged (h : Head) : Head :=
  let f := h.keys.fw
  h.setFw { f with inForce := some f.other, conf := false, hleft := 0, twoFmt := true }

/-- HANDOFF_GIVE_UP: the mirroring of a head that hands over its side is complete (R166 step 3): it gives up addresses and
groups, and restarts; on the other head, what was given up is taken on (step 5). A head that gives a side back to its own head goes on
serving (step 7). -/
def execHandoffGiveUp (s : State) : Host.Outcome State Fault Refusal :=
  s.run (fun h =>
    match h.pair.handoff with
    | none => h
    | some o =>
      if o.mine then
        if o.side ≠ h.side then
          (if h.allMirrored && h.groupsFree o.side then h.endReturn o.side (decide (o.step = 7)) o.act else h)
        else if o.step = 2 && h.allMirrored && h.groupsFree h.side && h.tapeBoundary then
          let h := h.giveUp o.act
          if o.act then (h.startStaged).pulseReset .watchdog
          else h.holdHot
        else h
      else if o.step = 1 then h.takeOn o.side o.act
      else h)

/-- TAPE_RESUME_TIMEOUT: the link of a port with a held job has not reached RUN within 60 s (R384): the job ends with
HEAD_LOST. -/
def execTapeResumeTimeout (p : Nat) (s : State) : Host.Outcome State Fault Refusal :=
  s.run (fun h =>
    let x := h.tape.ports.at p
    match x.job with
    | none => h
    | some j =>
      if x.link.state = .run then h
      else
        let h := { h with tape := { h.tape with ports := h.tape.ports.put p { x with job := none, held := none, cur := none } } }
        let h := h.sayJob p none
        (match h.work.verbs.find? (fun (v : HVerb) => v.vid = j.vid) with
         | some v => h.answerVerb v (.fail .headLost)
         | none => h).settle)

/-- ACTIVATE_REJOIN_TIMEOUT: the head that an activation restarted has not rejoined within 60 s (R440): the activation ends,
its image is rejected. -/
def execActivateRejoinTimeout (s : State) : Host.Outcome State Fault Refusal :=
  s.run (fun h =>
    match h.pair.handoff with
    | some o =>
      if o.act && !o.mine && decide (5 ≤ o.step) && !h.pair.remir then
        let h := h.setPair { h.pair with handoff := none, fence := { h.pair.fence with peer := .absent } }
        let f := h.keys.fw
        let h := h.setFw (match f.slot f.other with
          | some x => f.setSlot f.other (some { x with rejected := true, staged := false })
          | none => f)
        (h.endActivation false).settle
      else h
    | none => h)

end Sys2Proof.Machine
end

