-- ==== Sys2Proof/Machine/Bands.lean ====
section
/-! DEFINITION. Bands and their fills (R234, R235, R245, R250-R257): a band is built and opened, bytes are staged for it, a fill takes what
is staged, reads what it changes, is journalled and programmed. -/

namespace Sys2Proof.Machine

/-- The head with its extents, its atomic slots replaced. -/
def Head.setExtents (h : Head) (l : List Extent) : Head := h.setRed { h.red with extents := l }
def Head.setAtoms (h : Head) (l : List ASlot) : Head := { h with vols := { h.vols with atoms := l } }

/-- Live lehr pages in percent of the lehr. -/
def Head.lehrFill (h : Head) : Nat := if h.lehrPages = 0 then 100 else (h.primaries + h.mirrors) * 100 / h.lehrPages

/-- The flash address of a byte of a stripe's data (R231). -/
def faddrOf (band stripe off : Nat) : Nat := (band <<< 44) + (stripe <<< 28) + ((off / 16) <<< 4)

/-! ## A band is built (R234, R245) -/

/-- The erase count of a block of a die. -/
def Die.count (d : Die) (b : Nat) : Nat := look 0 d.ec b

/-- For each die of a side with `planes` planes, its free block of the lowest erase count (`hi`: the highest), as (die,
block, count) in that order. -/
def Head.bestBlocks (h : Head) (side planes : Nat) (hi : Bool) (avoid : List Nat) : List (Nat × Nat × Nat) :=
  let l := ((h.sideDies side).filter (fun d => d.planes = planes && !(avoid.contains d.num))).filterMap (fun d =>
    let s := sortBy (fun b => d.count b) d.free
    match (if hi then s.getLast? else s.head?) with
    | some b => some (d.num, b, d.count b)
    | none => none)
  let s := sortBy (fun (x : Nat × Nat × Nat) => x.2.2) l
  if hi then s.reverse else s

/-- `n` members chosen in order: dies on distinct ports, in distinct groups as long as there are such. -/
def pickMembers (n : Nat) (l : List (Nat × Nat × Nat)) : Option (List (Nat × Nat)) :=
  let one := l.foldl (fun (acc : List (Nat × Nat)) x =>
    if acc.length < n && !(acc.any (fun y => dieGroup y.1 = dieGroup x.1)) then acc ++ [(x.1, x.2.1)] else acc) []
  let two := l.foldl (fun (acc : List (Nat × Nat)) x =>
    if acc.length < n && !(acc.any (fun y => diePort y.1 = diePort x.1)) then acc ++ [(x.1, x.2.1)] else acc) one
  if two.length = n then some two else none

/-- Free blocks of a side whose use would take from reservations of contracts (R96, R241). -/
def Head.onlyReserved (h : Head) (p : Pool) (side : Nat) : Bool :=
  decide (h.rawFree side < h.reservedSpace side + h.bandBytes p side)

/-- The number for a new band of a side: the lowest that no band has of those that are 2 × n + side (DESIGN CHOICE, log entry 94). -/
def Head.bandNumber (h : Head) (side : Nat) : Nat :=
  2 * ((upto (h.fl.bands.length + 1)).find? (fun k => (h.band (2 * k + side)).isNone)).getD 0 + side

/-- For whom a band is built: best-effort work, contracted data of a volume, a relocation that may borrow reserved blocks (R96, R242). -/
inductive BandFor where
  | best
  | data (vol : Nat)
  | borrow
deriving DecidableEq, Repr

/-- Blocks that a band takes for contracted data come from the reservation of the contract that names the volume (R96). -/
def Head.drawSpace (h : Head) (who : BandFor) (n : Nat) : Head :=
  match who with
  | .data v =>
    (match h.openContracts.find? (fun k => k.2.volume = v && decide (k.2.used < k.2.space)) with
     | some k => h.updContract k.1 (fun k => { k with used := min k.space (k.used + n) })
     | none => h)
  | _ => h

/-- Distinct ports with dies in service. -/
def Head.portsOf (h : Head) (side : Nat) : Nat :=
  ((h.sideDies side).foldl (fun (l : List Nat) d => if l.contains (diePort d.num) then l else diePort d.num :: l) []).length

/-- A new band of a pool on a side (R234): none where no die count allows it, or where it would be built from reserved blocks that are not
its own (R96). Of the PLANES values that do, the lowest is taken (DESIGN CHOICE, log entry 31). -/
def Head.buildBand (h : Head) (cls : BClass) (p : Pool) (side : Nat) (who : BandFor) (hi : Bool) (avoid : List Nat) : Option (Head × Nat) :=
  if who = .best && h.onlyReserved p side then none
  else
    match [2, 3, 4, 5, 6].findSome? (fun k => (pickMembers (p.w + p.p) (h.bestBlocks side k hi avoid)).map (fun m => (k, m))) with
    | none => none
    | some (k, ms) =>
      let rows := ms.foldl (fun n m => match h.die m.1 with | some d => min n d.rows | none => n) 65536
      let b : Band :=
        { num := h.bandNumber side, side := side, pool := p.num, cls := cls, members := ms, w := p.w, p := p.p, planes := k
          rows := rows, isOpen := true, closed := false, order := 0, stripes := [], fills := [], wseq := 0, cells := []
          lost := [], refresh := false, rebuild := false, stage := [], filling := none }
      let took := sum (ms.map (fun m => match h.die m.1 with | some d => d.block | none => 0))
      let h := ms.foldl (fun h m => h.updDie m.1 (fun d => { d with free := d.free.filter (fun x => x ≠ m.2) })) h
      let h := h.setFl { h.fl with
        bands := h.fl.bands ++ [b], unsync := h.fl.unsync.erase b.num
        pools := h.fl.pools.map (fun q => if q.num = p.num then { q with built := true } else q) }
      some (((h.drawSpace who took).space), b.num)

/-- The open band of a class that takes a pool side's items, built where there is none. -/
def Head.openBand (h : Head) (cls : BClass) (pool side : Nat) (who : BandFor) (avoid : List Nat) : Option (Head × Nat) :=
  match h.fl.bands.find? (fun b => b.isOpen && b.cls = cls && b.pool = pool && b.side = side && b.lost.isEmpty) with
  | some b => some (h, b.num)
  | none => (h.pool pool).bind (fun p => if p.deleting then none else h.buildBand cls p side who false avoid)

/-- Items are put to be placed by a band. -/
def Head.stageIn (h : Head) (n : Nat) (l : List Staged) : Head := h.updBand n (fun b => { b with stage := b.stage ++ l })

/-! ## Spill sets (R291, R296) -/

/-- Bits of a cell of a family, by its read levels (DEDUCED, log entry 22). -/
def Family.bits (f : Family) : Nat := if f.levels ≤ 1 then 1 else if f.levels ≤ 3 then 2 else if f.levels ≤ 7 then 3 else 4

/-- Bytes that a block of a die gives to a spill band: one bit of each cell in SLC mode, all where SLCPFX is not valid (R291). -/
def Head.spillBlock (h : Head) (d : Nat) : Nat :=
  match h.die d, h.family d with
  | some x, some f => if f.flags.getLsbD 3 then x.block / f.bits else x.block
  | some x, none => x.block
  | none, _ => 0

/-- User bytes of a set: 31 members of each band. -/
def Head.setBytes (h : Head) (l : List (List (Nat × Nat))) : Nat :=
  sum (l.map (fun b => 31 * (b.map (fun m => h.spillBlock m.1)).foldl min (2 ^ 40)))

/-- A set is whole: 1,024 × SIZE / 2 + 1,024 MiB at least, and a member on every port of the side (R291). -/
def Head.setWhole (h : Head) (side : Nat) (l : List (List (Nat × Nat))) : Bool :=
  decide ((512 * h.lehrSize + 1024) * 1048576 ≤ h.setBytes l) &&
    (h.sideDies side).all (fun d => l.any (fun b => b.any (fun m => diePort m.1 = diePort d.num)))

/-- One more band of a set: 32 members on distinct ports, first those that the set has no member on, of the least worn blocks. -/
def Head.spillBand (h : Head) (side : Nat) (l : List (List (Nat × Nat))) : Option (List (Nat × Nat)) :=
  let new := fun (x : Nat × Nat × Nat) => !(l.any (fun b => b.any (fun m => diePort m.1 = diePort x.1)))
  [2, 3, 4, 5, 6].findSome? (fun k =>
    let c := h.bestBlocks side k false []
    pickMembers 32 (c.filter new ++ c.filter (fun x => !(new x))))

/-- Blocks that are a side's no more to give away. -/
def Head.takeBlocks (h : Head) (l : List (Nat × Nat)) : Head :=
  l.foldl (fun h m => h.updDie m.1 (fun d => { d with free := d.free.filter (fun b => b ≠ m.2) })) h

/-- A set is built, or grown to the lehr's size: bands until it is whole, nothing where the side's free blocks do not reach. -/
def Head.growSet (side k : Nat) : Nat → Head → Option Head
  | 0, _ => none
  | n + 1, h =>
    let x := (h.pair.spill.at side).blocks
    let l := x.bands.at k
    if h.setWhole side l then some h
    else match h.spillBand side l with
      | none => none
      | some b => Head.growSet side k n ((h.takeBlocks b).setSets side { x with bands := x.bands.put k (l ++ [b]) })

/-- The spill sets of a side are built (R291). -/
def Head.buildSets (h : Head) (side : Nat) : Head :=
  if h.portsOf side < 32 then h
  else (upto 2).foldl (fun h k => if (h.pair.spill.at side).blocks.used.at k then h else (Head.growSet side k 4096 h).getD h) h

/-- A band of a set that holds nothing has each member whose die is not in service, or whose block is retired, replaced where a port has
another (DESIGN CHOICE, log entry 22). -/
def Head.mendBand (h : Head) (side : Nat) (b : List (Nat × Nat)) : Head × List (Nat × Nat) :=
  b.foldl (fun (acc : Head × List (Nat × Nat)) m =>
    if (acc.1.die m.1).any (fun d => d.state = .inService && !(d.bad.contains m.2)) then (acc.1, acc.2 ++ [m])
    else
      let taken := (b.filter (fun x => x ≠ m) ++ acc.2).map (fun x => diePort x.1)
      match ([2, 3, 4, 5, 6].flatMap (fun k => acc.1.bestBlocks side k false [])).find? (fun x => !(taken.contains (diePort x.1))) with
      | some x => (acc.1.takeBlocks [(x.1, x.2.1)], acc.2 ++ [(x.1, x.2.1)])
      | none => (acc.1, acc.2 ++ [m])) (h, [])

/-- A written set that holds no page any more is erased (R296); one that holds nothing is mended. -/
def Head.tendSets (h : Head) (side : Nat) : Head :=
  let s := h.pair.spill.at side
  if !(h.serves side) || h.spilling || s.rcd ≠ 0 then h
  else (upto 2).foldl (fun h k =>
    let s := h.pair.spill.at side
    let l := s.blocks.bands.at k
    if s.blocks.used.at k then
      if !((s.setPages k).isEmpty) then h
      else
        let ms := l.flatten.filter (fun m => (h.die m.1).any (fun d => d.state = .inService))
        let h := h.setSets side { s.blocks with used := s.blocks.used.put k false, left := s.blocks.left ++ ms }
        ms.foldl (fun h m => h.nand (.erase m.1 m.2 none) false) h
    else
      let x := l.foldl (fun (acc : Head × List (List (Nat × Nat))) b =>
        let y := acc.1.mendBand side b
        (y.1, acc.2 ++ [y.2])) (h, [])
      if x.2 = l then h else x.1.setSets side { s.blocks with bands := s.blocks.bands.put k x.2 }) h

/-- The erase of a block of a spill set is over: the block stays the set's. -/
def Head.setErased (h : Head) (die block : Nat) : Head :=
  let side := dieSide die
  let x := (h.pair.spill.at side).blocks
  if x.left.contains (die, block) then
    (h.takeBlocks [(die, block)]).setSets side { x with left := x.left.filter (fun m => m ≠ (die, block)) }
  else h

/-! ## The stripe journal and the bitmap (R255-R257) -/

/-- Regions that the member blocks of a band cover (R257). -/
def Head.regions (h : Head) (b : Band) : List Nat :=
  b.members.filterMap (fun m => (h.die m.1).map (fun d => 512 * m.1 + m.2 * d.block / 2 ^ 30))

/-- The dirty-region bits of a band set, in both PSTOREs. -/
def Head.setBits (h : Head) (b : Band) : Head :=
  (h.regions b).foldl (fun h r =>
    let l := h.fl.bitmap.at b.side
    if l.contains r then h
    else (h.setFl { h.fl with bitmap := h.fl.bitmap.put b.side (insertNat r l) }).record' (.bitmap b.side r true)) h

/-- A stripe-journal record written and mirrored; state 0 frees it. -/
def Head.sjWrite (h : Head) (r : SJRec) : Head × Option Nat :=
  let rest := h.fl.jour.filter (fun x => !(x.side = r.side && x.band = r.band && x.row = r.row))
  (h.setFl { h.fl with jour := if r.st = 0 then rest else rest ++ [r] }).record
    (.stripe r.side 0 r.band r.stripe r.row r.st r.mask r.wseq)

/-- Records of a side's stripe journal beyond which it closes a band: 75 % of 262,144 (R255). -/
def sjLimit : Nat := 196608

/-- An open band that the head closes because the stripe journal is full beyond its limit: the one with the most records (R255). -/
def Head.crowded (h : Head) (b : Band) : Bool :=
  let mine := h.fl.jour.filter (fun r => r.side = b.side)
  let n := fun (k : Nat) => mine.countP (fun r => r.band = k)
  decide (sjLimit < mine.length) && (h.fl.bands.filter (fun x => x.isOpen && x.side = b.side)).all (fun x => decide (n x.num ≤ n b.num))

/-! ## Fills begin (R250-R254) -/

/-- The part of ranges of bytes that lies in [lo, lo + n), seen from lo. -/
def cutRanges (l : List (Nat × Nat)) (lo n : Nat) : List (Nat × Nat) :=
  (l.map (fun r => (max r.1 lo - lo, min (r.1 + r.2) (lo + n) - max r.1 lo))).filter (fun r => decide (0 < r.2))

/-- At most `n` bytes from the front of what is staged, placed from byte `off` of stripe `st`; what is left. -/
def takeStage (st : Nat) (live : Bool) : Nat → Nat → List Staged → List Placed × List Staged
  | _, _, [] => ([], [])
  | n, off, x :: r =>
    if n = 0 then ([], x :: r)
    else if x.bytes.length ≤ n then
      let y := takeStage st live (n - x.bytes.length) (off + x.bytes.length) r
      (⟨st, off, x.bytes, x.item, x.bad, live⟩ :: y.1, y.2)
    else ([⟨st, off, x.bytes.take n, x.item, cutRanges x.bad 0 n, live⟩],
      { x with bytes := x.bytes.drop n, bad := cutRanges x.bad n (x.bytes.length - n) } :: r)

/-- The positions that bytes [off, off + n) of a stripe's data and the parity take, as a mask. -/
def Band.mask (b : Band) (off n : Nat) : Nat :=
  sum (((upto (b.w + b.p)).filter (fun m =>
    decide (b.w ≤ m) || (decide (0 < n) && decide (off / b.unit ≤ m) && decide (m ≤ (off + n - 1) / b.unit)))).map (fun m => 2 ^ m))

/-- What a fill reads first (R252 step 1): the units it changes that are written already, and the parity. -/
def Band.oldCws (b : Band) (f : Fill) : List (Nat × Nat × Nat) :=
  ((upto (b.w + b.p)).filter (fun m => bit f.mask m && (b.rowOf f.stripe m).isSome)).flatMap (fun m =>
    (upto b.cws).map (fun cw => (f.stripe, m, cw)))

/-- What a fill places belongs to a contract. -/
def Head.fillCon (h : Head) (b : Band) (f : FillOp) : Bool :=
  f.placed.any (fun x => match x.item with
    | .chunk c => h.red.extents.any (fun e => e.con && e.side = b.side && e.chunks.any (fun k => k.st = .staged c))
    | .page _ => false)

/-- A fill begins (R252): what it changes is read. -/
def Head.beginFill (h : Head) (n : Nat) (f : Fill) (placed : List Placed) (left : List Staged) (full summary : Bool) : Head :=
  match h.band n with
  | none => h
  | some b =>
    let op : FillOp := ⟨f, b.wseq + 1, .reading, b.members.map (fun m => m.1), false, placed, full, summary⟩
    let h := h.updBand n (fun b => { b with stage := left, filling := some op })
    if full || summary then h else h.ask (.fill n) n (b.oldCws f) (h.fillCon b op)

/-- What a fill reads has come: the bits of its regions, its WRITING record; the row is programmed once that is in both PSTOREs (R252,
R257). -/
def Head.writeFill (h : Head) (b : Band) (f : FillOp) : Head :=
  let h := (h.unask (.fill b.num)).setBits b
  let x := h.sjWrite ⟨b.side, b.num, f.fill.stripe, f.fill.row, 1, f.fill.mask, f.wseq⟩
  x.1.updBand b.num (fun b => { b with filling := some { f with st := .writing x.2 } })

/-- The next fill of a band from what is staged: a full fill where a whole stripe is staged and the tail is empty, else,
where `force` or where it completes the tail, a fill of the tail; the fill that closes a band in its turn. -/
def Head.fill (h : Head) (n : Nat) (force : Bool) : Head :=
  match h.band n with
  | none => h
  | some b =>
    if !b.isOpen || b.filling.isSome || !(h.serves b.side) then h
    else if b.mustClose || h.crowded b then
      h.beginFill n ⟨b.tail.1, b.rows - 1, 2 ^ (b.w + b.p) - 1⟩ [] b.stage false true
    else
      let t := b.tail
      let room := b.span - t.2
      let k := min b.staged room
      if k = 0 || (!force && decide (k < room)) then h
      else
        let x := takeStage t.1 (b.cls ≠ .gc) k t.2 b.stage
        let full := t.2 = 0 && k = b.span
        h.beginFill n ⟨t.1, b.fills.length, if full then 2 ^ (b.w + b.p) - 1 else b.mask t.2 k⟩ x.1 x.2 full false

/-- A program of a member has ended, well or not: with the last the record of the fill becomes DONE or DISCARD. -/
def Head.memberDone (h : Head) (n die : Nat) (ok : Bool) : Head :=
  match h.band n with
  | none => h
  | some b =>
    match b.filling with
    | none => h
    | some f =>
      let left := f.left.erase die
      let bad := f.failed || !ok
      if left.isEmpty then
        let x := h.sjWrite ⟨b.side, n, f.fill.stripe, f.fill.row, if bad then 3 else 2, f.fill.mask, f.wseq⟩
        x.1.updBand n (fun b => { b with filling := some { f with left := [], failed := bad, st := .ending x.2 (!bad) } })
      else h.updBand n (fun b => { b with filling := some { f with left := left, failed := bad } })

/-- The programs of a fill start: every member's row, blank ones too (R250); that of a die no longer in service fails. -/
def Head.program (h : Head) (b : Band) (f : FillOp) : Head :=
  let con := h.fillCon b f
  let h := h.updBand b.num (fun b => { b with filling := some { f with st := .programming } })
  b.members.foldl (fun h m =>
    if (h.die m.1).any (fun d => d.state = .inService) then h.nand (.program m.1 b.num f.fill.row) con else h.memberDone b.num m.1 false) h

/-! ## Space debits (R241, R242) -/

/-- The debit of a pool side that lost space: what free space does not cover is taken from the GC spare, down to one band. WORN where
nothing is left to take (R242). -/
def Head.debit (h : Head) (pool side : Nat) : Head :=
  match h.pool pool with
  | none => h
  | some p =>
    let f := h.freeSpace p side
    let most := (h.cfg .NFGC 0 47 32 - 1) * h.bandBytes p side
    let d := p.debit.at side
    if f < 0 then
      let short := (-f).toNat
      let worn := decide (most < d + short)
      let h := h.setFl { h.fl with pools := h.fl.pools.map (fun q =>
        if q.num = pool then { q with debit := q.debit.put side (min most (d + short)), worn := if worn then q.worn.put side true else q.worn } else q) }
      if worn && !(p.worn.at side) then h.event 0x0605 2 255 5 pool 0 0 0 else h
    else h

/-- A block is retired (R235); its loss is debited from a pool side. -/
def Head.retire (h : Head) (die block pool side : Nat) : Head :=
  (((h.updDie die (fun d => { d with
    bad := if d.bad.contains block then d.bad else d.bad ++ [block], free := d.free.filter (fun b => b ≠ block) })).count .NFCNT 7 1).debit
    pool side).space

end Sys2Proof.Machine
end

