-- ==== Sys2Proof/Machine/Extents.lean ====
section
/-! DEFINITION. Destage of extents (R171-R175, R180-R188, R192, R195, R230-R232, R298): chunks are cut, looked up in the hot and the cold
index, granted or compressed in a gather slot, put on flash; then the map entries of the extent are written, and what it held is released. -/

namespace Sys2Proof.Machine

/-! ## Chunking (R175) -/

/-- One byte of the gear hash: the hash, the chunk's length so far, the lengths cut, newest first. -/
def Gear.next (g : Gear) (s : Word × Nat × List Nat) (b : Byte) : Word × Nat × List Nat :=
  let x := (s.1 <<< 1) + nth 0 g.gear b.toNat
  let n := s.2.1 + 1
  let mask := if n < g.normlen then g.masks else g.maskl
  if g.maxlen ≤ n ∨ (g.minlen ≤ n ∧ x &&& mask = 0) then (0, 0, n :: s.2.2) else (x, n, s.2.2)

/-- The lengths of the chunks of an extent, in order (R175). -/
def Gear.cut (g : Gear) (l : List Byte) : List Nat :=
  let s := l.foldl g.next (0, 0, [])
  (if s.2.1 = 0 then s.2.2 else s.2.1 :: s.2.2).reverse

/-! ## The hot and the cold index (R181-R186) -/

/-- The hot bucket of a fingerprint. -/
def bucketOf (fp : List Byte) : Nat :=
  let f := fun k => (nth 0 fp k).toNat
  f 0 * 2 ^ 18 + f 1 * 2 ^ 10 + f 2 * 4 + f 3 / 64

/-- Epochs since an index entry was last inserted or hit. -/
def Head.ageOf (h : Head) (e : IdxEntry) : Nat := (h.work.epochs + 4294967296 - e.age) % 4294967296

/-- An entry put into the hot index: the first way without one, else the way with the oldest AGE, which leaves; where it
is not in the cold index it waits to be written there (R186). -/
def Head.hotInsert (h : Head) (e : IdxEntry) : Head :=
  let b := bucketOf e.fp
  let ways := h.red.hot.filter (fun w => w.bucket = b)
  match (upto 8).find? (fun k => !(ways.any (fun w => w.way = k))) with
  | some k => h.setRed { h.red with hot := h.red.hot ++ [⟨b, k, e⟩] }
  | none =>
    match (sortBy (fun (w : HotWay) => w.way) ways).foldl (fun (o : Option HotWay) w => match o with
      | none => some w
      | some v => if h.ageOf v.e < h.ageOf w.e then some w else some v) none with
    | none => h
    | some v =>
      h.setRed { h.red with
        hot := h.red.hot.map (fun w => if w.bucket = b && w.way = v.way then ⟨b, v.way, e⟩ else w)
        evicted := if v.e.c then h.red.evicted
          else h.red.evicted ++ [(v.e.pool, bits v.e.cref.toNat 61 61, v.e)] }

/-- An entry written to its page of the cold index (R184): a free entry, in a full page the valid one with the oldest AGE; the page is
written anew (R233). -/
def Head.coldInsert (h : Head) (pool side : Nat) (e : IdxEntry) : Head :=
  match h.pool pool with
  | none => h
  | some p =>
    let b := bucketOf e.fp
    let n := b >>> (26 - p.cidxk)
    let is := fun (x : ColdPage) => x.pool = pool && x.side = side && x.page = n
    let old := match h.red.cold.find? is with | some x => x.ents | none => []
    let at' : Nat := match (upto 63).find? (fun k => !(old.any (fun x => x.1 = k && x.2.v))) with
      | some k => k
      | none =>
        match old.foldl (fun (o : Option (Nat × IdxEntry)) x => match o with
          | none => some x
          | some v => if h.ageOf v.2 < h.ageOf x.2 then some x else some v) none with
        | some x => x.1
        | none => 0
    let rest : Sparse IdxEntry := old.filter (fun x => x.1 != at')
    let ents := sortBy (fun (x : Nat × IdxEntry) => x.1) (rest ++ [(at', { e with c := false })])
    (h.setRed { h.red with
      cold := h.red.cold.filter (fun x => !(is x)) ++ [⟨pool, side, n, ents⟩]
      coldB := if h.red.coldB.contains b then h.red.coldB else b :: h.red.coldB }).soil (.cold pool n) side

/-- Evicted entries of a side written to the cold index as best-effort work. -/
def Head.coldFlush (h : Head) (side : Nat) : Head :=
  let mine := h.red.evicted.filter (fun x => x.2.1 = side)
  let h := h.setRed { h.red with evicted := h.red.evicted.filter (fun x => x.2.1 ≠ side) }
  mine.foldl (fun h x => h.coldInsert x.1 side x.2.2) h

/-- The hot entry of a fingerprint in a dedupe domain. -/
def Head.hotFind (h : Head) (pool side : Nat) (fp : List Byte) : Option HotWay :=
  h.red.hot.find? (fun w => w.bucket = bucketOf fp && w.e.fp = fp && w.e.pool = pool && bits w.e.cref.toNat 61 61 = side)

/-- COLD of a bucket: set, or the page that holds the bucket not yet read for some domain served (R183). -/
def Head.coldBit (h : Head) (b : Nat) : Bool :=
  h.red.coldB.contains b || h.red.unread.any (fun x =>
    match h.pool x.1 with | some p => !(x.2.2.contains (b >>> (26 - p.cidxk))) | none => false)

/-- A cold lookup or a compare read may be made now (R185, R188): a token is left and the lehr is below 75 %. -/
def Head.mayLook (h : Head) : Bool := decide (h.red.clook < h.cfg .DRLIM 0 10 0) && decide (h.lehrFill < 75)

/-- A token of the epoch is used. -/
def Head.useLook (h : Head) : Head := h.setRed { h.red with clook := h.red.clook + 1 }

/-- The AGE of the hot entries of a chunk set to the present epoch. -/
def Head.ageHot (h : Head) (cref : Word) : Head :=
  h.setRed { h.red with hot := h.red.hot.map (fun (w : HotWay) =>
    if w.e.cref = cref then { w with e := { w.e with age := h.work.epochs % 2 ^ 32 } } else w) }

/-! ## Grants (R180, R185, R187, R188) -/

/-- A field of DRCFG as it stood when the extent was chunked (R206). -/
def Extent.fld (e : Extent) (hi lo : Nat) : Nat := bits e.cfg hi lo

/-- A chunk that R180 lets be deduplicated. -/
def Extent.dedupable (e : Extent) (c : Chunk) : Bool :=
  e.fld 63 63 = 1 && decide (e.fld 18 0 ≤ c.len) && !c.pois

/-- The flash translation layer is asked for a reference (R187): none where the chunk is gone or has reached its limit. -/
def Head.grant (h : Head) (cref : Word) (full : Bool) : Head × Bool :=
  match h.chunk cref.toNat with
  | none => (h, false)
  | some c =>
    if full || maxRefs ≤ c.refs then (h.count .DRCNT 10 1, false) else ((h.addRef cref.toNat).ageHot cref, true)

/-- A chunk is unique (R185): its container is RAW at once, or a gather compresses it (R172, R174, R192). -/
def Head.unique (h : Head) (e : Extent) (c : Chunk) : Head × Chunk :=
  (h.count .DRCNT 4 1,
    if c.pois || e.fld 61 60 = 0 then { c with st := .packed, cont := container 0 0 (fun _ => none) c.data c.fp c.pois }
    else { c with st := .unique, cont := [] })

/-- A chunk's hit is used (R185, R188): granted at once, or the stored chunk is read for comparison; else it is unique. -/
def Head.hit (h : Head) (e : Extent) (i : Nat) (c : Chunk) (x : IdxEntry) : Head × Chunk :=
  if e.fld 62 62 = 1 && !x.full then
    if h.mayLook then (h.useLook.askChunks (.compare e.id i) [x.cref.toNat] false, { c with st := .verifying x.cref })
    else (h.count .DRCNT 3 1).unique e c
  else
    let y := h.grant x.cref x.full
    if y.2 then (y.1, { c with st := .dup x.cref, cont := [] }) else y.1.unique e c

/-- Where a chunk goes (R185): a duplicate, a lookup in the cold index, or unique. -/
def Head.lookup (h : Head) (pool : Nat) (e : Extent) (i : Nat) (c : Chunk) : Head × Chunk :=
  if !(e.dedupable c) then h.unique e c
  else
    match h.hotFind pool e.side c.fp with
    | some w => (h.count .DRCNT 1 1).hit e i c w.e
    | none =>
      if !(h.coldBit (bucketOf c.fp)) then h.unique e c
      else if h.mayLook then (h.useLook, { c with st := .looking })
      else (h.count .DRCNT 3 1).unique e c

/-! ## An extent begins (R168, R171-R175) -/

/-- The lehr page that holds byte `o` of a write carries poison there (R168). -/
def Head.lehrPois (h : Head) (w : VWrite) (o : Nat) : Bool :=
  let k := w.first.2 + (o - w.first.1)
  match (w.pages[k / 65536]?).bind h.page with
  | some p => p.pois.contains (k % 65536 / 4096)
  | none => false

/-- A byte of a volume, as of an epoch, stands in the lehr under poison. -/
def Head.bytePois (h : Head) (v e o : Nat) : Bool :=
  match (h.vol v).bind (fun x => x.writes.find? (fun w => decide (w.epoch ≤ e) && decide (w.off ≤ o) && decide (o < w.off + w.len))) with
  | some w => !w.done && h.lehrPois w o
  | none => false

/-- Bytes of a volume as of an epoch, read from the lehr and, for a unit destaged afresh, from flash, each with its poison; what a
poisoned byte reads as is free. Poison of one lehr copy alone is passed
by, in the other copy; whether the peer's copy carries it too is free (R168). -/
def Head.extentBytes (h : Head) (v e off n : Nat) : Head × List (Byte × Bool) :=
  let y := h.readWhole (.afresh v off) v e off n
  let h := y.1
  let both := !(h.mirroring && Config.freeBool h.fresh)
  let x := h.tick.random n
  (x.1, List.zipWith (fun (b : Option Byte × Bool) f => match b.1 with
    | some c => if both && b.2 then (f, true) else (c, false)
    | none => (f, true)) (y.2.zip ((upto n).map (fun i => h.bytePois v e (off + i)))) x.2)

/-- A run of bytes cut at lengths. -/
def cutRun {α : Type} : List Nat → List α → List (List α)
  | [], _ => []
  | n :: r, l => l.take n :: cutRun r (l.drop n)

/-- The poisoned bytes of a run, as ranges of whole granules of the volume (R174). -/
def poisRanges (off : Nat) (l : List (Byte × Bool)) : List (Nat × Nat) :=
  ((l.zip (upto l.length)).filter (fun x => x.1.2)).foldl (fun (acc : List (Nat × Nat)) x =>
    let g := (off + x.2) / 4096 * 4096
    let lo := max g off - off
    addRange acc lo (min (g + 4096) (off + l.length) - off - lo)) []

/-- A chunk drawn up: its bytes and fingerprint (R174, R179). -/
def drawChunk (off : Nat) (l : List (Byte × Bool)) : Chunk :=
  let b := l.map (fun x => x.1)
  let bad := poisRanges off l
  { off := off, len := b.length, data := b, fp := if bad.isEmpty then Sha.sha256 b else List.replicate 32 0, bad := bad, cont := [], st := .cut }

/-- The head with a chunk of an extent replaced. -/
def Head.setChunk (h : Head) (ext i : Nat) (c : Chunk) : Head :=
  h.setExtents (h.red.extents.map (fun (e : Extent) => if e.id = ext then { e with chunks := e.chunks.set i c } else e))

/-- Destage of an extent starts (R171): its chunks are cut and looked up in their order. -/
def Head.startExtent (h : Head) (v : Volume) (off len e : Nat) (srcs : List (Nat × Nat)) : Head :=
  let x := h.extentBytes v.num e off len
  let h := x.1
  let runs := cutRun (h.red.gear.cut (x.2.map (fun y => y.1))) x.2
  let cs := ((runs.foldl (fun (acc : List Chunk × Nat) r => (drawChunk acc.2 r :: acc.1, acc.2 + r.length)) ([], off)).1).reverse
  let con := (srcs.filterMap (fun s => (h.jour s.1).get s.2)).any (fun r => r.con)
  let ext : Extent :=
    { id := h.red.nextExt, vol := v.num, off := off, len := len, epoch := e, side := v.home, cfg := h.cfg .DRCFG v.pool 63 0, con := con
      chunks := cs, since := h.now, srcs := srcs, tag := none }
  let h := (h.count .DRCNT 0 cs.length).count .DRCNT 6 len
  let h := h.setRed { h.red with nextExt := h.red.nextExt + 1, extents := h.red.extents ++ [ext] }
  (upto cs.length).foldl (fun h i => match cs[i]? with
    | some c => let y := h.lookup v.pool ext i c; y.1.setChunk ext.id i y.2
    | none => h) h

/-! ## Chunks move on (R172, R188, R202) -/

/-- A gather slot that nothing uses. -/
def Head.gatherFree (h : Head) (s : Nat) : Bool :=
  !(h.red.extents.any (fun e => e.chunks.any (fun c => c.st = .packing s))) && !(h.gatherLive s)

/-- The gather slot for a chunk (R172): that of a stream whose writes its extent destages, else the lowest free one of an unbound
stream number. -/
def Head.pickSlot (h : Head) (streams : List Nat) : Option Nat :=
  match streams.find? (fun s => h.gatherFree s) with
  | some s => some s
  | none => (upto 65536).find? (fun s => !(h.work.streams.any (fun e => e.1 % 65536 = s && e.2 ≠ 0)) && h.gatherFree s)

/-- The streams whose writes an extent destages. -/
def Head.extStreams (h : Head) (e : Extent) : List Nat :=
  ((e.srcs.filterMap (fun s => (h.jour s.1).get s.2)).filter (fun r => r.ord)).map (fun r => r.stream)

/-- A chunk whose stored twin has been read (R188): granted where both give the same bytes, else unique. -/
def Head.compared (h : Head) (e : Extent) (i : Nat) (c : Chunk) (r : Word) : Head × Chunk :=
  let x := h.openAll (.compare e.id i) [r.toNat]
  let h := x.1.unask (.compare e.id i)
  if (x.2.head?).map (fun y => y.2) = some (.bytes c.data) then
    let y := h.grant r false
    if y.2 then (y.1, { c with st := .dup r, cont := [] }) else y.1.unique e c
  else h.unique e c

/-- A chunk moves on: a unique one takes a gather slot and asks a compression unit, a whole container is staged in an open band, a
comparison goes on when its reads have come. -/
def Head.chunkStep (h : Head) (pool : Nat) (e : Extent) (i : Nat) (c : Chunk) : Head × Bool :=
  match c.st with
  | .unique =>
    (match h.pickSlot (h.extStreams e) with
     | none => (h, false)
     | some s =>
       (((h.setGslot s (some (GSlot.start 0 (e.fld 61 60) (e.fld 59 56) 0))).setChunk e.id i { c with st := .packing s, cont := [] }).unitJoin 0
         ⟨.pack e.id i, s, 0, 0, 0, 0⟩, true))
  | .packed =>
    (match h.openBand .data pool e.side (if e.con then .data e.vol else .best) [] with
     | none => (h, false)
     | some (h, n) =>
       let k := h.fl.nextChunk.at e.side + 1
       let h := (h.setFl { h.fl with nextChunk := h.fl.nextChunk.put e.side k }).stageIn n [⟨.chunk k, c.cont, c.bad.map (fun r => (48 + r.1, r.2))⟩]
       let h := if isRaw c.cont then h.count .DRCNT 5 1 else h
       (h.setChunk e.id i { c with st := .staged k }, true))
  | .verifying r =>
    let who := Reader.compare e.id i
    if !(h.gotAll who) || h.unpacking who then (h, false)
    else
      let n := h.unpackBytes [r.toNat]
      if 0 < n then (h.unpackAsk who n, true)
      else
        let y := h.compared e i c r
        (y.1.setChunk e.id i y.2, true)
  | _ => (h, false)

/-! ## Extents whose chunks are ready (R186, R231, R232, R298) -/

/-- A chunk of an extent needs nothing more before its map entry is written. -/
def Chunk.ready (c : Chunk) : Bool := match c.st with | .dup _ => true | .stored _ => true | _ => false

/-- Every chunk of an extent is ready. -/
def Extent.ready (e : Extent) : Bool := e.chunks.all Chunk.ready

/-- Writes of a volume that an extent covers. -/
def Extent.covers (e : Extent) (w : VWrite) : Bool := !w.done && w.epoch = e.epoch && w.data ≠ .zeros && e.srcs.contains w.src && meets (e.off, e.len) (w.off, w.len)

/-- The part of a write within [lo, hi). -/
def VWrite.part (w : VWrite) (lo hi : Nat) : VWrite :=
  let a := max w.off lo
  let n := min (w.off + w.len) hi - a
  { w with off := a, len := n, data := match w.data with | .bytes b => .bytes ((b.drop (a - w.off)).take n) | d => d }

/-- Ranges without the part of them that another range takes. -/
def lessRange (l : List (Nat × Nat)) (r : Nat × Nat) : List (Nat × Nat) :=
  (l.flatMap (fun x => [(x.1, min (x.1 + x.2) r.1 - x.1), (max x.1 (r.1 + r.2), x.1 + x.2 - max x.1 (r.1 + r.2))])).filter (fun x => decide (0 < x.2))

/-- The ranges of an extent that its map entries give: not the units that are to be destaged afresh (R230). -/
def Head.mapped (h : Head) (e : Extent) : List (Nat × Nat) :=
  (h.vols.afresh.filter (fun x => x.vol = e.vol)).foldl (fun l x => lessRange l (x.off, x.len)) [(e.off, e.len)]

/-- A write whose bytes in some ranges are on flash: its parts, those within them destaged. -/
def VWrite.destaged (w : VWrite) (rs : List (Nat × Nat)) : List VWrite :=
  let rest := rs.foldl lessRange [(w.off, w.len)]
  ((rs.map (fun (r : Nat × Nat) => ({ w.part r.1 (r.1 + r.2) with done := true } : VWrite))) ++ rest.map (fun (r : Nat × Nat) => w.part r.1 (r.1 + r.2))).filter (fun x => decide (0 < x.len))

/-- Atomic slots whose writes an extent holds bytes of (R298). -/
def Head.atomsOf (h : Head) (e : Extent) : List ASlot :=
  h.vols.atoms.filter (fun a => a.vol = e.vol && a.state ≠ .opened && meets (e.off, e.len) (a.off, a.len) &&
    (match h.vol e.vol with
     | some v => v.writes.any (fun w => w.src = (a.side, a.seq) && e.covers w)
     | none => false))

/-- Every byte of an atomic write that is not destaged lies in a ready extent (R298: no delta before every container is on
flash). -/
def Head.atomReady (h : Head) (a : ASlot) : Bool :=
  match h.vol a.vol with
  | none => true
  | some v => (v.writes.filter (fun w => w.src = (a.side, a.seq) && !w.done && meets (a.off, a.len) (w.off, w.len))).all (fun w =>
      let have_ := (h.red.extents.filter (fun e => e.ready && e.vol = a.vol && e.epoch = w.epoch)).foldl
        (fun l e => addRange l e.off e.len) []
      covered have_ w.off w.len)

/-- The extent may be mapped: its atomic writes are whole on flash, and no other atomic write that is being mapped shares a
unit with it (R298). -/
def Head.mayMap (h : Head) (e : Extent) : Bool :=
  let mine := h.atomsOf e
  e.tag.isNone && e.ready && mine.all (fun a => h.atomReady a) &&
    h.vols.atoms.all (fun a => a.state ≠ .mapping || mine.any (fun m => m.vid = a.vid) || a.vol ≠ e.vol ||
      !(meets (e.off / 16384 * 16384, ceilDiv (e.off + e.len) 16384 * 16384 - e.off / 16384 * 16384)
          (a.off / 16384 * 16384, ceilDiv (a.off + a.len) 16384 * 16384 - a.off / 16384 * 16384)))

/-- The tag of the newest mirrored frame: when it is acknowledged, everything mirrored before is in both PSTOREs. -/
def Head.lastTag (h : Head) : Option Nat :=
  if h.mirroring then some ((h.pair.link.mir.next + 4294967295) % 4294967296) else none

/-- The map entries of an extent are written (R305: born in the extent's epoch); the references its chunks held pass to
its recipes. -/
def Head.mapExtent (h : Head) (e : Extent) : Head :=
  match h.vol e.vol with
  | none => h.setExtents (h.red.extents.filter (fun x => x.id ≠ e.id))
  | some v =>
    let start := h.vols.ndelta.at e.side + 1
    let slots := h.atomsOf e
    let h := h.setAtoms (h.vols.atoms.map (fun a =>
      if slots.any (fun s => s.vid = a.vid) && a.state ≠ .mapping then { a with state := .mapping, start := start } else a))
    let h := (h.mapRange e.vol e.off e.epoch (e.chunks.map (fun c => (c.cref v.pool e.side, 0, c.len))) false).1
    let h := e.chunks.foldl (fun h c => (h.dropRef (c.cref v.pool e.side)).1) h
    let h := h.setAtoms (h.vols.atoms.map (fun a =>
      if slots.any (fun s => s.vid = a.vid) then { a with count := h.vols.ndelta.at e.side + 1 - a.start } else a))
    let h := slots.foldl (fun h s => match h.vols.atoms.find? (fun (a : ASlot) => a.vid = s.vid) with
      | some a => h.record' (.atomic a false)
      | none => h) h
    let tag := h.lastTag
    h.setExtents (h.red.extents.map (fun x => if x.id = e.id then { x with tag := some tag } else x))

/-- A write that passed its commit point before a DROP did is not destaged yet, or has not taken effect yet (R238). -/
def Head.dropNeeded (h : Head) (d : DropRec) : Bool :=
  h.vols.vols.any (fun v => v.num = d.vol &&
    (v.writes.dropWhile (fun w => !(w.data = .zeros && w.src = (d.side, d.seq) && w.off = d.off && w.len = d.len))).any
      (fun w => !w.done && w.data ≠ .zeros && meets (d.off, d.len) (w.off, w.len))) ||
  h.work.verbs.any (fun x => match x.op with
    | some p => p.vol = d.vol && p.cuts.contains (d.off, d.len)
    | none => false)

/-- The delta pairs of DROPs that no earlier write needs any more are retired (R238). -/
def Head.retireDrops (h : Head) : Head :=
  let gone := h.vols.drops.filter (fun d => !h.dropNeeded d)
  { h with vols := { h.vols with
    drops := h.vols.drops.filter h.dropNeeded
    deltas := h.vols.deltas.filter (fun x => !((x.typ = 5 || x.typ = 6) &&
      gone.any (fun d => x.key = (d.vol <<< 32) + d.seq % 2 ^ 32 && (x.typ ≠ 5 || x.val = d.off) && (x.typ ≠ 6 || x.val = d.len)))) } }

/-- The deltas of an extent are in both PSTOREs: its lehr pages and atomic slots are released, its unique chunks enter the hot index
(R186), drops that no earlier write needs any more are retired. -/
def Head.endExtent (h : Head) (e : Extent) : Head :=
  let rs := h.mapped e
  let pages : List Nat := match h.vol e.vol with
    | some v => ((v.writes.filter e.covers).map (fun w => (rs.map (fun (r : Nat × Nat) => w.part r.1 (r.1 + r.2))).flatMap (fun w => if w.len = 0 then [] else w.held))).flatten
    | none => []
  let h := h.updVol' e.vol (fun v => { v with writes := (v.writes.map (fun w => if e.covers w then w.destaged rs else [w])).flatten })
  let h := h.setExtents (h.red.extents.filter (fun x => x.id ≠ e.id))
  let slots := h.vols.atoms.filter (fun a => a.state = .mapping && a.vol = e.vol &&
    (match h.vol e.vol with
     | some v => !(v.writes.any (fun w => w.src = (a.side, a.seq) && !w.done && meets (a.off, a.len) (w.off, w.len)))
     | none => true))
  let h := slots.foldl (fun h a =>
    (h.setAtoms (h.vols.atoms.filter (fun x => x.vid ≠ a.vid))).record' (.atomic a true)) h
  let h := h.retireDrops
  let windows := (h.net.windows.map (fun (w : Window) => w.pages ++ (w.olds.map (fun g => g.pages)).flatten)).flatten
  let h := h.winDrop false (pages.filter (fun p => !(windows.contains p)))
  let pool := match h.vol e.vol with | some v => v.pool | none => 0
  e.chunks.foldl (fun (h : Head) (c : Chunk) => match c.st with
    | .stored n =>
      if !(e.dedupable c) then h
      else
        (match h.chunk (mkCref pool e.side n) with
         | some k => h.hotInsert ⟨c.fp, BitVec.ofNat 64 (mkCref pool e.side n), k.clen, c.len, true, false, false, pool, h.work.epochs % 2 ^ 32⟩
         | none => h)
    | _ => h) h

/-! ## Units destaged afresh, demotion (R230) -/

/-- Undone writes of a volume that hold bytes of a range. -/
def Volume.undone (v : Volume) (off len : Nat) : List VWrite :=
  v.writes.filter (fun w => !w.done && w.data ≠ .zeros && meets (off, len) (w.off, w.len))

/-- The sources of some writes, each once. -/
def srcsOf (ws : List VWrite) : List (Nat × Nat) :=
  ws.foldl (fun (l : List (Nat × Nat)) w => if l.contains w.src then l else l ++ [w.src]) []

/-- No extent of a volume meets a range. -/
def Head.rangeFree (h : Head) (vol off len : Nat) : Bool := !(h.red.extents.any (fun e => e.vol = vol && meets (e.off, e.len) (off, len)))

/-- A unit that waits to be destaged afresh is read from flash and begins as one extent (R230). -/
def Head.startAfresh (h : Head) (x : Afresh) : Head × Bool :=
  match h.vol x.vol with
  | none => ({ h with vols := { h.vols with afresh := h.vols.afresh.erase x } }, true)
  | some v =>
    let y := h.readStep (.afresh x.vol x.off) (pieceChunks (h.flashPieces x.vol x.epoch x.off x.len))
    if !(h.rangeFree x.vol x.off x.len && h.serves v.home && !v.deleting) then (h, false)
    else if !y.2 then (y.1, decide (h.fl.wants.length < y.1.fl.wants.length))
    else
      let h := y.1
      (({ h with vols := { h.vols with afresh := h.vols.afresh.erase x } }).startExtent v x.off x.len x.epoch
        (srcsOf ((v.undone x.off x.len).filter (fun w => w.epoch = x.epoch))), true)

/-- Fine blocks a head may have (R230). -/
def fineBudget : Nat := 33554432

/-- Units that small writes make due are promoted; beyond the budget the fine unit written least recently is demoted
(R230). -/
def Head.fineTurn (h : Head) (v off len : Nat) : Head :=
  let us := (upto ((off + len - 1) / 1048576 + 1 - off / 1048576)).map (fun k => off / 1048576 + k)
  let h := us.foldl (fun (h : Head) u =>
    let mine := h.vols.small.filter (fun x => x.1 = v && x.2.1 = u)
    if mine.length < h.cfg .NFCFG 0 31 24 then h
    else
      let h := { h with vols := { h.vols with small := h.vols.small.filter (fun x => !(x.1 = v && x.2.1 = u)) } }
      if h.isFine v u then h else h.promote v u) h
  if h.vols.fines.length ≤ fineBudget then h
  else
    match h.vols.fines.getLast? with
    | none => h
    | some x => if h.rangeFree x.1 (x.2 * 1048576) 1048576 then h.demote x.1 x.2 else h

/-- A byte of a volume was dropped after it was last written, as of an epoch (R238). -/
def Volume.dropped (v : Volume) (e o : Nat) : Bool :=
  match v.writes.find? (fun w => decide (w.epoch ≤ e) && decide (w.off ≤ o) && decide (o < w.off + w.len)) with
  | some w => w.data = .zeros
  | none => false

/-- One extent of a volume, inside a 4 MiB range, all of it written by final writes of one epoch and not yet destaged, begins. What was
dropped since is not written (R238). -/
def Head.destage (h : Head) (vol off len : Nat) : Head :=
  match h.vol vol with
  | none => h
  | some v =>
    if !h.working || h.spilling || h.handing v.home || !(h.serves v.home) || v.deleting || len = 0 || pastEnd off len ||
        off / 4194304 ≠ (off + len - 1) / 4194304 || !(h.rangeFree vol off len) then h
    else
      let ws := v.undone off len
      match ws.map (fun w => w.epoch) with
      | [] => h
      | a :: r =>
        let e := r.foldl min a
        let mine := ws.filter (fun w => w.epoch = e)
        let gone := (upto len).map (fun i => v.dropped e (off + i))
        if !(covered (mine.foldl (fun l w => addRange l w.off w.len) []) off len) then h
        else if gone.all (fun x => x) then
          h.endExtent { id := 0, vol := vol, off := off, len := len, epoch := e, side := v.home, cfg := 0, con := false, chunks := []
                        since := h.now, srcs := srcsOf mine, tag := none }
        else if gone.any (fun x => x) then h
        else (h.fineTurn vol off len).startExtent v off len e (srcsOf mine)

end Sys2Proof.Machine
end

