-- ==== Sys2Proof/Machine/Flash.lean ====
section
/-! DEFINITION. What has reached flash (R231, R232, R235, R253-R256), relocation by garbage-collection slots (R236, R237, R261-R263), the
flush of metadata pages (R232), deletion of pools (R225). `Head.flash` does everything that the present state allows. -/

namespace Sys2Proof.Machine

/-! ## What a fill has placed stands on flash (R231, R232, R253) -/

/-- A part of an item waits at a band, staged or in a fill in progress. -/
def Band.waits (b : Band) (i : Item) : Bool :=
  b.stage.any (fun x => x.item = i) || (match b.filling with | some f => f.placed.any (fun x => x.item = i) | none => false)

/-- Bytes of an item that stand in a band. -/
def Band.stored (b : Band) (i : Item) : Nat := sum ((b.pieces i).map (fun x => x.bytes.length))

/-- A metadata page of a side is on its way to flash. -/
def Head.pageBusy (h : Head) (side : Nat) (p : MPage) : Bool :=
  h.fl.bands.any (fun b => b.side = side && b.cls ≠ .gc && b.waits (.page p))

/-- A container is wholly on flash: its chunk-table entry, with one reference that its extent holds. One that no extent claims any more is
an orphan (R173). -/
def Head.chunkStored (h : Head) (b : Band) (c : Nat) : Head :=
  match h.red.extents.find? (fun e => e.side = b.side && e.chunks.any (fun k => k.st = .staged c)) with
  | none => h.updBand b.num (fun b => { b with cells := b.cells.map (fun x => if x.item = .chunk c then x.orphan else x) })
  | some e =>
    match e.chunks.find? (fun k => k.st = .staged c) with
    | none => h
    | some k =>
      let f := match (b.pieces (.chunk c)).head? with | some x => faddrOf b.num x.stripe x.off | none => 0
      let key := (b.pool <<< 40) + c
      let ent : ChunkEnt := ⟨b.pool, b.side, c, f, 1, k.cont.length, k.len, k.fp⟩
      let h := ((h.soil (.chunks b.pool (c / 256)) b.side).delta' 2 b.side 0 key f).delta' 3 b.side 0 key (ent.word 1)
      let h := h.setFl { h.fl with chunks := h.fl.chunks ++ [ent] }
      let h := h.setExtents (h.red.extents.map (fun x => if x.id = e.id then
        { x with chunks := x.chunks.map (fun y => if y.st = .staged c then { y with st := .stored c } else y) } else x))
      h.count .DRCNT 7 k.cont.length

/-- A metadata page is on flash: the directory names it there, its former place is dead, and with the last one the deltas that the pages
cover are retired (R232). -/
def Head.pageStored (h : Head) (b : Band) (p : MPage) : Head :=
  match (b.pieces (.page p)).getLast? with
  | none => h
  | some x =>
    let f := faddrOf b.num x.stripe x.off
    let h := h.delta' 4 b.side 0 p.key f
    let h := { h with vols := { h.vols with
      dirs := h.vols.dirs.filter (fun (y : MPage × Nat × Nat) => !(y.1 = p && y.2.1 = b.side)) ++ [(p, b.side, f)] } }
    let mine := h.vols.copies.filter (fun y => y.page = p && y.side = b.side)
    let h := match mine.find? (fun y => !y.stored) with
      | some y => { h with vols := { h.vols with copies := h.vols.copies.filter (fun (z : PageCopy) => !(mine.contains z)) ++ [{ y with stored := true }] } }
      | none => h
    let h := h.setFl { h.fl with bands := h.fl.bands.map (fun (y : Band) =>
      if y.side = b.side && y.pool = b.pool then
        { y with cells := y.cells.map (fun (z : Placed) => if z.item = .page p && !(y.num = b.num && z = x) then z.orphan else z) } else y) }
    h.retireClean b.side (h.pageBusy b.side)

/-- An item of which a fill placed the last part. -/
def Head.itemStored (h : Head) (b : Band) (i : Item) : Head :=
  if b.waits i then h
  else match i with
    | .chunk c => h.chunkStored b c
    | .page p => h.pageStored b p

/-- The flush of a side's dirty metadata pages, where its delta ring is half full (R232): their images are staged in metadata bands. The side
root takes up what the directory deltas of earlier flushes say (R271; DEDUCED, log entry 94). -/
def Head.flushPages (h : Head) (side : Nat) : Head × Bool :=
  let mine := h.vols.dirty.filter (fun x => x.2 = side)
  if h.vols.deltas.countP (fun d => d.side = side) < 1048576 || mine.isEmpty || mine.any (fun x => h.pageBusy side x.1) then (h, false)
  else
    let h := { h with vols := { h.vols with deltas := h.vols.deltas.filter (fun d => !(d.side = side && d.typ = 4 && d.gcs = 0)) } }
    mine.foldl (fun (acc : Head × Bool) x =>
      let h := acc.1
      let clean := fun (h : Head) => { h with vols := { h.vols with dirty := h.vols.dirty.erase x } }
      match h.pagePool x.1 with
      | none => (clean h, true)
      | some p =>
        match h.openBand .metadata p side .best [] with
        | none => acc
        | some (h, n) =>
          let h := { h with vols := { h.vols with
            copies := h.vols.copies.filter (fun (y : PageCopy) => y.page ≠ x.1 || y.side ≠ side || y.stored) ++ [h.pageCopy x.1 side] } }
          (clean (h.stageIn n [⟨.page x.1, h.pageImage x.1 side, []⟩]), true)) (h, false)

/-! ## The end of a fill (R251, R254, R256) -/

/-- An item put together from its parts, each with its poison. -/
def joinParts (i : Item) (l : List (List Byte × List (Nat × Nat))) : Staged :=
  l.foldl (fun (s : Staged) x => { s with bytes := s.bytes ++ x.1, bad := s.bad ++ x.2.map (fun r => (s.bytes.length + r.1, r.2)) }) ⟨i, [], []⟩

/-- For whom items that leave a band are placed anew. -/
def Head.whoFor (h : Head) (b : Band) : BandFor :=
  if b.cls = .gc then (if (h.pool b.pool).any (fun p => p.worn.at b.side) then .borrow else .best)
  else match h.red.extents.find? (fun e => e.con && e.side = b.side && e.chunks.any (fun k => match k.st with | .staged c => b.waits (.chunk c) | _ => false)) with
    | some e => .data e.vol
    | none => .best

/-- Items of which a fill placed a part, or that wait at a band that takes no more, go whole to another band: their pieces are dead (R235,
R256). A page of a metadata band is written anew from the map. -/
def Head.restage (h : Head) (n : Nat) (l : List Item) : Head :=
  match h.band n with
  | none => h
  | some b =>
    let old := fun (i : Item) => match i with | .page _ => b.cls = .gc | .chunk _ => true
    let placed := match b.filling with | some f => f.placed | none => []
    let whole := fun (i : Item) => joinParts i
      (((if old i then b.pieces i else []) ++ placed.filter (fun x => x.item = i)).map (fun x => (x.bytes, x.bad)) ++
        (b.stage.filter (fun x => x.item = i)).map (fun x => (x.bytes, x.bad)))
    let parts := (l.map whole).filter (fun x => !x.bytes.isEmpty)
    let who := h.whoFor b
    let h := h.updBand n (fun b => { b with
      cells := b.cells.map (fun x => if l.contains x.item && old x.item then x.orphan else x)
      stage := b.stage.filter (fun x => !(l.contains x.item)) })
    let pages := parts.filterMap (fun x => match x.item with | .page p => if b.cls = .gc then none else some p | .chunk _ => none)
    let h := pages.foldl (fun h p => h.soil p b.side) h
    let parts := parts.filter (fun x => match x.item with | .page _ => b.cls = .gc | .chunk _ => true)
    if parts.isEmpty then h
    else
      match h.openBand b.cls b.pool b.side who b.lostDies with
      | some (h, m) => h.stageIn m parts
      | none => h.stageIn n parts

/-- The items of a list of pieces or of staged bytes, each once. -/
def itemsOf (l : List Item) : List Item := l.foldl (fun (a : List Item) i => if a.contains i then a else a ++ [i]) []

/-- A band closes: its records are retired (R254). A destination of a relocation counts from then on as a band of what it holds (DEDUCED,
log entry 32). -/
def Head.closeBand (h : Head) (n : Nat) : Head :=
  let h := h.setFl { h.fl with closes := h.fl.closes + 1 }
  let mine := h.fl.jour.filter (fun r => r.band = n)
  let h := mine.foldl (fun h r => (h.sjWrite { r with st := 0 }).1) h
  let h := h.updBand n (fun b => { b with isOpen := false, closed := true, order := h.fl.closes })
  let h : Head := match h.band n with
    | some b => h.restage n (itemsOf (b.stage.map (fun x => x.item)))
    | none => h
  h.updBand n (fun b =>
    let paged := b.cells.any (fun x => match x.item with | .page _ => true | .chunk _ => false)
    { b with cls := if b.cls ≠ .gc then b.cls else if paged then .metadata else .data })

/-- A fill has ended well: its stripe has its new row, what it placed stands on flash. -/
def Head.fillDone (h : Head) (b : Band) (f : FillOp) : Head :=
  let h := h.updBand b.num (fun b => { b with
    filling := none, wseq := f.wseq, fills := b.fills ++ [f.fill], cells := b.cells ++ f.placed
    stripes := if f.summary then b.stripes else b.filled f.fill f.placed })
  if f.summary then h.closeBand b.num
  else
    let h := h.count .STCNT (if f.full then 0 else 1) 1
    let h : Head := if b.cls = .gc then h else (itemsOf (f.placed.map (fun p => p.item))).foldl (fun h i => match h.band b.num with
      | some b => h.itemStored b i
      | none => h) h
    h.coldFlush b.side

/-- A fill that ends without its row: what it was to place goes to another band, and the band takes no more. -/
def Head.fillGone (h : Head) (b : Band) (f : FillOp) : Head :=
  let h := h.updBand b.num (fun b => { b with isOpen := false })
  let h := h.restage b.num (itemsOf (f.placed.map (fun p => p.item)))
  let h := h.updBand b.num (fun b => { b with filling := none })
  h.closeBand b.num

/-- A fill has failed (R256): its row is dead. -/
def Head.fillLost (h : Head) (b : Band) (f : FillOp) : Head :=
  ((h.updBand b.num (fun b => { b with wseq := f.wseq, fills := b.fills ++ [⟨f.fill.stripe, f.fill.row, 0⟩] })).count .STCNT 2 1).fillGone b f

/-! ## Poison of lost codewords (R263) -/

/-- Poison put over a range of a volume's final, destaged bytes as an entry of epoch `e` sees them; younger writes stay
above it. -/
def poisonUnder (ws : List VWrite) (e off n : Nat) : List VWrite :=
  let keep := ws.takeWhile (fun w => !w.done || decide (e < w.epoch))
  keep ++ [⟨e, off, n, .poison, (0, 0), [], true, (off, 0)⟩] ++ ws.drop keep.length

/-- Where a map unit begins, and its bytes. -/
def unitRange (unit : Nat) : Nat × Nat :=
  if unit % 65 = 0 then (unit / 65 * 1048576, 1048576) else (unit / 65 * 1048576 + (unit % 65 - 1) * 16384, 16384)

/-- Reads of a chunk report its granules poisoned: every range that a map entry gives it. -/
def Head.poisonChunk (h : Head) (cref : Nat) : Head :=
  h.setVols (h.vols.vols.map (fun v =>
    { v with writes := (v.map ++ v.emap).foldl (fun ws m =>
        (m.kind.pieces.foldl (fun (acc : List VWrite × Nat) p =>
          (if p.1 = cref then poisonUnder acc.1 m.epoch acc.2 p.2.2 else acc.1, acc.2 + p.2.2)) (ws, (unitRange m.unit).1)).1) v.writes }))

/-- The units of some map entries of a volume read as poison. -/
def Head.poisonUnits (h : Head) (v : Nat) (of : MapEntry → Bool) : Head :=
  h.setVols (h.vols.vols.map (fun x => if x.num ≠ v then x else
    { x with writes := ((x.map ++ x.emap).filter of).foldl (fun ws m => poisonUnder ws m.epoch (unitRange m.unit).1 (unitRange m.unit).2) x.writes }))

/-- A metadata page is lost: what it held reads as poison; a page of a cold index is dropped. -/
def Head.poisonPage (h : Head) (p : MPage) (side : Nat) : Head :=
  match p with
  | .map v n => h.poisonUnits v (fun m => m.unit % 65 = 0 && m.unit / 65 / 512 = n && m.kind ≠ .unmapped)
  | .fine v n => match (h.vol v).bind (fun x => x.map.find? (fun m => m.kind = .fine && m.place = n)) with
    | some k => h.poisonUnits v (fun m => m.unit / 65 = k.unit / 65 && m.unit % 65 ≠ 0)
    | none => h
  | .recipe v n => h.poisonUnits v (fun m => m.place / 64 = n && (match m.kind with | .recipe _ => true | _ => false))
  | .kept v n => match h.vol v with
    | some x => h.poisonUnits v (fun m => ((x.emap.drop (256 * n)).take 256).contains m)
    | none => h
  | .chunks pool n => (h.fl.chunks.filter (fun c => c.pool = pool && c.side = side && c.chunk / 256 = n)).foldl (fun h c =>
      h.poisonChunk (mkCref c.pool c.side c.chunk)) h
  | .cold pool n => h.setRed { h.red with cold := h.red.cold.filter (fun x => !(x.pool = pool && x.side = side && x.page = n)) }

/-! ## Relocation (R236, R237, R261, R263) -/

/-- The head with a GC slot's record put in place, or freed, and mirrored (Table 8-11). -/
def Head.setGc (h : Head) (g : GcSlot) (free : Bool) : Head × Option Nat :=
  let rest := h.fl.gc.filter (fun x => !(x.side = g.side && x.idx = g.idx))
  (h.setFl { h.fl with gc := if free then rest else rest ++ [g] }).record
    (.gcSlot g.side g.idx g.victim (g.dest.getD 0) (if free then 0 else g.st.num))

/-- Chunks of a band that structures still name. -/
def Head.validChunks (h : Head) (b : Band) : List ChunkEnt :=
  h.fl.chunks.filter (fun c => c.pool = b.pool && c.side = b.side && c.faddr / 2 ^ 44 = b.num)

/-- Metadata pages that a directory names in a band. -/
def Head.validPages (h : Head) (b : Band) : List MPage :=
  (h.vols.dirs.filter (fun x => x.2.1 = b.side && x.2.2 / 2 ^ 44 = b.num)).map (fun x => x.1)

/-- The items of a band that are valid, with their bytes. -/
def Head.validItems (h : Head) (b : Band) : List (Item × Nat) :=
  (h.validChunks b).map (fun c => (.chunk c.chunk, c.clen)) ++ (h.validPages b).map (fun p => (.page p, 4096))

/-- The band that holds the copy of an item of a band: one that no slot empties, with all the item's bytes. -/
def Head.copyOf (h : Head) (b : Band) (x : Item × Nat) : Option Band :=
  h.fl.bands.find? (fun d => d.pool = b.pool && d.side = b.side && d.num ≠ b.num && d.lost.isEmpty && !(h.fl.gc.any (fun g => g.victim = d.num)) &&
    !(d.waits x.1) && d.stored x.1 = x.2)

/-- The codewords that a band's valid items touch. -/
def Head.sourceCws (h : Head) (b : Band) : List (Nat × Nat × Nat) :=
  ((h.validItems b).flatMap (fun i => (b.pieces i.1).flatMap (fun x => (b.cwsOf x.off x.bytes.length).map (fun y => (x.stripe, y.1, y.2))))).foldl
    (fun l k => if l.contains k then l else l ++ [k]) []

/-- A relocation starts (R236): the victim takes the lowest free GC slot of its side, what is valid in it is read. `why`: 0 ordinary,
1 refresh, 2 wear levelling, 3 rebuild. -/
def Head.relocate (h : Head) (n why : Nat) : Head :=
  match h.band n with
  | none => h
  | some b =>
    if !b.closed || b.filling.isSome || h.fl.gc.any (fun g => g.victim = n) || !(h.serves b.side) || h.handing b.side || h.spilling then h
    else
      match (upto 64).find? (fun i => !(h.fl.gc.any (fun g => g.side = b.side && g.idx = i))) with
      | none => h
      | some i =>
        let h := (h.setGc ⟨b.side, i, n, none, .read, [], why⟩ false).1
        let h := if why = 3 then h.count .STCNT 5 b.stripes.length else h
        h.ask (.copy b.side i) n (h.sourceCws b) false

/-- The poison of an item's pieces, as ranges of the item: the codewords of it that are not to be had. -/
def Band.lostRanges (b : Band) (gone : List (Nat × Nat × Nat × Nat)) (ps : List Placed) : List (Nat × Nat) :=
  (ps.foldl (fun (acc : List (Nat × Nat) × Nat) x =>
    (acc.1 ++ (cutRanges ((gone.filter (fun k => k.2.1 = x.stripe)).map (fun k => (k.2.2.1 * b.unit + k.2.2.2 * 4096, 4096))) x.off x.bytes.length).map
      (fun r => (acc.2 + r.1, r.2)), acc.2 + x.bytes.length)) ([], 0)).1

/-- Stripes with codewords that nothing rebuilds: counted, one event for each (R263). -/
def Head.tellLost (h : Head) (b : Band) (lost : List Want) : Head :=
  (b.stripes.filter (fun s => lost.any (fun w => w.stripe = s.n))).foldl (fun h s =>
    let cws := (lost.filter (fun w => w.stripe = s.n)).foldl (fun (l : List Nat) w => if l.contains w.cw then l else w.cw :: l) []
    ((h.setFl { h.fl with rbPoison := h.fl.rbPoison.put b.side (satAdd 4294967295 (h.fl.rbPoison.at b.side) 1) }).count .STCNT 6 1).event 0x0606 2 255 5
      b.pool b.num s.n (sum (cws.map (fun k => 2 ^ k)))) h

/-- The destination of a slot: of wear levelling a band of the most worn free blocks (R237), else the open band that takes relocations; a
WORN side may borrow reserved blocks for one (R242). -/
def Head.destFor (h : Head) (g : GcSlot) (b : Band) : Option (Head × Nat) :=
  if g.why = 2 then (h.pool b.pool).bind (fun p => h.buildBand .gc p b.side .best true b.lostDies)
  else h.openBand .gc b.pool b.side (if (h.pool b.pool).any (fun p => p.worn.at b.side) then .borrow else .best) b.lostDies

/-- What a slot reads has come: its items are staged in a destination, lost bytes as poison (R236, R263). -/
def Head.copyOut (h : Head) (g : GcSlot) (b : Band) : Head × Bool :=
  let who := Reader.copy g.side g.idx
  let items := h.validItems b
  match (if items.isEmpty then some (h, none) else (h.destFor g b).map (fun x => (x.1, some x.2))) with
  | none => (h, false)
  | some (h, d) =>
    let lost := h.fl.wants.filter (fun w => w.who = who && w.lost)
    let gone := h.poisonFor who
    let dead := lost.map (fun w => (w.band, w.stripe, w.pos, w.cw))
    let h := (h.tellLost b lost).unask who
    let h := items.foldl (fun h i => if (b.lostRanges dead (b.pieces i.1)).isEmpty then h
      else match i.1 with
        | .chunk c => h.poisonChunk (mkCref b.pool b.side c)
        | .page p => h.poisonPage p b.side) h
    let h := match d with
      | some d => h.stageIn d (items.map (fun (i : Item × Nat) => Staged.mk i.1 (pieceBytes (b.pieces i.1)) (b.lostRanges gone (b.pieces i.1))))
      | none => h
    ((h.setGc { g with dest := d, st := .copy } false).1, true)

/-- The tagged delta of a valid item's copy (R236). -/
def Head.moveDelta (h : Head) (g : GcSlot) (b : Band) (x : Item × Nat) : Head :=
  match (h.copyOf b x).bind (fun d => ((d.pieces x.1).head?).map (fun y => faddrOf d.num y.stripe y.off)) with
  | none => h
  | some f => match x.1 with
    | .chunk c => h.delta' 2 b.side (g.idx + 1) ((b.pool <<< 40) + c) f
    | .page p => h.delta' 4 b.side (g.idx + 1) p.key f

/-- The copy of an item takes the place of what it copies. -/
def Head.moveItem (h : Head) (b : Band) (x : Item × Nat) : Head :=
  match h.copyOf b x with
  | none => h
  | some d =>
    match (d.pieces x.1).head? with
    | none => h
    | some y =>
      let f := faddrOf d.num y.stripe y.off
      let h := match x.1 with
        | .chunk c => (h.soil (.chunks b.pool (c / 256)) b.side).setFl { h.fl with chunks := h.fl.chunks.map (fun (k : ChunkEnt) =>
            if k.pool = b.pool && k.side = b.side && k.chunk = c then { k with faddr := f } else k) }
        | .page p => { h with vols := { h.vols with
            dirs := h.vols.dirs.map (fun (z : MPage × Nat × Nat) => if z.1 = p && z.2.1 = b.side then (p, b.side, f) else z) } }
      (h.updBand d.num (fun d => { d with cells := d.cells.map (fun z => if z.item = x.1 then { z with live := true } else z) })).updBand b.num
        (fun b => { b with cells := b.cells.map (fun z => if z.item = x.1 then z.orphan else z) })

/-- A slot moves on: what is read is staged; when every valid item has its copy, the tagged deltas are written; when those are in both
PSTOREs, MAP is set and the copies take the places of what they copy. -/
def Head.gcStep (h : Head) (g : GcSlot) : Head × Bool :=
  match h.band g.victim with
  | none => ((h.setGc g true).1, true)
  | some b =>
    match g.st with
    | .read => if h.gotAll (.copy g.side g.idx) && !h.handing g.side then h.copyOut g b else (h, false)
    | .copy =>
      let l := h.validItems b
      if l.all (fun x => (h.copyOf b x).isSome) then
        let h := l.foldl (fun h x => h.moveDelta g b x) h
        ((h.setGc { g with st := .moved h.lastTag } false).1, true)
      else (h, false)
    | .moved tag =>
      if h.landed tag then
        let h := (h.validItems b).foldl (fun h x => h.moveItem b x) h
        let x := h.setGc { g with st := .map none } false
        (x.1.setFl { x.1.fl with gc := x.1.fl.gc.map (fun y => if y.side = g.side && y.idx = g.idx then { y with st := .map x.2 } else y) }, true)
      else (h, false)
    | _ => (h, false)

/-- Some reader still reads a band (R236): its erase waits. -/
def Head.bandRead (h : Head) (n : Nat) : Bool :=
  h.fl.wants.any (fun w => w.band = n) ||
    (h.fl.ops ++ h.fl.waits.map (fun w => w.1)).any (fun o => match o with | .read _ _ _ b _ _ => b = n | _ => false)

/-- The victim's erases are issued (R236, ERASE): the blocks of members whose dies are in service. -/
def Head.eraseVictim (h : Head) (g : GcSlot) : Head :=
  match h.band g.victim with
  | none => h
  | some b =>
    let ms := b.held.filter (fun m => match h.die m.1 with | some d => d.state = .inService | none => false)
    let h := (h.setGc { g with st := .erase, left := ms } false).1
    ms.foldl (fun h m => h.nand (.erase m.1 m.2 (some (g.side, g.idx))) false) h

/-- Every member erase of a victim has ended (R236, DONE): the band is gone, its slot free; the events of the space it
returns follow. -/
def Head.gcDone (h : Head) (g : GcSlot) : Head :=
  let h := h.setFl { h.fl with bands := h.fl.bands.filter (fun b => b.num ≠ g.victim) }
  let h := (h.setGc { g with st := .done } false).1
  let h := (h.setGc g true).1
  let h := h.count .NFCNT (if g.why = 1 then 10 else if g.why = 2 then 9 else 8) 1
  h.space

/-! ## A pool's deletion (R225) -/

/-- A deleted pool whose blocks are all free is gone; the write that deleted it has its answer. -/
def Head.poolStep (h : Head) (p : Pool) : Head × Bool :=
  if p.deleting && !(h.fl.bands.any (fun b => b.pool = p.num)) then
    ((h.setFl { h.fl with pools := h.fl.pools.filter (fun q => q.num ≠ p.num) }).ended true p.num, true)
  else (h, false)

/-! ## Everything the state allows -/

/-- A reader that is no more: its verb has its answer, its chunk is compared no longer, its fill or slot reads no longer. -/
def Head.readerGone (h : Head) (r : Reader) : Bool :=
  match r with
  | .verb vid => !(h.work.verbs.any (fun v => v.vid = vid && (match v.aw with | .reads _ => true | .unpack => true | _ => false)))
  | .compare ext i => !(h.red.extents.any (fun e => e.id = ext && (match e.chunks[i]? with
      | some c => (match c.st with | .verifying _ => true | _ => false)
      | none => false)))
  | .fill n => !(h.fl.bands.any (fun b => b.num = n && (match b.filling with | some f => f.st = .reading | none => false)))
  | .copy side i => !(h.fl.gc.any (fun g => g.side = side && g.idx = i && g.st = .read))
  | .tape p => (h.tape.ports.at p).job.isNone
  | .rep r => (match h.rep r with | some x => decide (x.phase ≠ 7) | none => true)
  | .afresh v o => !(h.vols.afresh.any (fun x => x.vol = v && x.off = o))

/-- What readers that are no more asked for is forgotten. -/
def Head.forget (h : Head) : Head :=
  let h := h.setFl { h.fl with wants := h.fl.wants.filter (fun w => !(h.readerGone w.who)) }
  h.setRed { h.red with
    waits := h.red.waits.put 1 (h.red.waits.s1.filter (fun q => match q.who with | .unpack r => !(h.readerGone r) | _ => true))
    opened := h.red.opened.filter (fun r => !(h.readerGone r)) }

/-- A band moves on: what its fill reads has come, the row is programmed when its WRITING record is in both PSTOREs, the fill ends when its
last record is. Relocation destinations, metadata bands and the bands of a side that is given up fill themselves (R232, R252). -/
def Head.bandStep (h : Head) (n : Nat) : Head × Bool :=
  match h.band n with
  | none => (h, false)
  | some b =>
    match b.filling with
    | some f =>
      (match f.st with
       | .reading =>
         if !(h.gotAll (.fill n)) then (h, false)
         else if h.fl.wants.any (fun w => w.who = .fill n && w.lost) then ((h.unask (.fill n)).fillGone b f, true)
         else (h.writeFill b f, true)
       | .writing tag => if h.landed tag then (h.program b f, true) else (h, false)
       | .programming => (h, false)
       | .ending tag ok => if h.landed tag then (if ok then h.fillDone b f else h.fillLost b f, true) else (h, false))
    | none =>
      if b.isOpen then
        (if h.serves b.side && (b.mustClose || h.crowded b || ((b.cls = .gc || b.cls = .metadata || h.handing b.side) && !b.stage.isEmpty)) then
          (h.fill n true, true)
        else (h, false))
      else if b.stage.isEmpty then (h, false)
      else
        let k := h.restage n (itemsOf (b.stage.map (fun x => x.item)))
        (k, (k.band n).any (fun x => decide (x.stage.length < b.stage.length)))

/-- An extent, and a chunk of it. -/
def Head.extChunk (h : Head) (ext i : Nat) : Option (Extent × Chunk) :=
  match h.red.extents.find? (fun e => e.id = ext) with
  | none => none
  | some e => (e.chunks[i]?).map (fun c => (e, c))

/-- The pool of a volume. -/
def Head.poolOf (h : Head) (vol : Nat) : Nat := match h.vol vol with | some v => v.pool | none => 0

/-- An extent moves on: its chunks do, its map entries are written, it ends. -/
def Head.extentStep (h : Head) (id : Nat) : Head × Bool :=
  match h.red.extents.find? (fun e => e.id = id) with
  | none => (h, false)
  | some e =>
    match e.tag with
    | some t => if h.landed t then (h.endExtent e, true) else (h, false)
    | none =>
      if h.mayMap e then (h.mapExtent e, true)
      else if h.handing e.side then (h, false)
      else sweep (fun (h : Head) (i : Nat) => match h.extChunk id i with
        | some x => h.chunkStep (h.poolOf e.vol) x.1 i x.2
        | none => (h, false)) (upto e.chunks.length) h

/-- One pass over bands, extents, units to be destaged afresh, metadata pages, GC slots, pools. -/
def Head.flashPass (h : Head) : Head × Bool :=
  let a := sweep Head.bandStep (h.fl.bands.map (fun b => b.num)) h
  let b := sweep Head.extentStep (a.1.red.extents.map (fun e => e.id)) a.1
  let f := sweep Head.startAfresh b.1.vols.afresh b.1
  let m := sweep Head.flushPages ((upto 2).filter (fun s => f.1.serves s && !(f.1.handing s))) f.1
  let c := sweep (fun (h : Head) (k : Nat × Nat) => match h.fl.gc.find? (fun g => g.side = k.1 && g.idx = k.2) with
    | some g => h.gcStep g
    | none => (h, false)) (m.1.fl.gc.map (fun g => (g.side, g.idx))) m.1
  let p := sweep Head.poolStep c.1.fl.pools c.1
  (p.1, a.2 || b.2 || f.2 || m.2 || c.2 || p.2)

/-- Passes until nothing changes, at most `n`. -/
def flashLoop : Nat → Head → Head
  | 0, h => h
  | n + 1, h =>
    let x := h.flashPass
    if x.2 then flashLoop n x.1 else x.1

/-- Everything that the state of flash allows happens; then commands move on. From PFAIL_L on nothing but the spill does (R293). -/
def Head.flash (h : Head) : Head :=
  if !h.working then h
  else if h.spilling then h.settle
  else
    let h := h.forget
    ((((flashLoop (8 + 4 * (h.fl.bands.length + h.red.extents.length + h.fl.gc.length)) h).tendSets 0).tendSets 1).sayMedia).settle

end Sys2Proof.Machine
end

