-- ==== Sys2Proof/Machine/TapeTab.lean ====
section
/-! DEFINITION. The format tables of the tape ports (R355, R375, R376): when a table is well-formed, and what its bytes
hold. -/

namespace Sys2Proof.Machine

/-- A signed byte. -/
def sbyte (b : Byte) : Int := if b.toNat < 128 then (b.toNat : Int) else (b.toNat : Int) - 256

/-- A header as Table 4-2 gives it: count in [31:16], LENGTH in [15:0], words T2 and T3 zero. -/
def headerForm (b : List Byte) (n most len : Nat) : Bool :=
  decide (1 ≤ n) && decide (n ≤ most) && b.length = len && dword b 2 63 0 = 0 && dword b 3 63 0 = 0

/-- A signed 16-bit field. -/
def sword (n : Nat) : Int := if n < 32768 then (n : Int) else (n : Int) - 65536

/-! ## The ladder (R375) -/

/-- A ladder table is well-formed: 12 steps in their ranges, RATE as its formula gives it, speeds ascending. -/
def ladderForm (b : List Byte) : Bool :=
  let f := dword b
  b.length = 224 && f 0 31 16 = 12 && f 2 63 0 = 0 && f 3 63 0 = 0 &&
  (upto 12).all (fun k =>
    let g := f (4 + 2 * k)
    decide (1000 ≤ g 63 48) && decide (g 63 48 ≤ 12000) && g 47 32 = 200 * g 63 48 / 1000 && decide (1 ≤ g 31 24) &&
      decide (g 31 24 ≤ 100) && decide (g 23 16 < g 31 24) && decide (100 ≤ g 15 0) && decide (g 15 0 ≤ 60000) &&
      decide (1024 ≤ f (5 + 2 * k) 63 48) && decide (f (5 + 2 * k) 63 48 ≤ 1536) && f (5 + 2 * k) 47 0 = 0) &&
  (upto 11).all (fun k => decide (f (4 + 2 * k) 63 48 < f (6 + 2 * k) 63 48))

/-- The ladder that the bytes hold. -/
def ladderOf (b : List Byte) : Ladder :=
  { version := dword b 0 47 32
    steps := (upto 12).map (fun k =>
      let g := dword b (4 + 2 * k)
      ⟨g 63 48, g 47 32, g 31 24, g 23 16, g 15 0, dword b (5 + 2 * k) 63 48⟩) }

/-! ## Equaliser and servo (R371, R376) -/

/-- SPLICE of a distance RWDIST in µm (R371): the smallest number, at least 1, that holds the rows' way to the elements. -/
def spliceOf (rwdist : Nat) : Nat := max 1 (ceilDiv (100 * rwdist - 3 * 4096) (3 * 6400))

/-- An equaliser and servo table is well-formed. -/
def eqForm (b : List Byte) : Bool :=
  let f := dword b
  b.length = 288 && f 0 31 16 = 4 && f 2 63 0 = 0 && f 3 63 0 = 0 && decide (10 ≤ f 4 31 16) && decide (f 4 31 16 ≤ 1600) &&
  decide (f 4 15 8 ≤ 3) && decide (1 ≤ f 4 7 0) && decide (f 4 7 0 ≤ 16) && decide (f 5 15 0 ≤ 255) &&
  (upto 12).all (fun n => decide (f 6 (4 * n + 3) (4 * n) ≤ 3)) && (upto 3).all (fun k => f (9 + k) 63 0 = 0) &&
  (upto 4).all (fun n =>
    let t := b.drop (96 + 48 * n)
    leNat ((t.drop 5).take 3) = 0 && leNat ((t.drop 38).take 10) = 0)

/-- The table that the bytes hold. -/
def eqOf (b : List Byte) : EqTab :=
  let f := dword b
  let s := fun (k hi lo : Nat) => sword (f k hi lo)
  { version := f 0 47 32, peslim := f 4 63 48, pesok := f 4 47 32, rwdist := f 4 31 16, mktol := f 4 15 8, c1max := f 4 7 0
    kp := s 5 63 48, ki := s 5 47 32, kd := s 5 31 16, relmin := f 5 15 0
    tsel := (upto 12).map (fun n => f 6 (4 * n + 3) (4 * n)), lgt := (f 6 63 48 : Nat), muacq := f 7 63 56, mutrk := f 7 55 48
    kpacq := f 7 47 40, kiacq := f 7 39 32, kptrk := f 7 31 24, kitrk := f 7 23 16, offsh := f 7 15 8, asymsh := f 7 7 0
    tenstgt := f 8 63 48, kv := (f 8 47 32 : Nat), kt := (f 8 31 16 : Nat), bscale := (f 8 15 0 : Nat)
    targets := (upto 4).map (fun n =>
      let t := b.drop (96 + 48 * n)
      ⟨(t.take 5).map sbyte, (upto 15).map (fun k => sword (leNat ((t.drop (8 + 2 * k)).take 2)))⟩) }

/-! ## The link (R355) -/

/-- A TFE link table is well-formed. -/
def linkForm (b : List Byte) : Bool :=
  let f := dword b
  let n := f 0 31 16
  decide (n ≤ 64) && b.length = 64 + 8 * n && f 2 63 0 = 0 && f 3 63 0 = 0 && decide (1 ≤ f 4 63 48) && decide (f 4 63 48 ≤ 1000) &&
  decide (10 ≤ f 4 47 32) && decide (f 4 47 32 ≤ 10000) && decide (1 ≤ f 4 31 16) && decide (f 4 31 16 ≤ 1000) &&
  decide (1 ≤ f 4 15 8) && f 4 7 0 = 0 && decide (1 ≤ f 5 63 48) && decide (f 5 63 48 ≤ 10000) && f 5 47 0 = 0 &&
  f 6 63 0 = 0 && f 7 63 0 = 0 &&
  (upto n).all (fun k => decide (f (8 + k) 63 48 ≤ 32767) && decide (f (8 + k) 15 8 ≤ 2) && f (8 + k) 7 0 = 0)

/-- The table that the bytes hold. -/
def linkOf (b : List Byte) : LinkTab :=
  let f := dword b
  { version := f 0 47 32, ttrain := f 4 63 48, talign := f 4 47 32, tconfig := f 4 31 16, retries := f 4 15 8, retryWait := f 5 63 48
    entries := (upto (f 0 31 16)).map (fun k => ⟨f (8 + k) 63 48, f (8 + k) 47 16, f (8 + k) 15 8⟩) }

end Sys2Proof.Machine
end

