-- ==== Sys2Proof/Machine/FlashRows.lean ====
section
/-! DEFINITION. Events of NAND channels and stripes (R208-R225, R235-R237, R243, R250-R263): windows on a rail, reads,
programs and erases that end or time out, fills, garbage collection, scrubbing, rebuild, idle groups. -/

namespace Sys2Proof.Machine

/-! ## Groups: bursts, idle, write protection (R213-R216, R243) -/

/-- No operation of a group's dies is in progress or waits. -/
def Head.groupQuiet (h : Head) (g : Nat) : Bool := (h.fl.ops ++ h.fl.waits.map (fun w => w.1)).all (fun o => dieGroup o.die ≠ g)

/-- Dies of a group have been resynchronised, or are not to be; with the last one the group takes operations again (R219). -/
def Head.resynced (h : Head) (g : Nat) (ds : List Nat) : Head :=
  let x := h.group g
  let left := x.resync.filter (fun d => !(ds.contains d))
  if left.length = x.resync.length then h
  else
    let h := h.setGroup g { x with resync := left, lastOp := h.now }
    if left.isEmpty then (h.count .NFCNT 13 1).pump else h

/-- A window of a resynchronisation: Volume Select with its address, then a status read, for the same volume of each port that takes part
(R219 steps 2 and 3). -/
def Head.resyncWindow (h : Head) (g : Nat) (ports : BitVec 4) : Head :=
  let x := h.group g
  match x.resync with
  | [] => h
  | d :: _ =>
    let ds := x.resync.filter (fun e => e % 16 = d % 16 && ports.getLsbD (diePort e % 4))
    ((((h.railWindow g).emitAll ds .select).emitAll ds .status).resynced g ds)

/-- TANDEM_WINDOW: a window of slots on a group's rail (R213-R215); `addrs` gives for each slot whether it is of type ADDR, `ports` which
of the group's ports take part. It takes its place behind the windows that wait. While the group is being resynchronised, a window of a
command, an address and a command is one of the resynchronisation (R219; DESIGN CHOICE, log entry 34). -/
def execTandemWindow (g : Nat) (addrs : List Bool) (ports : BitVec 4) (s : State) : Host.Outcome State Fault Refusal :=
  s.run (fun h =>
    let x := h.group g
    if !x.own || addrs.length < 1 || 16 < addrs.length || ports = 0 || !h.working then h
    else
      let h := h.wakeGroup g
      if !x.resync.isEmpty && addrs = [false, true, false] then h.resyncWindow g ports
      else h.serveWindows g (x.queue ++ [(addrs, ports)]))

/-- ZQ_SHORT_CAL: every 100 ms of operation (R208). -/
def execZqShortCal (g : Nat) (s : State) : Host.Outcome State Fault Refusal :=
  s.run (fun h => if (h.group g).own && !(h.group g).idle && (h.group g).resync.isEmpty then h.emitAll (h.groupDies g) .zqShort else h)

/-- A group holds only cold bands (R243). -/
def Head.coldGroup (h : Head) (g : Nat) : Bool :=
  h.fl.bands.all (fun b => !(b.members.any (fun m => dieGroup m.1 = g)) ||
    (!b.isOpen && !b.rebuild && !(h.fl.gc.any (fun x => x.victim = b.num || x.dest = some b.num))))

/-- GROUP_IDLE: NFIDLE.IDLE has passed with no operation on a group that holds only cold bands (R243). -/
def execGroupIdle (g : Nat) (s : State) : Host.Outcome State Fault Refusal :=
  s.run (fun h =>
    let x := h.group g
    if x.own && x.resync.isEmpty && x.queue.isEmpty && h.cfg .NFIDLE 0 31 0 ≠ 0 && h.coldGroup g && h.groupQuiet g then h.setGroup g { x with idle := true }
    else h)

/-- VCCQ_NF_FAULT: VCCQ_NF has been out of range for 1 µs (R216). -/
def execVccqNfFault (s : State) : Host.Outcome State Fault Refusal :=
  s.run (fun h =>
    ({ h with sys := { h.sys with power := { h.sys.power with vccqOk := false } } }.setFl { h.fl with vccqOff := true }).protect)

/-- VCCQ_NF_RECOVER: VCCQ_NF is back in its range (R216). -/
def execVccqNfRecover (s : State) : Host.Outcome State Fault Refusal :=
  s.run (fun h =>
    ({ h with sys := { h.sys with power := { h.sys.power with vccqOk := true } } }.setFl { h.fl with vccqOff := false }).protect)

/-! ## Dies that fail (R260) -/

/-- An erase of a block for a GC slot, for a deleted pool, or of a spill set, is over: the slot or the band waits for it no more. -/
def Head.eraseOver (h : Head) (die block : Nat) (gc : Option (Nat × Nat)) : Head :=
  match gc with
  | none =>
    let bands := h.fl.bands.map (fun (x : Band) =>
      if (h.pool x.pool).any (fun p => p.deleting) then { x with members := x.members.filter (fun m => m ≠ (die, block)) } else x)
    (h.setFl { h.fl with bands := bands.filter (fun x => !(x.members.isEmpty)) }).setErased die block
  | some k =>
    match h.fl.gc.find? (fun g => g.side = k.1 && g.idx = k.2) with
    | some g =>
      let left := g.left.filter (fun m => m ≠ (die, block))
      if left.isEmpty then h.gcDone { g with left := [] } else (h.setGc { g with left := left } false).1
    | none => h

/-- The operations in flight on a die, and those that wait for it, fail. -/
def Head.failOps (h : Head) (die : Nat) : Head :=
  let mine := h.fl.ops.filter (fun o => o.die = die)
  let waits := (h.fl.waits.filter (fun w => w.1.die = die)).map (fun w => w.1)
  let h := h.setFl { h.fl with waits := h.fl.waits.filter (fun w => w.1.die ≠ die) }
  let h := mine.foldl (fun h o => h.nandEnd o) h
  (mine ++ waits).foldl (fun (h : Head) (o : NOp) =>
    match o with
    | .program d b _ => h.memberDone b d false
    | .erase d b gc => h.eraseOver d b gc
    | .spill d pos => h.spillProgram (dieSide d) d pos false
    | .read _ _ _ band stripe pos => h.memberGone band stripe pos
    | .late _ => h) h

/-- A band with a member on a failed die waits for rebuild; an open one closes. -/
def Head.bandHit (h : Head) (die n : Nat) : Head :=
  match h.band n with
  | none => h
  | some b =>
    match (upto b.members.length).find? (fun k => (nth (0, 0) b.members k).1 = die) with
    | none => h
    | some m =>
      let h := h.updBand n (fun b => { b with lost := if b.lost.contains m then b.lost else b.lost ++ [m], rebuild := true })
      let h := if b.isOpen && b.filling.isNone then h.closeBand n else h
      match h.band n with
      | some b => h.setBits b
      | none => h

/-- A die is declared failed (R260): 1 timeouts, 2 busy, 3 Read ID. -/
def Head.dieFailed (h : Head) (die why : Nat) : Head :=
  match h.die die with
  | none => h
  | some d =>
    if d.state ≠ .inService then h
    else
      let h := (h.updDie die (fun d => { d with state := .failed })).event 0x0604 2 255 4 die why 0 0
      let h := (h.failOps die).resynced (dieGroup die) [die]
      (h.fl.bands.map (fun b => b.num)).foldl (fun h n => h.bandHit die n) h

/-- An operation of a die has timed out: DFAIL of them in a row fail it. -/
def Head.dieTimedOut (h : Head) (die : Nat) : Head :=
  match h.die die with
  | none => h
  | some d =>
    let h := h.updDie die (fun d => { d with touts := d.touts + 1 })
    if h.cfg .STCFG 0 55 48 ≤ d.touts + 1 then h.dieFailed die 1 else h

/-- DIE_BUSY_TIMEOUT: a die's status has stayed busy past its TBERS_MAX + 1 ms (R260, R219). -/
def execDieBusyTimeout (die : Nat) (s : State) : Host.Outcome State Fault Refusal :=
  s.run (fun h => if (h.group (dieGroup die)).own then (h.dieFailed die 2).flash else h)

/-! ## Reads (R222, R223, R259) -/

/-- The read of a position of a stripe that is in progress. -/
def Head.readOf (h : Head) (band stripe pos : Nat) : Option NOp :=
  h.fl.ops.find? (fun o => match o with | .read _ _ _ n s m => n = band && s = stripe && m = pos | _ => false)

/-- The offsets that Set Features gives a die, as bytes: those of a retry step moved on by `by_`. -/
def offsetBytes (f : Family) (l : List Int) (by_ : Int) : List Byte := (l.take f.levels).map (fun x => BitVec.ofInt 8 (x + by_))

/-- The retry steps of a family up to the one that soft reads follow: the first with SOFT, or the last (R222 step 3). -/
def Family.hardSteps (f : Family) : List (List Int × Bool × Bool) :=
  let l := f.steps.take f.nstep
  match (upto l.length).find? (fun k => match l[k]? with | some s => s.2.1 || s.2.2 | none => false) with
  | some k => l.take (k + 1)
  | none => l

/-- What the decode flow of R222 does at a die's port for a page: retry steps with their offsets, five reads for soft decode, the default
offsets again. -/
def Head.decodeFlow (h : Head) (die block row : Nat) (res : List CwResult) : Head :=
  match h.family die with
  | none => h
  | some f =>
    let soft := res.any (fun r => r = .soft || r = .erased)
    let n := if soft then f.hardSteps.length else res.foldl (fun m r => match r with | .retry k => max m (k + 1) | _ => m) 0
    let set := fun (h : Head) (v : List Byte) => (h.emit (.nand die (.setFeature f.feat v))).emit (.nand die (.read block row))
    let h := (f.steps.take n).foldl (fun h s => set h (offsetBytes f s.1 0)) h
    let last : List Int := match (f.steps.take n).getLast? with | some s => s.1 | none => List.replicate f.levels 0
    let h := if soft then ([-2, -1, 0, 1, 2] : List Int).foldl (fun h k => set h (offsetBytes f last (k * f.softd))) h else h
    if 0 < n || soft then h.emit (.nand die (.setFeature f.feat (List.replicate f.levels 0))) else h

/-- The counters of what a page read brought (Table 8-20). -/
def Head.countRead (h : Head) (res : List CwResult) : Head :=
  let c := fun (f : CwResult → Bool) => res.countP f
  ((((h.count .NFCNT 0 res.length).count .NFCNT 1 (c (fun r => r ≠ .hard))).count .NFCNT 2 (c (fun r => match r with | .retry _ => true | _ => false))).count
    .NFCNT 3 (c (fun r => r = .soft))).count .NFCNT 4 (c (fun r => r = .erased))

/-- A codeword delivered late enough, or not at all, makes its band due for refresh (R223). -/
def Head.dueRefresh (h : Head) (r : CwResult) : Bool :=
  match r with
  | .hard => false
  | .retry k => decide (h.cfg .NFCFG 0 47 40 ≤ k)
  | _ => true

/-- NAND_READ_DONE: a page read of a member has returned; `res` gives what the flow of R222 made of each codeword, hard decodes unlisted.
Its readers have what they wait for; a read that had timed out feeds the refresh of R223 alone. -/
def Head.readDone (h : Head) (n stripe pos : Nat) (res : List CwResult) : Head :=
  match h.band n, h.readOf n stripe pos with
  | some b, some o =>
    let res := fit .hard b.cws res
    let h := match o with | .read d blk row _ _ _ => h.decodeFlow d blk row res | _ => h
    let h := ((h.nandEnd o).updDie o.die (fun d => { d with touts := 0 })).countRead res
    let h := if res.any h.dueRefresh then h.updBand n (fun b => { b with refresh := true }) else h
    if h.fl.late.contains (n, stripe, pos) then h.setFl { h.fl with late := h.fl.late.erase (n, stripe, pos) }
    else (upto b.cws).foldl (fun h k => if nth .hard res k = .erased then h.cwGone n stripe pos k else h.cwCame n stripe pos k) h
  | _, _ => h

/-- MEMBER_TIMEOUT: a member read has passed TMO; its readers are served from other members, its result will feed the refresh alone. -/
def Head.memberLate (h : Head) (n stripe pos cw : Nat) : Head :=
  match h.band n, h.readOf n stripe pos with
  | some b, some o =>
    if b.cws ≤ cw || h.fl.late.contains (n, stripe, pos) then h
    else
      let h := (h.count .STCNT 4 1).setFl { h.fl with late := h.fl.late ++ [(n, stripe, pos)] }
      (h.memberGone n stripe pos).dieTimedOut o.die
  | _, _ => h

/-- MEMBER_TIMEOUT (R259). -/
def execMemberTimeout (band stripe pos cw : Nat) (s : State) : Host.Outcome State Fault Refusal :=
  s.run (fun h => (h.memberLate band stripe pos cw).flash)

/-- SCRUB_BAND_TIMER: a closed band is read once in the scrub period (R223). -/
def execScrubBandTimer (band : Nat) (s : State) : Host.Outcome State Fault Refusal :=
  s.run (fun h =>
    match h.band band with
    | none => h
    | some b =>
      if !b.closed || !h.working || !(h.serves b.side) || h.handing b.side || h.spilling then h
      else b.stripes.foldl (fun h t => h.issueReads b t.n ((upto b.members.length).filter (fun m => !(b.lost.contains m))) false) h)

/-! ## Programs and erases that end (R235, R256) -/

/-- A program of a die has ended; one that nobody awaits any more frees its die alone. -/
def Head.programEnd (h : Head) (die : Nat) (ok : Bool) : Head :=
  match h.fl.ops.find? (fun o => match o with | .program d _ _ => d = die | .spill d _ => d = die | .late d => d = die | _ => false) with
  | some (.spill d pos) => h.spillProgram (dieSide d) d pos ok
  | some (.program d n r) =>
    let h := h.nandEnd (.program d n r)
    let h := if ok then h.updDie die (fun d => { d with touts := 0 })
      else
        match h.band n with
        | some b => (h.count .NFCNT 5 1).retire die ((b.members.find? (fun m => m.1 = die)).getD (0, 0)).2 b.pool b.side
        | none => h
    h.memberDone n die ok
  | some o => h.nandEnd o
  | none => h

/-- NAND_PROGRAM_DONE (R235, R252, R293). -/
def execNandProgramDone (die : Nat) (st : DieStatus) (s : State) : Host.Outcome State Fault Refusal :=
  s.run (fun h => (h.programEnd die (st = .pass)).space.flash)

/-- PROGRAM_TIMEOUT: a fill's program has outlasted the member timeout (R256): the fill will be DISCARD; the operation goes on at its die,
its result is awaited no longer. -/
def execProgramTimeout (die : Nat) (s : State) : Host.Outcome State Fault Refusal :=
  s.run (fun h =>
    match h.fl.ops.find? (fun o => match o with | .program d _ _ => d = die | _ => false) with
    | some (.program d n r) =>
      let h := h.setFl { h.fl with ops := h.fl.ops.map (fun o => if o = .program d n r then .late d else o) }
      ((h.memberDone n die false).dieTimedOut die).flash
    | _ => h)

/-- The spread of erase counts of a side's blocks in service (R237). -/
def Head.wearSpread (h : Head) (side : Nat) : Nat :=
  let ds := h.sideDies side
  let counts := (ds.map (fun d =>
    let l := (d.ec.filter (fun e => !(d.bad.contains e.1))).map (fun e => e.2)
    if l.length + d.bad.length < d.blocks then 0 :: l else l)).flatten
  counts.foldl max 0 - counts.foldl min 65535

/-- The mean erase count of a band's blocks, times the members of the widest stripe, so that means compare as numbers. -/
def Head.meanWear (h : Head) (b : Band) : Nat :=
  let l := b.members.filterMap (fun m => (h.die m.1).map (fun d => d.count m.2))
  if l.isEmpty then 0 else sum l * 720720 / l.length

/-- Bands of a list with the least value of `f`, the earliest closed first. -/
def leastBand (f : Band → Nat) (l : List Band) : Option Band :=
  (sortBy f (sortBy (fun (b : Band) => b.order) l)).head?

/-- A band may be a victim: closed, of a class that relocation takes, in no slot. -/
def Head.maybeVictim (h : Head) (side : Nat) (b : Band) : Bool :=
  b.side = side && b.closed && (b.cls = .data || b.cls = .metadata) && !(h.fl.gc.any (fun g => g.victim = b.num)) &&
    !((h.pool b.pool).any (fun p => p.deleting))

/-- Wear levelling (R237): the closed DATA band with the lowest mean erase count moves to the most worn free blocks; at most
WLRATE bands an hour. -/
def Head.levelWear (h : Head) (side : Nat) : Head :=
  let hour := h.now / 3600000000000
  let done := if h.fl.wl.1 = hour then h.fl.wl.2 else 0
  if h.wearSpread side ≤ h.cfg .NFCFG 0 63 48 || h.cfg .NFGC 0 31 16 ≤ done then h
  else
    match leastBand h.meanWear (h.fl.bands.filter (fun b => h.maybeVictim side b && b.cls = .data)) with
    | none => h
    | some b =>
      let n := h.fl.gc.length
      let h := h.relocate b.num 2
      if n < h.fl.gc.length then h.setFl { h.fl with wl := (hour, done + 1) } else h

/-- An erase of a block has ended (R235, R236): the block is free again, or retired. -/
def Head.eraseEnd (h : Head) (die block : Nat) (ok : Bool) : Head :=
  match h.fl.ops.find? (fun o => match o with | .erase d b _ => d = die && b = block | _ => false) with
  | some (.erase d b gc) =>
    let h := (h.updDie die (fun x => { x with ec := place 0 x.ec block (x.count block + 1), susp := false, touts := 0 })).nandEnd (.erase d b gc)
    let pool := ((h.fl.bands.find? (fun x => x.members.contains (d, b))).map (fun x => x.pool)).getD 0
    let n := match h.die die with | some x => x.count block | none => 0
    let worn := match h.family die with | some f => decide (f.pelim ≤ n) | none => false
    let h := if ok then h else h.count .NFCNT 6 1
    let h := if !ok || worn then h.retire die block pool (dieSide die)
      else h.updDie die (fun x => { x with free := x.free ++ [block] })
    h.eraseOver d b gc
  | _ => h

/-- NAND_ERASE_DONE (R235-R237). -/
def execNandEraseDone (die block : Nat) (st : DieStatus) (s : State) : Host.Outcome State Fault Refusal :=
  s.run (fun h => (((h.eraseEnd die block (st = .pass)).levelWear (dieSide die)).space).flash)

/-! ## Garbage collection (R236) and rebuild (R261) -/

/-- Free bands of a pool side: how many bands its free blocks make. -/
def Head.freeBands (h : Head) (p : Pool) (side : Nat) : Nat :=
  if h.bandBytes p side = 0 then 0 else h.rawFree side / h.bandBytes p side

/-- The victim that relocation takes next on a pool's side, and why: a band due for refresh first, else, where free bands are
below GCLOW, the closed band with the fewest valid bytes. -/
def Head.nextVictim (h : Head) (p : Pool) (side : Nat) : Option (Nat × Nat) :=
  let l := h.fl.bands.filter (fun b => b.pool = p.num && h.maybeVictim side b)
  match leastBand (fun b => b.order) (l.filter (fun b => b.refresh)) with
  | some b => some (b.num, 1)
  | none =>
    if h.freeBands p side < h.cfg .NFGC 0 63 48 then (leastBand Band.valid l).map (fun b => (b.num, 0)) else none

/-- GC_START: a victim takes a GC slot in COPY (R236); a band that relocation does not take next is left alone. -/
def execGcStart (band : Nat) (s : State) : Host.Outcome State Fault Refusal :=
  s.run (fun h =>
    match h.band band with
    | none => h
    | some b =>
      match (h.pool b.pool).bind (fun p => h.nextVictim p b.side) with
      | some (n, why) => if n = band && h.working then (h.relocate band why).flash else h
      | none => h)

/-- GC_ERASE: every read that resolved a location in the victim before MAP has completed; its erases are issued (R236). -/
def execGcErase (side idx : Nat) (s : State) : Host.Outcome State Fault Refusal :=
  s.run (fun h =>
    match h.fl.gc.find? (fun g => g.side = side && g.idx = idx) with
    | none => h
    | some g =>
      match g.st with
      | .map tag =>
        if h.landed tag && h.working && !(h.bandRead g.victim) && !(h.handing side) then
          let h := h.eraseVictim g
          match h.fl.gc.find? (fun g => g.side = side && g.idx = idx) with
          | some g => (if g.left.isEmpty then h.gcDone g else h).flash
          | none => h.flash
        else h
      | _ => h)

/-- The band that rebuild takes next on a side (R261): the most lost members, META before DATA, the earliest closed. -/
def Head.nextRebuild (h : Head) (side : Nat) : Option Band :=
  leastBand (fun b => (32 - b.lost.length) * 2 + bnat (b.cls ≠ .metadata))
    (h.fl.bands.filter (fun b => b.rebuild && h.maybeVictim side b))

/-- REBUILD_BAND (R261-R263). -/
def execRebuildBand (band : Nat) (s : State) : Host.Outcome State Fault Refusal :=
  s.run (fun h =>
    match h.band band with
    | none => h
    | some b =>
      match h.nextRebuild b.side with
      | some x => if x.num = band && h.working then (h.relocate band 3).flash else h
      | none => h)

/-! ## Fills (R251, R252) -/

/-- FULL_FILL: a whole stripe is staged; it is encoded and programmed in one row (R251). -/
def execFullFill (band : Nat) (s : State) : Host.Outcome State Fault Refusal :=
  s.run (fun h => if h.working then (h.fill band false).flash else h)

/-- PARTIAL_FILL: staged bytes must go to flash before the tail is full (R252): lehr fill above LHI, or a give-up. -/
def execPartialFill (band : Nat) (s : State) : Host.Outcome State Fault Refusal :=
  s.run (fun h =>
    if h.working && (decide (h.cfg .STCFG 0 31 24 < h.lehrFill) || (h.band band).any (fun b => h.handing b.side)) then (h.fill band true).flash
    else h)

/-- STAGE_AGE_EXPIRE: bytes have been staged for longer than SAGE (R252). -/
def execStageAgeExpire (band : Nat) (s : State) : Host.Outcome State Fault Refusal :=
  s.run (fun h => if h.working then (h.fill band true).flash else h)

/-- BITMAP_CLEAR_TIMER: bits of regions without a fill in state WRITING and without a band that waits for rebuild are
cleared (R257). -/
def execBitmapClearTimer (s : State) : Host.Outcome State Fault Refusal :=
  s.run (fun h =>
    (upto 2).foldl (fun h side =>
      if h.serves side then
        let keep := ((h.fl.bands.filter (fun b => b.side = side &&
          (b.rebuild || h.fl.jour.any (fun r => r.side = side && r.band = b.num && r.st = 1)))).map h.regions).flatten
        ((h.fl.bitmap.at side).filter (fun r => !(keep.contains r))).foldl (fun h r =>
          (h.setFl { h.fl with bitmap := h.fl.bitmap.put side ((h.fl.bitmap.at side).filter (fun x => x ≠ r)) }).record'
            (.bitmap side r false)) h
      else h) { h with fl := { h.fl with lastBitmap := h.now } })

/-- BAND_RESYNC: a dirty band's turn, where both copies of the stripe journal are lost (R258): its table is taken from its summary, or from
its rows, and its parity is checked. -/
def execBandResync (band : Nat) (s : State) : Host.Outcome State Fault Refusal := s.run (fun h => h.resyncBand band)

/-! ## Pools and volumes (R225, R226) -/

/-- W and P keep R245. -/
def Head.geoOk (h : Head) (w p : Nat) : Bool :=
  decide (1 ≤ w ∧ 1 ≤ p ∧ p ≤ 3 ∧ w + p ≤ 32) && (upto 2).all (fun s => decide (w + p ≤ h.portsOf s))

/-- The nonce of a pool key's wrapping, with its kind and number (R435). -/
def poolNonce (nonce : List Byte) (n : Nat) : List Byte := nonce ++ [1, BitVec.ofNat 8 n]

/-- A wrapped pool key opened with the pair wrapping key (R435). -/
def Head.poolKey (h : Head) (n : Nat) (k : List Byte) : Option (List Byte) :=
  h.keys.pwk.bind (fun p => Config.aeadOpen p (poolNonce (k.take 12) n) (k.drop 12))

/-- A pool as its record gives it, with its key as the ports hold it. -/
def Pool.fresh (n : Nat) (r : PoolRec) (plain : Option (List Byte)) : Pool :=
  { num := n, enc := r.enc, w := r.w, p := r.p, cidxk := r.cidxk, built := false, key := r.key, plain := plain, debit := Two.both 0
    worn := Two.both false, deleting := false }

/-- What a pool's bands were doing stops: fills, programs, relocations. -/
def Head.stopPool (h : Head) (n : Nat) : Head :=
  let on := fun (b : Nat) => (h.band b).any (fun x => x.pool = n)
  let h := (h.fl.gc.filter (fun g => on g.victim)).foldl (fun h g => (h.setGc g true).1) h
  let own := fun (d k : Nat) => h.fl.bands.any (fun b => b.pool = n && b.members.contains (d, k))
  let turn : NOp → NOp := fun o => match o with
    | .program d b _ => if on b then .late d else o
    | .erase d k _ => if own d k then .erase d k none else o
    | _ => o
  h.setFl { h.fl with
    ops := h.fl.ops.map turn
    waits := (h.fl.waits.filter (fun w => match w.1 with | .program _ b _ => !(on b) | _ => true)).map (fun w => (turn w.1, w.2))
    bands := h.fl.bands.map (fun b => if b.pool = n then { b with isOpen := false, closed := true, stage := [], filling := none } else b) }

/-- The dedupe domains and the directories of a pool are no more. -/
def Head.dropDomains (h : Head) (n : Nat) : Head :=
  let of : MPage → Bool := fun p => match p with | .chunks q _ => q = n | .cold q _ => q = n | _ => false
  let h := h.setRed { h.red with
    hot := h.red.hot.filter (fun w => w.e.pool ≠ n), cold := h.red.cold.filter (fun p => p.pool ≠ n)
    evicted := h.red.evicted.filter (fun x => x.1 ≠ n), unread := h.red.unread.filter (fun x => x.1 ≠ n) }
  let h := h.setFl { h.fl with chunks := h.fl.chunks.filter (fun c => c.pool ≠ n) }
  { h with vols := { h.vols with
    dirs := h.vols.dirs.filter (fun x => !(of x.1)), dirty := h.vols.dirty.filter (fun x => !(of x.1))
    copies := h.vols.copies.filter (fun (x : PageCopy) => !(of x.page)) } }

/-- A pool is deleted (R224, R225): its key is destroyed first, then the blocks of its bands are erased, each head's own; it is gone when
they are free. -/
def Head.deletePool (h : Head) (n : Nat) : Head :=
  let h := h.setFl { h.fl with pools := h.fl.pools.map (fun p => if p.num = n then { p with deleting := true, key := none, plain := none } else p) }
  let h := (h.stopPool n).dropDomains n
  let h := h.setFl { h.fl with bands := h.fl.bands.map (fun b => if b.pool = n && h.serves b.side then
    { b with members := b.held.filter (fun m => (h.die m.1).any (fun d => d.state = .inService)), lost := [] } else b) }
  let h := h.setFl { h.fl with bands := h.fl.bands.filter (fun b => !(b.pool = n && b.members.isEmpty)) }
  let h := ((upto 2).filter h.serves).foldl (fun h side => h.resumeErases side) h
  match h.pool n with
  | some p => (h.poolStep p).1
  | none => h

/-- A pool put in place or taken away, as the peer's record says. -/
def Head.putPool (h : Head) (n : Nat) (p : Option PoolRec) : Head :=
  match p with
  | none => if (h.pool n).any (fun x => !x.deleting) then h.deletePool n else h
  | some r =>
    let built := (h.pool n).any (fun x => x.built)
    h.setFl { h.fl with
      pools := h.fl.pools.filter (fun x => x.num ≠ n) ++ [{ Pool.fresh n r (r.key.bind (h.poolKey n)) with built := built }] }

/-- A pool is created (R225): its geometry, DRCFG at its defaults, its key (R435). -/
def Head.createPool (h : Head) (n : Nat) (enc : Bool) (w p k : Nat) : Head :=
  let x := if enc then h.random 76 else (h, [])
  let nonce := (x.2.drop 64).take 12
  let plain := if enc then some (x.2.take 64) else none
  let key := plain.map (fun y => nonce ++ Config.aeadSeal (h.keys.pwk.getD []) (poolNonce nonce n) y)
  let r : PoolRec := ⟨enc, w, p, k, key⟩
  let h := x.1.setFl { x.1.fl with pools := x.1.fl.pools.filter (fun y => y.num ≠ n) ++ [Pool.fresh n r plain] }
  let h := h.store 0 .DRCFG n (regDefault Reg.DRCFG.row n)
  let h := (h.setFld 0 .POOLGEO n 12 8 w).setFld 0 .POOLGEO n 1 0 p
  h.record' (.pool n (some r))

/-- The effect of a write of POOLCTL (R225, Table 8-21). -/
def Head.doPoolctl (h : Head) (c : Caller) (v : Word) : WriteResult :=
  match h.tabref c v 32 with
  | none => h.noWrite .invalid
  | some b =>
    let f := dword b 0
    let n := f 55 48
    let rest := (b.drop 8).all (fun x => x = 0)
    if f 63 56 = 1 then
      if (h.pool n).isSome || !rest || f 46 40 ≠ 0 || f 31 13 ≠ 0 || f 7 2 ≠ 0 || f 39 32 < 10 || 26 < f 39 32 || !(h.geoOk (f 12 8) (f 1 0)) then
        h.noWrite .invalid
      else .ok (h.createPool n (f 47 47 = 1) (f 12 8) (f 1 0) (f 39 32), .ok)
    else if f 63 56 = 2 then
      let busy := h.vols.vols.any (fun x => x.pool = n) || h.tape.weak.any (fun w => w.pool = n) ||
        h.openContracts.any (fun k => (h.vol k.2.volume).any (fun x => x.pool = n))
      if (h.pool n).isNone || (h.pool n).any (fun p => p.deleting) || busy || !rest || f 47 0 ≠ 0 then h.noWrite .invalid
      else .ok ((h.record' (.pool n none)).deletePool n, .ok)
    else h.noWrite .invalid

/-- A write of POOLCTL or VOLCTL answers at once, or, where it began a deletion that goes on, when that ends (R225, R226). -/
def Head.untilGone (h : Head) (x : WriteResult) (going : Head → Bool) (pool : Bool) (n : Nat) : Except Fault Head :=
  match x with
  | .error e => .error e
  | .ok (k, st) =>
    if st = .ok && going k then .ok ({ k with reply := none, vols := { k.vols with ends := k.vols.ends ++ [(pool, n)] } }).settle
    else .ok ((h.answered k st).settle)

/-- POOL_CREATE (R225). -/
def execPoolCreate (c : Caller) (v : Word) (s : State) : Host.Outcome State Fault Refusal :=
  s.write (fun h => h.writeWith c Reg.POOLCTL.row 0 v (fun h => h.doPoolctl c v))

/-- POOL_DELETE (R225): the answer comes when every block of the pool is free. -/
def execPoolDelete (c : Caller) (v : Word) (s : State) : Host.Outcome State Fault Refusal :=
  s.runE (fun h =>
    let n := match h.tabref c v 32 with | some b => dword b 0 55 48 | none => 0
    h.untilGone (h.writeWith c Reg.POOLCTL.row 0 v (fun h => Head.doPoolctl h c v)) (fun h => (h.pool n).any (fun p => p.deleting)) true n)

/-- The effect of a write of VOLCTL (R226, Table 8-22). -/
def Head.doVolctl (h : Head) (c : Caller) (v : Word) : WriteResult :=
  match h.tabref c v 32 with
  | none => h.noWrite .invalid
  | some b =>
    let f := dword b 0
    let n := f 15 0
    let rest := (b.drop 8).all (fun x => x = 0) && f 46 16 = 0
    if f 63 56 = 1 then
      if (h.vol n).isSome || (h.pool (f 55 48)).isNone || (h.pool (f 55 48)).any (fun p => p.deleting) || !rest then h.noWrite .invalid
      else
        let x : Volume :=
          { num := n, pool := f 55 48, home := f 47 47, vend := 0, vepoch := 1, group := 0, writes := [], snaps := []
            parent := none, map := [], emap := [], deleting := false, delFence := [], fixed := [] }
        .ok ((h.setVols (h.vols.vols ++ [x])).record' (.epoch x), .ok)
    else if f 63 56 = 2 then
      match h.vol n with
      | none => h.noWrite .invalid
      | some x =>
        if x.deleting || !rest || f 55 47 ≠ 0 || h.openContracts.any (fun k => k.2.volume = n) || h.volReplicating x ||
            x.group ≠ 0 || decide (0 < x.liveSnaps) || x.snaps.any (fun s => !s.clones.isEmpty) then h.noWrite .invalid
        else
          let fence := (h.work.cmds.filter (fun d => !d.isFinal && (d.side, d.seq) ≠ (c.side, c.seq))).map (fun d => (d.side, d.seq))
          .ok ((h.updVol n (fun x => { x with deleting := true, delFence := fence })).1, .ok)
    else h.noWrite .invalid

/-- VOLUME_CREATE (R226). -/
def execVolumeCreate (c : Caller) (v : Word) (s : State) : Host.Outcome State Fault Refusal :=
  s.write (fun h => h.writeWith c Reg.VOLCTL.row 0 v (fun h => h.doVolctl c v))

/-- VOLUME_DELETE (R226): the answer comes when the volume is gone. -/
def execVolumeDelete (c : Caller) (v : Word) (s : State) : Host.Outcome State Fault Refusal :=
  s.runE (fun h =>
    let n := match h.tabref c v 32 with | some b => dword b 0 15 0 | none => 0
    h.untilGone (h.writeWith c Reg.VOLCTL.row 0 v (fun h => Head.doVolctl h c v)) (fun h => (h.vol n).any (fun x => x.deleting)) false n)

/-! ## Format tables of the media (R211, R212, R221) -/

/-- A family record's fields are in their ranges (Table 8-2). -/
def famRecOk (b : List Byte) : Bool :=
  let f := dword b
  f 0 15 0 = 0 && f 1 15 0 = 0 && decide (2 ≤ f 2 63 56) && decide (f 2 63 56 ≤ 6) && [1, 3, 7, 15].contains (f 2 55 48) &&
    decide (f 2 47 40 ≤ 32) && decide (1 ≤ f 2 39 32) && decide (f 2 39 32 ≤ 15) && decide (10 ≤ f 2 31 24) && decide (f 2 31 24 ≤ 40) &&
    decide (1 ≤ f 2 15 0) && f 4 15 0 = 0 && decide (f 5 63 56 ≤ 1) &&
    decide (f 5 55 40 ≤ (if f 5 63 56 = 0 then 1600 else 3600)) && f 5 39 36 = 0 && f 5 7 0 = 0 && f 6 63 0 = 0 && f 7 63 0 = 0

/-- A die family table is well-formed (R211). -/
def famForm (b : List Byte) : Bool :=
  let n := dword b 0 31 16
  headerForm b n 32 (32 + 576 * n) && (upto n).all (fun k => famRecOk ((b.drop (32 + 576 * k)).take 576))

/-- The families that the bytes hold. -/
def famOf (b : List Byte) : List Family :=
  (upto (dword b 0 31 16)).map (fun k =>
    let r := (b.drop (32 + 576 * k)).take 576
    let f := dword r
    { id := f 0 63 16, mask := f 1 63 16, planes := f 2 63 56, levels := f 2 55 48, nstep := f 2 47 40, softd := f 2 39 32
      tslot := f 2 31 24, feat := f 2 23 16, pelim := f 2 15 0, trTyp := f 3 63 48, trMax := f 3 47 32
      tprogTyp := f 3 31 16, tprogMax := f 3 15 0, tbersTyp := f 4 63 48, tbersMax := f 4 47 32
      poll := f 4 31 16, mode := f 5 63 56, rate := f 5 55 40, flags := BitVec.ofNat 8 (f 5 39 32), susp := f 5 31 24
      resume := f 5 23 16, slcpfx := f 5 15 8
      steps := (upto 32).map (fun i =>
        let s := (r.drop (64 + 16 * i)).take 16
        ((s.take 15).map sbyte, (nth 0 s 15).getLsbD 0, (nth 0 s 15).getLsbD 1)) })

/-- The family of Read ID bytes: the lowest-numbered record that matches. -/
def famIndex (l : List Family) (id : Nat) : Option Nat :=
  (upto l.length).find? (fun k => match l[k]? with | some f => (f.id ^^^ id) &&& f.mask = 0 | none => false)

/-- A table may replace the one in force (R212): every die in service has a record, with the PLANES, LEVELS and PELIM of its
family before. -/
def Head.famsFit (h : Head) (l : List Family) : Bool :=
  (h.sideDies 0 ++ h.sideDies 1).all (fun d => match famIndex l d.id with
    | none => false
    | some k => (match l[k]?, h.fl.fams[d.fam]? with
      | some f, some g => f.planes = g.planes && f.levels = g.levels && f.pelim = g.pelim
      | some _, none => true
      | none, _ => false))

/-- An LDPC selection table is well-formed (R221). -/
def ldpcForm (b : List Byte) : Bool :=
  let n := dword b 0 31 16
  headerForm b n 16 (32 + 16 * n) && (upto n).all (fun k =>
    let f := dword b (4 + 2 * k)
    decide (f 63 48 ≤ f 47 32) && decide (f 31 24 ≤ 3) && decide (256 + 128 * f 31 24 ≤ f 63 48) && decide (1 ≤ f 23 16) &&
      decide (f 23 16 ≤ 64) && decide (1 ≤ f 15 8) && decide (f 15 8 ≤ 64) && f 7 0 = 0 && dword b (5 + 2 * k) 63 0 = 0)

/-- The selection records that the bytes hold. -/
def ldpcOf (b : List Byte) : List LdpcSel :=
  (upto (dword b 0 31 16)).map (fun k =>
    let f := dword b (4 + 2 * k)
    ⟨f 63 48, f 47 32, f 31 24, f 23 16, f 15 8⟩)

/-- A gear table is well-formed (R176). -/
def gearForm (b : List Byte) : Bool :=
  let mn := dword b 2 63 32
  let no := dword b 2 31 0
  let mx := dword b 3 63 32
  b.length = 2096 && dword b 0 31 16 = 0 && decide (4096 ≤ mn) && decide (mn ≤ 65536) && mn % 4096 = 0 && decide (mn ≤ no) &&
    decide (no ≤ mx) && decide (mx ≤ 262144) && mx % 4096 = 0 && dword b 3 31 0 = 0 && dword b 4 63 0 ≠ 0 && dword b 5 63 0 ≠ 0

/-- The gear table that the bytes hold. -/
def gearOf (b : List Byte) : Gear :=
  { version := dword b 0 47 32, minlen := dword b 2 63 32, normlen := dword b 2 31 0, maxlen := dword b 3 63 32
    masks := BitVec.ofNat 64 (dword b 4 63 0), maskl := BitVec.ofNat 64 (dword b 5 63 0)
    gear := (upto 256).map (fun k => BitVec.ofNat 64 (dword b (6 + k) 63 0)) }

/-- A static table is well-formed (R193). SLOT stands in the word of CHK. -/
def huffForm (b : List Byte) : Bool :=
  let ll := (upto 288).map (fun k => (nth 0 b (32 + k)).toNat)
  let dl := (upto 32).map (fun k => (nth 0 b (320 + k)).toNat)
  b.length = 352 && dword b 0 31 16 = 0 && dword b 1 63 36 = 0 && decide (1 ≤ dword b 1 35 32) && dword b 2 63 0 = 0 && dword b 3 63 0 = 0 &&
    (ll.take 257).all (fun n => n ≠ 0) && completeCode ll && (ll.drop 286).all (fun n => n = 0) && (dl.drop 30).all (fun n => n = 0) &&
    (completeCode dl || (sum dl = 1 && dl.all (fun n => decide (n ≤ 1))))

/-- The static table that the bytes hold. -/
def huffOf (b : List Byte) : Huff :=
  { version := dword b 0 47 32, ll := (upto 288).map (fun k => (nth 0 b (32 + k)).toNat)
    dl := (upto 32).map (fun k => (nth 0 b (320 + k)).toNat) }

/-- A format table put in force, on this head (R178, R212). -/
def Head.putTable (h : Head) (typ : Nat) (b : List Byte) : Head :=
  if typ = 1 then h.setRed { h.red with gear := gearOf b }
  else if typ = 2 then h.setRed { h.red with huff := place none h.red.huff (dword b 1 35 32) (some (huffOf b)), huffV := dword b 0 47 32 }
  else if typ = 3 then
    let l := famOf b
    let dies : Sparse (Option Die) := h.fl.dies.map (fun e => (e.1, e.2.map (fun (d : Die) => match famIndex l d.id with
      | some k => { d with fam := k }
      | none => d)))
    h.setFl { h.fl with fams := l, famV := dword b 0 47 32, dies := dies }
  else if typ = 4 then h.setFl { h.fl with ldpc := ldpcOf b, ldpcV := dword b 0 47 32 }
  else if typ = 5 then { h with tape := { h.tape with ladder := ladderOf b } }
  else if typ = 6 then { h with tape := { h.tape with eq := eqOf b } }
  else if typ = 7 then { h with tape := { h.tape with linkT := linkOf b } }
  else h

/-- A table that passes `fits` is put in force on both heads. -/
def Head.loadTable (h : Head) (c : Caller) (v : Word) (typ : Nat) (form fits : List Byte → Bool) : WriteResult :=
  match h.table c v typ form with
  | .error s => h.noWrite s
  | .ok b => if fits b then .ok ((h.putTable typ b).record' (.table typ b), .ok) else h.noWrite .invalid

/-- The load of the table that NFFAM, NFLDPC, DRGEAR or DRHUF names; one of LDPC selections must, as R212 says of families,
leave every die in service with a record. -/
def Head.doTable (h : Head) (c : Caller) (r : Reg) (v : Word) : WriteResult :=
  match r with
  | .NFFAM => h.loadTable c v 3 famForm (fun b => h.famsFit (famOf b))
  | .NFLDPC => h.loadTable c v 4 ldpcForm (fun b =>
    (h.sideDies 0 ++ h.sideDies 1).all (fun d => (ldpcSel (ldpcOf b) d.spare).isSome))
  | .DRGEAR => h.loadTable c v 1 gearForm (fun _ => true)
  | _ => h.loadTable c v 2 huffForm (fun _ => true)

/-- NFFAM_LOAD (R212). -/
def execNffamLoad (c : Caller) (v : Word) (s : State) : Host.Outcome State Fault Refusal :=
  s.write (fun h => h.writeWith c Reg.NFFAM.row 0 v (fun h => h.doTable c .NFFAM v))

/-- NFLDPC_LOAD (R221). -/
def execNfldpcLoad (c : Caller) (v : Word) (s : State) : Host.Outcome State Fault Refusal :=
  s.write (fun h => h.writeWith c Reg.NFLDPC.row 0 v (fun h => h.doTable c .NFLDPC v))

/-- DRGEAR_LOAD (R178). -/
def execDrgearLoad (c : Caller) (v : Word) (s : State) : Host.Outcome State Fault Refusal :=
  s.write (fun h => h.writeWith c Reg.DRGEAR.row 0 v (fun h => h.doTable c .DRGEAR v))

/-- DRHUF_LOAD (R193). -/
def execDrhufLoad (c : Caller) (v : Word) (s : State) : Host.Outcome State Fault Refusal :=
  s.write (fun h => h.writeWith c Reg.DRHUF.row 0 v (fun h => h.doTable c .DRHUF v))

end Sys2Proof.Machine
end

