-- ==== Sys2Proof/Machine/PairLink.lean ====
section
/-! DEFINITION. The pair link as received (R14, R268, R273, R278-R289, R435, R446): training, control frames, mirrored pages
and records, lost lanes; the power-fail warning and the spill's timers (R290-R295). -/

namespace Sys2Proof.Machine

/-! ## Receiving -/

/-- The head takes frames of the pair link. -/
def Head.linked (h : Head) : Bool := h.runs 16 && h.pair.link.state = .up && !h.dark

/-- A channel-0 frame: discarded where its CHK fails (R287). -/
def Head.plCtl (h : Head) (x : PlHead) (f : Head → Head) : Head := if h.linked && x.chkOk then f h else h

/-- The acknowledgement and the credits that a written frame returns (R286, R287); bulk credits are withheld while a pool is
at level 2 (R413). -/
def Head.plAnswer (h : Head) (bulk : Bool) (flits : Nat) : Head :=
  let l := h.pair.link
  let h := h.sendCtl (.ack ((l.rxMir + 4294967295) % 4294967296) ((l.rxBulk + 4294967295) % 4294967296))
  if bulk then
    if h.creditsHeld then h.setLink { h.pair.link with withheld := h.pair.link.withheld + flits } else h.sendCtl (.credit 0 flits)
  else h.sendCtl (.credit flits 0)

/-- A frame of channel 1 or 2 (R287): taken only in SEQ order and where its CHK holds; the first that is not draws one NAK. -/
def Head.plTake (h : Head) (x : PlHead) (bulk : Bool) (fr : PlFrame) (f : Head → Head) : Head :=
  if !h.linked then h
  else
    let l := h.pair.link
    let want := if bulk then l.rxBulk else l.rxMir
    if x.chkOk && x.seq = want then
      let n := (want + 1) % 4294967296
      let h := h.setLink (if bulk then { l with rxBulk := n, nakBulk := false } else { l with rxMir := n, nakMir := false })
      ((f h).plAnswer bulk fr.flits).flash
    else if (if bulk then l.nakBulk else l.nakMir) then h
    else
      (h.setLink (if bulk then { l with nakBulk := true } else { l with nakMir := true })).sendCtl
        (.nak (if bulk then 2 else 1) want)

/-! ## Training (R14, R284, Table 10-3) -/

/-- The width that a number of good lanes gives (Table 10-3). -/
def linkWidth (good : BitVec 32) : Nat :=
  let n := (upto 32).countP (fun k => good.getLsbD k)
  if n = 32 then 32 else if 24 ≤ n then 24 else if 16 ≤ n then 16 else if 8 ≤ n then 8 else 0

/-- Both directions carry the committed load of the head that sends on them (R289). -/
def Head.carries (h : Head) (txw rxw : Nat) : Bool :=
  let cap := nth 0 h.work.cost.caps 1
  let l := h.openContracts.map (fun e => e.2)
  decide (committed l h.side 1 ≤ cap * txw / 32) && decide (committed l h.far 1 ≤ cap * rxw / 32)

/-- The pair wrapping key is exchanged at the first training (R435). -/
def Head.wrapKey (h : Head) : Head :=
  match h.keys.pwk with
  | some _ => h
  | none =>
    let x := h.random 32
    { x.1 with keys := { x.1.keys with pwk := some x.2 } }

/-- A head that rejoins starts from what the survivor holds (R273): of the structures that the pair mirrors its own copies are discarded,
but for its journal, of which it keeps the records up to M, its tape job records and its settings. -/
def Head.discardMirrors (h : Head) (m : Nat) : Head :=
  let h := h.discardAbove m
  let h := { h with
    work := { h.work with contracts := [], streams := [], covers := [], queues := h.work.queues.map (fun (e : Nat × Queue) =>
      (e.1, { e.2 with rst := false, fence := false, abandN := 0, doneN := 0 })) }
    vols := { h.vols with vols := [], cuts := [], atoms := [], deltas := [], dirs := [], dirty := [], copies := [], fines := [], afresh := [], drops := [] }
    net := { h.net with windows := [] } }
  let h := h.setFl { h.fl with jour := [], gc := [], bitmap := Two.both [], bands := [], chunks := [], pools := [], unsync := [] }
  h.setPair { h.pair with
    lehr := [], drawn := [], reps := [], room := Two.both [], newer := [], rejoin := true, solo := false
    fence := { h.pair.fence with peer := .inService } }

/-- The pair link has trained and the sides differ: this head rejoins a peer that serves alone (R273), or is the one that
serves alone and re-mirrors (R281), or both start together. -/
def Head.meet (h : Head) (peerNewest : Nat) (peerAlone : Bool) : Head :=
  let h := if h.runs 1 then h.recorderStart (h.pair.evres.at h.side) else h
  let h := h.wrapKey
  let h := if peerAlone then h else h.setPair { h.pair with peerSize := h.cfgS 2 .LEHRCFG 0 7 0 }
  if h.pair.solo && !(peerAlone && h.side = 1) then
    if h.side = 0 && !h.carries h.pair.link.txw h.pair.link.rxw then h.takeUp else h.startRemirror.takeUp
  else if peerAlone then
    let h := (h.discardMirrors peerNewest).sendCtl (.control .rejoin h.side)
    h.bulk (.copyrec h.keys.fw.said)
  else
    let h := h.setFence { h.pair.fence with peer := .inService }
    (h.record' h.keys.fw.said).takeUp

/-- PL_TRAIN_DONE (R14, R284, R286): credits and sequence numbers start afresh, the sides are exchanged and checked. -/
def execPlTrainDone (txGood rxGood : BitVec 32) (peerSide peerNewest : Nat) (peerAlone : Bool) (s : State) :
    Host.Outcome State Fault Refusal :=
  s.run (fun h =>
    let txw := linkWidth txGood
    let rxw := linkWidth rxGood
    if !h.runs 16 || h.dark || h.pair.link.state = .up || txw = 0 || rxw = 0 then h
    else
      let h := h.setLink { Link.blank with
        state := .up, txGood := txGood, rxGood := rxGood, txw := txw, rxw := rxw, lastHb := h.now
        mir := { TxChan.blank with credit := 16384 }, bulk := { TxChan.blank with credit := 4096 } }
      let h := h.sendCtl (.control .side h.side)
      if peerSide % 2 = h.side then h.sideConflict else h.meet peerNewest peerAlone)

/-! ## Channel 0 -/

/-- PL_HEARTBEAT_RX (R268, R283). -/
def execPlHeartbeatRx (x : PlHead) (newest _st : Nat) (s : State) : Host.Outcome State Fault Refusal :=
  s.run (fun h => h.plCtl x (fun h => h.setLink { h.pair.link with peerSeq := some newest, lastHb := h.now }))

/-- PL_HEARTBEAT_TX: every 10 µs (R268): the newest number of the head's side, and its state. -/
def execPlHeartbeatTx (s : State) : Host.Outcome State Fault Refusal :=
  s.run (fun h =>
    let st := match h.pair.handoff with | some o => if o.mine then 2 else 1 | none => bnat h.pair.solo
    if h.linked then h.sendCtl (.heartbeat (h.jour h.side).newest st) else h)

/-- PL_ACK_RX (R279, R287): mirrored frames are on the peer; everything that waited for them goes on. -/
def execPlAckRx (x : PlHead) (mir bulk : Nat) (s : State) : Host.Outcome State Fault Refusal :=
  s.run (fun h => h.plCtl x (fun h =>
    let l := h.pair.link
    (h.setLink { l with mir := l.mir.acked mir, bulk := l.bulk.acked bulk }).spillStep.flash))

/-- PL_NAK_RX (R287): the frames from the SEQ named are sent again. -/
def execPlNakRx (x : PlHead) (chan seq : Nat) (s : State) : Host.Outcome State Fault Refusal :=
  s.run (fun h => h.plCtl x (fun h =>
    if chan = 1 then h.wire 1 (h.pair.link.mir.from seq)
    else if chan = 2 then h.wire 2 (h.pair.link.bulk.from seq)
    else h))

/-- PL_CREDIT_RX (R286). -/
def execPlCreditRx (x : PlHead) (mir bulk : Nat) (s : State) : Host.Outcome State Fault Refusal :=
  s.run (fun h => h.plCtl x (fun h =>
    let l := h.pair.link
    let m := l.mir.credits mir
    ((h.setLink { l with mir := m.1, bulk := { l.bulk with credit := l.bulk.credit + bulk } }).wire 1 m.2).bulkGo))

/-- PL_PFAIL_RX (R290): the peer has seen PFAIL_L low. -/
def execPlPfailRx (x : PlHead) (s : State) : Host.Outcome State Fault Refusal :=
  s.run (fun h => h.plCtl x (fun h => h.beginSpill.spillStep))

/-- PL_CONTROL_RX: side exchange (R14), group give-up (R218), hand-off (R166), rejoin (R273), fence signal (R268), and the
count of live pages at a spill (R292), which needs no act of its own. -/
def execPlControlRx (x : PlHead) (step : CtlStep) (arg : Nat) (s : State) : Host.Outcome State Fault Refusal :=
  s.run (fun h => h.plCtl x (fun h =>
    match step with
    | .side => if arg % 2 = h.side then h.sideConflict else h
    | .groupUp => h
    | .handoffBegin =>
      if arg % 2 ≠ h.side && h.serves (1 - h.side) then
        (if h.pair.handoff.all (fun o => o.step = 6) then (h.enterReturn (1 - h.side)).settle else h)
      else if h.pair.handoff.isSome then h
      else if arg % 2 = h.side then h.enterHandoff (arg / 2 % 2 = 1)
      else if h.whole then h.beginHandoff (1 - h.side) (arg / 2 % 2 = 1)
      else h
    | .handoffGiven =>
      if arg % 2 = h.side then (if h.pair.rejoin then h.takeBack else h)
      else
        (match h.pair.handoff with
         | some o => if !o.mine && o.step = 1 then h.takeOn o.side o.act else h
         | none => h)
    | .rejoin => if h.pair.solo && !h.pair.remir then h.startRemirror else h
    | .remirrored => if h.pair.rejoin then h.beginReturn else h
    | .fatal => h.assertFence
    | .spillCount => h))

/-! ## Mirrored pages and records (R278, R281) -/

/-- What a record replaces, by a structure and two numbers: the copy of R281 brings no older state of it (R150, R281). -/
def PRec.keys : PRec → List (Nat × Nat × Nat)
  | .journal s r => [(1, s, r.seq % ringSlots)]
  | .held s r => [(2, s, r.seq)]
  | .delta s n _ => [(3, s, n)]
  | .media s _ => [(28, s, 0)]
  | .stripe s _ b _ row _ _ _ => [(4, s * 4294967296 + b, row)]
  | .bitmap s i _ => [(5, s, i)]
  | .gcSlot s i _ _ _ => [(6, s, i)]
  | .ledger c _ => [(7, c, 0)]
  | .costTab _ => [(8, 0, 0)]
  | .pageTab o p _ _ => [(9, o, p)]
  | .atomic a _ => [(10, a.side, a.vid)]
  | .epoch v => [(11, v.num, 0)]
  | .volGone v => [(11, v, 0)]
  | .repl r _ => [(12, r, 0)]
  | .spill s _ _ => [(13, s, 0)]
  | .setting c reg i _ => [(14, c * 4294967296 + reg, i)]
  | .evres s _ => [(15, s, 0)]
  | .tapeJob s p _ => [(16, s, p)]
  | .window w => [(17, w.side, w.idx)]
  | .winGone s i => [(17, s, i)]
  | .queue s q _ _ _ _ _ => [(18, s, q)]
  | .final s r hd vs atoms =>
    (if hd then (2, s, r.seq) else (1, s, r.seq % ringSlots)) ::
      ((vs.map (fun v => (11, v.num, 0))) ++ (atoms.map (fun a => (10, a.side, a.vid))))
  | .seal w acc => (17, w.side, w.idx) :: (match acc with | some (s, r) => [(1, s, r.seq % ringSlots)] | none => [])
  | .cover s n _ => [(19, s, n)]
  | .stream s n _ => [(20, s, n)]
  | .cuts g _ vs => (21, g, 0) :: vs.map (fun v => (11, v.num, 0))
  | .room s _ => [(22, s, 0)]
  | .ledgerAsk _ _ _ => []
  | .image _ _ _ => []
  | .confirm => []
  | .images _ _ _ => []
  | .ledgerSay _ _ _ => []
  | .key k _ => [(23, k, 0)]
  | .hkey k _ => [(24, k, 0)]
  | .table n _ => [(25, n, 0)]
  | .pool n _ => [(26, n, 0)]

/-- What the mirror channel brings while this head is re-mirrored is newer than the copy's (R281). -/
def Head.noteNewer (h : Head) (l : List (Nat × Nat × Nat)) : Head :=
  if h.pair.rejoin then h.setPair { h.pair with newer := l.filter (fun k => !(h.pair.newer.contains k)) ++ h.pair.newer } else h

/-- The copy brings something that the mirror channel has brought already. -/
def Head.outdated (h : Head) (l : List (Nat × Nat × Nat)) : Bool := h.pair.rejoin && l.any h.pair.newer.contains

/-- Bytes written into this head's copy of a page. -/
def Head.pageIn (h : Head) (o p off : Nat) (b : List Byte) : Head :=
  let h := h.unspill [o * 1048576 + p]
  h.setPair { h.pair with lehr := h.pair.lehr.map (fun e => if e.o = o && e.p = p then e.write off b else e) }

/-- The bytes of a PLACE frame stay placed in the window whose memory holds the page (R142). -/
def Head.notePlaced (h : Head) (o p off n : Nat) : Head :=
  let id := o * 1048576 + p
  match h.net.windows.find? (fun w => !w.out && !w.unmir && w.pages.contains id) with
  | some w => h.updWindow' w.side w.idx (fun w => { w with placed := addRange w.placed (65536 * w.pages.idxOf id + off) n })
  | none => h

/-- An entry of the lehr page table: use 0 frees the page. -/
def Head.pageTab (h : Head) (o p use key : Nat) : Head :=
  let rest := h.pair.lehr.filter (fun e => !(e.o = o && e.p = p))
  if use = 0 then (h.unspill [o * 1048576 + p]).setPair { (h.unspill [o * 1048576 + p]).pair with lehr := rest, drawn := h.pair.drawn.filter (fun d => d.1 ≠ o * 1048576 + p) }
  else if (h.page (o * 1048576 + p)).isSome then
    h.setPair { h.pair with lehr := h.pair.lehr.map (fun e => if e.o = o && e.p = p then
      { e with use := if use = 1 then .window else .image, key := key } else e) }
  else h.setPair { h.pair with lehr := h.pair.lehr ++ [⟨o, p, if use = 1 then .window else .image, key, [], []⟩] }

/-- A record of a side's journal as the peer wrote it (R150). -/
def Journal.take (j : Journal) (r : JRec) : Journal :=
  { j with ring := place JRec.blank j.ring (r.seq % ringSlots) r
           next := if decide ((r.seq + 281474976710656 - j.next) % 281474976710656 < 140737488355328) then nextSeq r.seq else j.next }

/-- A record of a side's held table as the peer wrote it. -/
def Journal.takeHeld (j : Journal) (r : JRec) : Journal :=
  if j.held.any (fun e => e.1.seq = r.seq) then (j.write r).1 else j.hold r

/-- The copy of a register in which a setting of the peer stands here: H registers of the peer have a copy of their own. -/
def Head.peerSetting (h : Head) (copy reg idx : Nat) (w : Word) : Head :=
  match rowOfKey (reg * 1048576) with
  | none => h
  | some d => h.store (if d.scope = .H then 2 else copy) d.reg idx w

/-- The holder of the ledger decides what the other head's verb asks (R92): the decision is a record of the ledger, and the answer
follows it. A head that no longer holds the ledger does not decide. -/
def Head.decideFor (h : Head) (vid c : Nat) (k : Option Contract) : Head :=
  if !h.ledger then h
  else
    match k with
    | some k =>
      (match h.decideOpen k with
       | .error r => h.record' (.ledgerSay vid r.1 r.2)
       | .ok x => x.1.record' (.ledgerSay vid .ok (BitVec.ofNat 64 x.2.2)))
    | none =>
      (match h.decideClose c with
       | .error s => h.record' (.ledgerSay vid s 0)
       | .ok x => x.1.record' (.ledgerSay vid .ok 0))

/-- The holder's decision has come (R92): the verb that asked has its effect, or its refusal. -/
def Head.ledgerSaid (h : Head) (vid : Nat) (st : Status) (w : Word) : Head :=
  h.setVerbs (h.work.verbs.map (fun v => if v.vid = vid && v.aw = .ledger then
    { v with aw := .nothing, past := decide (st = .ok), res := ⟨st, w, 0, false⟩ } else v))

/-- A record of a mirrored structure is written (Table 10-2, PREC). -/
def Head.applyRec (h : Head) (r : PRec) : Head :=
  match r with
  | .journal s r => h.setJour s ((h.jour s).take r)
  | .held s r => h.setJour s ((h.jour s).takeHeld r)
  | .delta s n d => { h with vols := { h.vols with ndelta := h.vols.ndelta.put s n, deltas := h.vols.deltas ++ [d] } }
  | .media s m => h.takeMedia s m
  | .stripe s _ b st row stt m w =>
    let rest := h.fl.jour.filter (fun x => !(x.side = s && x.band = b && x.row = row))
    h.setFl { h.fl with jour := if stt = 0 then rest else rest ++ [⟨s, b, st, row, stt, m, w⟩] }
  | .bitmap s i on =>
    let l := (h.fl.bitmap.at s).filter (fun k => k ≠ i)
    h.setFl { h.fl with bitmap := h.fl.bitmap.put s (if on then i :: l else l) }
  | .gcSlot s i v d st =>
    let rest := h.fl.gc.filter (fun x => !(x.side = s && x.idx = i))
    h.setFl { h.fl with gc := if st = 0 then rest else
      rest ++ [⟨s, i, v, if st = 1 then none else some d, if st = 1 then .copy else if st = 2 then .map none else if st = 3 then .erase else .done,
        (match h.band v with | some b => if st = 3 then b.members else [] | none => []), 0⟩] }
  | .ledger c k =>
    let h := { h with
      work := { h.work with contracts := place none h.work.contracts c k }
      pair := { h.pair with drawn := if k.isSome then h.pair.drawn else h.pair.drawn.filter (fun d => d.2 ≠ c) } }
    h.freeClosed c
  | .costTab t => { h with work := { h.work with cost := t } }
  | .pageTab o p u key => h.pageTab o p u key
  | .atomic a free =>
    let rest := h.vols.atoms.filter (fun (x : ASlot) => !(x.side = a.side && x.vid = a.vid))
    { h with vols := { h.vols with atoms := if free then rest else rest ++ [a] } }
  | .epoch v => h.setVols ((h.vols.vols.filter (fun x => x.num ≠ v.num)) ++ [v])
  | .volGone v => h.setVols (h.vols.vols.filter (fun x => x.num ≠ v))
  | .repl r x => h.setPair { h.pair with reps := place none h.pair.reps r x }
  | .spill s st n => h.setSpill s { h.spillOf s with rcd := st, n := n }
  | .setting c reg i w => h.peerSetting c reg i w
  | .evres s n => h.setPair { h.pair with evres := h.pair.evres.put s n }
  | .tapeJob s p j => h.setPair { h.pair with jobs := place none h.pair.jobs (2 * s + p) j }
  | .window w => h.setWindows ((h.net.windows.filter (fun x => !(x.side = w.side && x.idx = w.idx))) ++ [w])
  | .winGone s i => h.setWindows (h.net.windows.filter (fun x => !(x.side = s && x.idx = i)))
  | .queue s q n rst fence a d => h.updQueue s q (fun x => { x with qnext := n, rst := rst, fence := fence, abandN := a, doneN := d })
  | .final s r hd vs atoms =>
    let h := h.setJour s (if hd then (h.jour s).takeHeld r else (h.jour s).take r)
    let h := h.setVols ((h.vols.vols.filter (fun x => !(vs.any (fun v => v.num = x.num)))) ++ vs)
    { h with vols := { h.vols with
      atoms := (h.vols.atoms.filter (fun x => !(atoms.any (fun a => a.side = x.side && a.vid = x.vid)))) ++ atoms } }
  | .seal w acc =>
    let h := h.setWindows ((h.net.windows.filter (fun x => !(x.side = w.side && x.idx = w.idx))) ++ [w])
    (match acc with | some (s, r) => h.setJour s ((h.jour s).take r) | none => h)
  | .cover s n l => { h with work := { h.work with covers := (h.work.covers.filter (fun x => x.1 ≠ (s, n))) ++ (if l.isEmpty then [] else [((s, n), l)]) } }
  | .stream s n q => { h with work := { h.work with streams := place 0 h.work.streams (sq s n) q } }
  | .cuts g n vs =>
    let h := h.setVols ((h.vols.vols.filter (fun x => !(vs.any (fun v => v.num = x.num)))) ++ vs)
    { h with vols := { h.vols with cuts := place 0 h.vols.cuts g n } }
  | .room s l => h.setPair { h.pair with room := h.pair.room.put s l }
  | .ledgerAsk vid c k => h.decideFor vid c k
  | .ledgerSay vid st w => h.ledgerSaid vid st w
  | .table t b => h.putTable t b
  | .image off n b => h.imagePart off n b
  | .confirm => let h := h.confirmOwn; (h.setFw { h.keys.fw with peerConf := true }).record' h.keys.fw.said
  | .images v st c => h.setFw { h.keys.fw with peerVer := v, peerStaged := st, peerConf := c }
  | .pool n p => h.putPool n p
  | .hkey i k => { h with keys := { h.keys with hkeys := place none h.keys.hkeys i (k.map (fun e => ⟨e.1.length, e.2, e.1⟩)) } }
  | .key i k => { h with keys := { h.keys with slots := place none h.keys.slots i (k.map (fun e => ⟨e.1, e.2⟩)) } }

/-- PL_PLACE_RX (R278). -/
def execPlPlaceRx (x : PlHead) (o p off : Nat) (bytes : List Byte) (s : State) : Host.Outcome State Fault Refusal :=
  s.run (fun h => h.plTake x false (.place o p off bytes) (fun h =>
    if h.pair.rejoin then
      (((if (h.page (o * 1048576 + p)).isSome then h else h.pageTab o p 1 0).pageIn o p off bytes).noteNewer [(27, o, p)])
    else (h.pageIn o p off bytes).notePlaced o p off bytes.length))

/-- PL_LPAGE_RX (R278). -/
def execPlLpageRx (x : PlHead) (o p use key : Nat) (s : State) : Host.Outcome State Fault Refusal :=
  s.run (fun h => h.plTake x false (.lpage o p use key) (fun h =>
    (h.pageTab o p use key).noteNewer [(9, o, p), (27, o, p)]))

/-- PL_PREC_RX (R278). -/
def execPlPrecRx (x : PlHead) (r : PRec) (s : State) : Host.Outcome State Fault Refusal :=
  s.run (fun h => h.plTake x false (.prec r) (fun h => ((h.noteNewer r.keys).applyRec r).settle))

/-- PL_COPYPAGE_RX (R281, R296): a whole page of this head's copy; a command that waited for its entry image is re-run. What the mirror
channel has brought since is newer. -/
def execPlCopypageRx (x : PlHead) (o p off : Nat) (bytes : List Byte) (s : State) : Host.Outcome State Fault Refusal :=
  s.run (fun h => h.plTake x true (.copypage o p off bytes) (fun h =>
    if h.outdated [(27, o, p)] then h
    else
      let h := if (h.page (o * 1048576 + p)).isSome then h else h.pageTab o p 1 0
      let h := h.pageIn o p off bytes
      ((upto 2).foldl (fun h s => if h.work.cmds.any (fun c => c.await && c.side = s) then h.replay s [] false else h) h).settle))

/-- PL_COPYREC_RX (R281). -/
def execPlCopyrecRx (x : PlHead) (r : PRec) (s : State) : Host.Outcome State Fault Refusal :=
  s.run (fun h => h.plTake x true (.copyrec r) (fun h => if h.outdated r.keys then h else h.applyRec r))

/-! ## Lanes (R288, R289) -/

/-- PL_LANE_BAD: a direction retrains on its good lanes (R288). -/
def execPlLaneBad (out : Bool) (good : BitVec 32) (s : State) : Host.Outcome State Fault Refusal :=
  s.run (fun h =>
    if !h.linked then h
    else
      let l := h.pair.link
      h.setLink (if out then { l with state := .training, txGood := l.txGood &&& good }
        else { l with state := .training, rxGood := l.rxGood &&& good }))

/-- PL_RETRAIN_DONE: the direction runs at its new width; unacknowledged frames are sent again; where a direction no longer
carries the committed load, side 0 fences side 1 (R288, R289). -/
def execPlRetrainDone (out : Bool) (good : BitVec 32) (s : State) : Host.Outcome State Fault Refusal :=
  s.run (fun h =>
    if !h.runs 16 || h.pair.link.state ≠ .training then h
    else
      let l := h.pair.link
      let g := (if out then l.txGood else l.rxGood) &&& good
      let w := linkWidth g
      let l := if out then { l with txGood := g, txw := w } else { l with rxGood := g, rxw := w }
      let h := (h.setLink { l with state := if w = 0 then .down else .up }).event 0x0706 1 0xFF 8 0 (bnat (!out)) w 0
      if w = 0 then h
      else
        let h := (h.wire 1 h.pair.link.mir.unacked).wire 2 h.pair.link.bulk.unacked
        if h.side = 0 && h.pair.fence.peer = .inService && !h.carries h.pair.link.txw h.pair.link.rxw then h.assertFence else h)

/-! ## Power failure (R290-R295, R513) -/

/-- PFAIL_L is seen low. -/
def Head.pfail (h : Head) : Head :=
  let h := { h with sys := { h.sys with pins := { h.sys.pins with pfailL := false } } }
  if h.runs 0 then h.beginSpill.spillStep else h

/-- PFAIL_FALL: PFAIL_L is low for `low` ns: ignored below 100 ns and while PWR_OK is low, seen from 1 µs, a free value
between (R513). -/
def execPfailFall (low : Nat) (s : State) : Host.Outcome State Fault Refusal :=
  s.run (fun h =>
    if !h.sys.pins.pwrOk || decide (low < 100) then h
    else if 1000 ≤ low then h.pfail
    else if Config.freeBool h.fresh then h.tick.pfail
    else h.tick)

/-- SPILL_EXCHANGE_TIMEOUT: 200 µs after PFAIL_L the exchange has not completed: the head spills by its own table (R292). -/
def execSpillExchangeTimeout (s : State) : Host.Outcome State Fault Refusal :=
  s.run (fun h => match h.pair.sphase with | .exchange _ => h.spillGo | _ => h)

/-- SPILL_RESET_TIMER: 1 ms after the end of the spill with PWR_OK valid (R295); after a RESET of head scope the reset is the
RESET's own (R161), and a head too hot to serve alone holds itself in reset (R475). -/
def execSpillResetTimer (s : State) : Host.Outcome State Fault Refusal :=
  s.run (fun h => match h.pair.sphase with
    | .done =>
      if !h.sys.pins.pwrOk then h
      else match h.sys.rst.after with
        | some .thermal => h.holdHot
        | some r => h.pulseReset r
        | none => h.pulseReset .watchdog
    | _ => h)

end Sys2Proof.Machine
end

