-- ==== Sys2Proof/Machine/Units.lean ====
section
/-! DEFINITION. The unit verbs of data reduction and stripes (R42-R45, R175, R179, R198-R205, R247, R249), how compression
and decompression units are shared (R201, R202), and the copy engine. -/

namespace Sys2Proof.Machine

/-! ## Issue and memory -/

/-- A unit verb of a thread: below tier F it raises PRIV (R43). `counts` are the operand counts it has. -/
def Head.unitVerb (h : Head) (t vc mask : Nat) (counts : List Nat) (w : VWord) (run : Head → HVerb → Head) : Head :=
  h.issue t w.common (verbLegal mask w) .F (verbUses w) (fun h x =>
    h.issueVerb x t vc w (fun h v => if counts.contains v.ops.length then run h v else h.failVerb v .invalid))

/-- An HBM range that a unit verb may name (R34, R388). -/
def hbmOk (a n : Nat) : Bool := decide (a + n ≤ hbmLimit) && !(inInstr a n)

/-- The answer of a verb that met poison (Table 13-7): its result register keeps its value. -/
def Head.poisonAnswer (h : Head) (v : HVerb) : VRes :=
  let x := h.thread v.t
  match x.verbs.find? (fun o => o.vid = v.vid) with
  | some o => { VRes.fail .poison with result := x.reg o.rd.toNat }
  | none => VRes.fail .poison

/-- Bytes that a unit reads, each with the poison of its word. -/
def Head.unitSee (h : Head) (scr : Bool) (a n : Nat) : List (Byte × Bool) :=
  if n = 0 then []
  else
    let ws := (upto ((a + n - 1) / 8 + 1 - a / 8)).map (fun i => h.unitWord scr (a / 8 + i))
    (((ws.map (fun x => (leBytes 8 x.1.toNat).map (fun b => (b, x.2)))).flatten).drop (a % 8)).take n

/-- Bytes that a unit writes; a word of which some byte depends on poison carries poison (Table 13-7). -/
def Head.unitStore (h : Head) (scr : Bool) (a : Nat) (l : List (Byte × Bool)) : Head :=
  h.unitWrite scr a (l.map (fun x => x.1)) (fun i =>
    let w := a / 8 + i
    ((l.drop (8 * w - a)).take (8 * w + 8 - max a (8 * w))).any (fun x => x.2))

/-! ## Chunking and fingerprints (R175, R179) -/

/-- CHUNK over HBM (Table 7-8). Poison does not change the bytes as read. -/
def Head.doChunk (h : Head) (v : HVerb) : Head :=
  let n := v.arg 1
  let k := v.arg 3
  if n = 0 || 4194304 < n || k = 0 || !(hbmOk (v.arg 0) n) || !(hbmOk (v.arg 2) (4 * k)) then h.failVerb v .invalid
  else
    let cut := h.red.gear.cut (h.unitRead false (v.arg 0) n).1
    let out := cut.take k
    let h := h.unitWrite false (v.arg 2) ((out.map (leBytes 4)).flatten) (fun _ => false)
    h.answerVerb v ⟨if k < cut.length then .outputFull else .ok, pack [(32, sum out), (0, out.length)], 0, false⟩

/-- CHUNK (R175, R203). -/
def execChunk (t : Nat) (w : VWord) (s : State) : Host.Outcome State Fault Refusal :=
  s.run (fun h => h.unitVerb t 0x80 0 [4] w Head.doChunk)

/-- FPRINT over HBM (R179). -/
def Head.doFprint (h : Head) (v : HVerb) : Head :=
  let n := v.arg 1
  if n = 0 || 262144 < n || !(hbmOk (v.arg 0) n) || !(hbmOk (v.arg 2) 32) then h.failVerb v .invalid
  else
    let x := h.unitRead false (v.arg 0) n
    if x.2 then h.answerVerb v (h.poisonAnswer v)
    else (h.unitWrite false (v.arg 2) (Sha.sha256 x.1) (fun _ => false)).answerVerb v (.ok 0)

/-- FPRINT (R179, R203). -/
def execFprint (t : Nat) (w : VWord) (s : State) : Host.Outcome State Fault Refusal :=
  s.run (fun h => h.unitVerb t 0x81 0 [3] w Head.doFprint)

/-! ## Compression and decompression (R198-R205) -/

/-- What a CMPR names: its operands are in their ranges. -/
def Head.cmprOk (h : Head) (v : HVerb) : Bool :=
  let mode := bits v.imm 5 4
  decide (v.arg 0 < 65536) && decide (v.arg 2 ≤ 65536) && decide (1 ≤ v.arg 4) && hbmOk (v.arg 1) (v.arg 2) &&
    hbmOk (v.arg 3) (v.arg 4) && (v.imm % 2 = 0 || (mode ≠ 0 && (mode ≠ 2 || (h.huff (bits v.imm 9 6)).isSome)))

/-- Input bytes the current block still takes (R203, R204). -/
def GSlot.room (g : GSlot) : Nat := if g.nextin - g.blkin = 65536 then 65536 else 65536 - (g.nextin - g.blkin)

/-- A CMPR runs on its unit (R199, R203, R204). -/
def Head.runCmpr (h : Head) (v : HVerb) : Head :=
  let slot := v.arg 0
  let n := v.arg 2
  let final := bit v.imm 1
  if n = 0 && !final then h.answerVerb v (.ok 0)
  else
    let old := h.gslot slot
    match (if v.imm % 2 = 1 then some (GSlot.start 0 (bits v.imm 5 4) (bits v.imm 9 6) (bits v.imm 3 2)) else old) with
    | none => h.failVerb v .invalid
    | some g =>
      if !g.live || g.dir ≠ 0 || g.room < n || n < g.plen then h.failVerb v .invalid
      else
        let x := h.unitRead false (v.arg 1) n
        if x.2 then h.answerVerb v (h.poisonAnswer v)
        else
          let y := g.cmpr x.1 (v.arg 4) final h.huff
          let h := (h.setGslot slot (some y.1)).unitWrite false (v.arg 3) y.2.1 (fun _ => false)
          h.answerVerb v ⟨if y.2.2.2 then .outputFull else .ok, pack [(32, y.2.1.length), (0, y.2.2.1)], 0, false⟩

/-- What a DCMP names: its operands are in their ranges. -/
def dcmpOk (v : HVerb) : Bool :=
  decide (v.arg 0 < 65536) && decide (1 ≤ v.arg 4) && hbmOk (v.arg 1) (v.arg 2) && hbmOk (v.arg 3) (v.arg 4)

/-- One span of a DCMP, of at most 65,536 bytes of output (R200, R201): the head, and the request where it goes on. -/
def Head.runDcmp (h : Head) (v : HVerb) (r : UReq) : Head × Option UReq :=
  let slot := v.arg 0
  match (if v.imm % 2 = 1 && r.wr = 0 then some (GSlot.start 1 0 0 (bits v.imm 2 1)) else h.gslot slot) with
  | none => (h.failVerb v .invalid, none)
  | some g =>
    if !g.live || g.dir ≠ 1 then (h.failVerb v .invalid, none)
    else
      let x := h.unitRead false (v.arg 1 + r.rd) (v.arg 2 - r.rd)
      if x.2 then (h.answerVerb v (h.poisonAnswer v), none)
      else
        let y := g.dcmp x.1 (min 65536 (v.arg 4 - r.wr))
        let wr := r.wr + y.2.1.length
        let rd := r.rd + y.2.2.1
        let word : Word := pack [(32, wr), (0, rd)]
        match y.2.2.2 with
        | .bad => (h.answerVerb v { VRes.fail .checkFail with result := pack [(32, r.wr), (0, r.rd)] }, none)
        | .ok => (((h.setGslot slot (some y.1)).unitWrite false (v.arg 3 + r.wr) y.2.1 (fun _ => false)).answerVerb v
            ⟨.ok, word, 0, false⟩, none)
        | .full =>
          let h := (h.setGslot slot (some y.1)).unitWrite false (v.arg 3 + r.wr) y.2.1 (fun _ => false)
          if wr < v.arg 4 then (h, some { r with wr := wr, rd := rd })
          else (h.answerVerb v ⟨.outputFull, word, 0, false⟩, none)

/-- A unit verb asks for a unit of a kind. Requests of firmware threads have priority 0 (DESIGN CHOICE, log entry 36). -/
def Head.unitAsk (h : Head) (k : Nat) (v : HVerb) : Head := (h.push v .unit).unitJoin k ⟨.verb v.vid, v.arg 0, 0, 0, 0, 0⟩

/-- CMPR (R199, R203, R204). -/
def execCmpr (t : Nat) (w : VWord) (s : State) : Host.Outcome State Fault Refusal :=
  s.run (fun h => h.unitVerb t 0x82 0x3FF [5] w (fun h v => if h.cmprOk v then h.unitAsk 0 v else h.failVerb v .invalid))

/-- DCMP (R200, R203). -/
def execDcmp (t : Nat) (w : VWord) (s : State) : Host.Outcome State Fault Refusal :=
  s.run (fun h => h.unitVerb t 0x83 7 [5] w (fun h v => if dcmpOk v then h.unitAsk 1 v else h.failVerb v .invalid))

/-! ## Stripe parity (R247, R249) -/

/-- The unit length of Table 9-1 is in its range. -/
def ecLen (n : Nat) : Bool := decide (4096 ≤ n) && decide (n ≤ 98304) && n % 4096 = 0

/-- A list of 8-byte entries in HBM, each with its poison. -/
def Head.ecList (h : Head) (a n : Nat) : List (Nat × Bool) :=
  (upto n).map (fun i =>
    let l := h.unitSee false (a + 8 * i) 8
    (leNat (l.map (fun x => x.1)), l.any (fun x => x.2)))

/-- The unit at an entry; an entry that is poisoned makes every word of it so; address 0 reads as zeros. -/
def Head.ecUnit (h : Head) (e : Nat × Bool) (n : Nat) : List (Byte × Bool) :=
  if e.1 = 0 then ecZero n else (h.unitSee false e.1 n).map (fun x => (x.1, x.2 || e.2))

/-- ECENC over HBM (Table 9-1). -/
def Head.doEcenc (h : Head) (v : HVerb) : Head :=
  let w := v.imm % 32 + 1
  let p := bits v.imm 6 5
  let n := v.arg 2
  if p = 0 || !(ecLen n) || !(hbmOk (v.arg 0) (16 * w)) || !(hbmOk (v.arg 1) (8 * p)) then h.failVerb v .invalid
  else
    let src := h.ecList (v.arg 0) (2 * w)
    let dst := h.ecList (v.arg 1) p
    if src.any (fun e => e.1 ≠ 0 && !(hbmOk e.1 n)) || dst.any (fun e => !(hbmOk e.1 n)) then h.failVerb v .invalid
    else
      let ds := (upto w).map (fun m => ecXor (h.ecUnit (nth (0, false) src (2 * m)) n) (h.ecUnit (nth (0, false) src (2 * m + 1)) n))
      let out := (upto p).map (fun j =>
        let y := ecParity j n ds
        if bit v.imm 7 then ecXor y (h.unitSee false (nth (0, false) dst j).1 n) else y)
      let h := (upto p).foldl (fun h j => h.unitStore false (nth (0, false) dst j).1 (nth [] out j)) h
      h.answerVerb v (.ok 0)

/-- ECENC (R249). -/
def execEcenc (t : Nat) (w : VWord) (s : State) : Host.Outcome State Fault Refusal :=
  s.run (fun h => h.unitVerb t 0x84 0xFF [3] w Head.doEcenc)

/-- ECDEC over HBM (Table 9-1). An entry 0 of a position that is not erased is out of range (DEDUCED, log entry 37). -/
def Head.doEcdec (h : Head) (v : HVerb) : Head :=
  let w := v.imm % 32 + 1
  let p := bits v.imm 6 5
  let n := v.arg 2
  let gone := (upto 64).filter (fun m => bit (v.arg 1) m)
  if p = 0 || !(ecLen n) || p < gone.length || gone.any (fun m => decide (w + p ≤ m)) || !(hbmOk (v.arg 0) (8 * (w + p))) ||
      !(hbmOk (v.arg 3) (8 * gone.length)) then h.failVerb v .invalid
  else
    let src := h.ecList (v.arg 0) (w + p)
    let dst := h.ecList (v.arg 3) gone.length
    let used := (upto (w + p)).filter (fun m => !(gone.contains m))
    if used.any (fun m => (nth (0, false) src m).1 = 0 || !(hbmOk (nth (0, false) src m).1 n)) || dst.any (fun e => !(hbmOk e.1 n)) then
      h.failVerb v .invalid
    else
      let ms := (upto (w + p)).map (fun m => if gone.contains m then ecZero n else h.ecUnit (nth (0, false) src m) n)
      match ecData w p n gone ms with
      | none => h.failVerb v .invalid
      | some ds =>
        let h := (upto gone.length).foldl (fun h i =>
          let m := nth 0 gone i
          h.unitStore false (nth (0, false) dst i).1 (if m < w then nth [] ds m else ecParity (m - w) n ds)) h
        let r :=
          if bit v.imm 7 && gone.isEmpty then
            sum (((upto p).filter (fun j =>
              ((ecParity j n ds).map (fun x => x.1)) ≠ ((nth [] ms (w + j)).map (fun x => x.1)))).map (fun j => 2 ^ j))
          else gone.length
        h.answerVerb v (.ok (BitVec.ofNat 64 r))

/-- ECDEC (R249). -/
def execEcdec (t : Nat) (w : VWord) (s : State) : Host.Outcome State Fault Refusal :=
  s.run (fun h => h.unitVerb t 0x85 0xFF [4] w Head.doEcdec)

/-! ## Verbs whose operands the spec does not give -/

/-- A verb of which the spec gives the unit but neither operands nor a result: it completes with OK, and its result word is
free (DESIGN CHOICE, log entry 38). -/
def Head.openVerb (h : Head) (v : HVerb) : Head := h.tick.answerVerb v (.ok (Config.freeWord h.fresh))

/-- LDPCS (Table 2-12). -/
def execLdpcs (t : Nat) (w : VWord) (s : State) : Host.Outcome State Fault Refusal :=
  s.run (fun h => h.unitVerb t 0x86 0 (upto 32) w (fun h v => h.openVerb v))

/-- NFOP (Table 2-12). -/
def execNfop (t : Nat) (w : VWord) (s : State) : Host.Outcome State Fault Refusal :=
  s.run (fun h => h.unitVerb t 0x8A 0 (upto 32) w Head.openVerb)

/-- TFMT (Table 2-12). -/
def execTfmt (t : Nat) (w : VWord) (s : State) : Host.Outcome State Fault Refusal :=
  s.run (fun h => h.unitVerb t 0x8B 0 (upto 32) w (fun h v => Head.openVerb h v))

/-- XFER copies between HBM and scratch. The spec does not give its operands: source and destination are named as buffers
are (SP in [59], address in [36:0]), then the length (DESIGN CHOICE, log entry 38). -/
def Head.doXfer (h : Head) (v : HVerb) : Head :=
  let n := v.arg 2
  let place := fun (x : Nat) => (bit x 59, bits x 36 0)
  let ok := fun (x : Nat) => bits x 63 60 = 0 && bits x 58 37 = 0 &&
    (if bit x 59 then decide (bits x 36 0 + n ≤ scrLimit) else hbmOk (bits x 36 0) n)
  if !(ok (v.arg 0)) || !(ok (v.arg 1)) then h.failVerb v .invalid
  else
    let s := place (v.arg 0)
    let d := place (v.arg 1)
    (h.unitStore d.1 d.2 (h.unitSee s.1 s.2 n)).answerVerb v (.ok 0)

/-- XFER (Table 2-12). -/
def execXfer (t : Nat) (w : VWord) (s : State) : Host.Outcome State Fault Refusal :=
  s.run (fun h => h.unitVerb t 0x8C 0 [3] w Head.doXfer)

end Sys2Proof.Machine
end

