-- ==== Sys2Proof/Machine/Destage.lean ====
section
/-! DEFINITION. What events bring to extents: their start, lookups in the cold index (R185, R186), the rebuild of the filter (R183), page
reads (R222), the boundaries at which compression and decompression units change requests (R201, R202). -/

namespace Sys2Proof.Machine

/-- DESTAGE_EXTENT (R171). -/
def execDestageExtent (vol off len : Nat) (s : State) : Host.Outcome State Fault Refusal :=
  s.run (fun h => (h.destage vol off len).flash)

/-! ## The cold index (R183, R185, R186) -/

/-- COLD_LOOKUP_DONE: the page read of a cold lookup has returned within CWAIT (R185). -/
def Head.coldDone (h : Head) (ext i : Nat) : Head :=
  match h.extChunk ext i with
  | none => h
  | some (e, c) =>
    if c.st ≠ .looking then h
    else
      let pool := h.poolOf e.vol
      let ents := ((h.red.cold.filter (fun p => p.pool = pool && p.side = e.side)).map (fun p => p.ents)).flatten
      let x := match ents.find? (fun x => x.2.v && x.2.fp = c.fp) with
        | none => h.unique e c
        | some x => (((h.count .DRCNT 2 1).hotInsert { x.2 with c := true, age := h.work.epochs % 2 ^ 32 })).hit e i c x.2
      x.1.setChunk ext i x.2

/-- COLD_LOOKUP_DONE (R185). -/
def execColdLookupDone (ext chunk : Nat) (s : State) : Host.Outcome State Fault Refusal :=
  s.run (fun h => (h.coldDone ext chunk).flash)

/-- COLD_LOOKUP_TIMEOUT: a cold lookup, or the read of a comparison, has passed CWAIT: it counts as a miss (R185, R188). -/
def Head.coldLate (h : Head) (ext i : Nat) : Head :=
  match h.extChunk ext i with
  | none => h
  | some (e, c) =>
    let waits : Bool := match c.st with | .looking => true | .verifying _ => true | _ => false
    if !waits then h
    else
      let x := (h.count .DRCNT 3 1).unique e c
      x.1.setChunk ext i x.2

/-- COLD_LOOKUP_TIMEOUT (R185). -/
def execColdLookupTimeout (ext chunk : Nat) (s : State) : Host.Outcome State Fault Refusal :=
  s.run (fun h => (h.coldLate ext chunk).flash)

/-- COLD_WRITE_TIMEOUT: an evicted entry could not be written to the cold index within 10 ms and is discarded (R186). -/
def execColdWriteTimeout (i : Nat) (s : State) : Host.Outcome State Fault Refusal :=
  s.run (fun h => h.setRed { h.red with evicted := h.red.evicted.eraseIdx i })

/-- FILTER_PAGE_READ: a cold page has been read in the rebuild of the filter (R183): COLD of the buckets it holds is set. With its last page
a domain is rebuilt. -/
def Head.filterRead (h : Head) (pool side page : Nat) : Head :=
  match h.pool pool with
  | none => h
  | some p =>
    let bs := ((h.red.cold.filter (fun p => p.pool = pool && p.side = side && p.page = page)).map (fun p =>
      (p.ents.filter (fun x => x.2.v)).map (fun x => bucketOf x.2.fp))).flatten
    let read := fun (x : Nat × Nat × List Nat) =>
      if x.1 = pool && x.2.1 = side && decide (page < 2 ^ p.cidxk) && !(x.2.2.contains page) then (pool, side, page :: x.2.2) else x
    h.setRed { h.red with
      unread := (h.red.unread.map read).filter (fun x => !(x.1 = pool && x.2.1 = side && x.2.2.length = 2 ^ p.cidxk))
      coldB := bs.foldl (fun l b => if l.contains b then l else b :: l) h.red.coldB }

/-- FILTER_PAGE_READ (R183). -/
def execFilterPageRead (pool side page : Nat) (s : State) : Host.Outcome State Fault Refusal :=
  s.run (fun h => h.filterRead pool side page)

/-! ## Page reads (R222, R223, R259) -/

/-- NAND_READ_DONE (R222, R223). -/
def execNandReadDone (band stripe pos : Nat) (res : List CwResult) (s : State) : Host.Outcome State Fault Refusal :=
  s.run (fun h => (h.readDone band stripe pos res).flash)

/-! ## Units (R201, R202) -/

/-- One input block of a chunk's compression (R172, R199): with the last one its container is whole and its gather slot is free. -/
def Head.packSpan (h : Head) (ext i : Nat) (r : UReq) : Head × Option UReq :=
  match h.extChunk ext i, h.gslot r.slot with
  | some (e, c), some g =>
    if c.st ≠ .packing r.slot then (h, none)
    else
      let src := (c.data.drop r.rd).take 65536
      let rd := r.rd + src.length
      let final := decide (c.data.length ≤ rd)
      let y := g.cmpr src (2 * c.data.length + 4096) final h.huff
      let out := c.cont ++ y.2.1
      if final then
        ((h.setGslot r.slot none).setChunk ext i { c with st := .packed, cont := packContainer (e.fld 61 60) (e.fld 59 56) c.data c.fp out }, none)
      else ((h.setGslot r.slot (some y.1)).setChunk ext i { c with cont := out }, some { r with rd := rd, wr := max 1 out.length })
  | _, _ => (h, none)

/-- One span of a reader's containers (R201): with the last one the reader goes on. -/
def Head.unpackSpan (h : Head) (who : Reader) (r : UReq) : Head × Option UReq :=
  if r.wr + 65536 < r.size then (h, some { r with wr := r.wr + 65536 })
  else
    match who with
    | .verb vid => (h.setVerbs (h.work.verbs.map (fun v => if v.vid = vid && v.aw = .unpack then { v with aw := .reads true } else v)), none)
    | .compare ext i =>
      (match h.extChunk ext i with
       | some (e, c) =>
         (match c.st with
          | .verifying x => let y := h.compared e i c x; (y.1.setChunk ext i y.2, none)
          | _ => (h, none))
       | none => (h, none))
    | who => (h.setRed { h.red with opened := who :: h.red.opened }, none)

/-- A request has had its span on a unit: the head, and the request where it goes on. -/
def Head.unitSpan (h : Head) (k : Nat) (r : UReq) : Head × Option UReq :=
  match r.who with
  | .verb vid =>
    (match h.work.verbs.find? (fun v => v.vid = vid) with
     | none => (h, none)
     | some v => if k = 0 then (h.runCmpr v, none) else h.runDcmp v r)
  | .pack ext i => h.packSpan ext i r
  | .unpack who => h.unpackSpan who r

/-- A unit comes to an input-block or span boundary (R201): the request it works on has had its span, ends or waits again, and the unit
takes the next. -/
def Head.unitSwitch (h : Head) (u : Nat) : Head :=
  if 40 ≤ u then h
  else
    let k := unitKind u
    let x := h.dunit u
    let h : Head := match x.cur with
      | none => h
      | some r =>
        let y := (h.setDunit u { x with cur := none }).unitSpan k r
        (match y.2 with
         | some r => y.1.setWaits k (y.1.red.waits.at k ++ [r])
         | none => y.1)
    (h.unitTake u).unitsTake k

/-- UNIT_SWITCH (R201, R202). -/
def execUnitSwitch (u : Nat) (s : State) : Host.Outcome State Fault Refusal := s.run (fun h => (h.unitSwitch u).flash)

end Sys2Proof.Machine
end

