-- ==== Sys2Proof/Machine/Sorro.lean ====
section
/-! DEFINITION. The Sorro tape format (R313-R343) as functions on bits and bytes: the 24/25 code, spokes and marks, the
Reed-Solomon product code, the rows and tracks of a data set, and the structures that stand in its body. -/

namespace Sys2Proof.Machine

/-! ## The 24/25 channel code (R323) -/

/-- Completions of a code word by the number of bits left, each list by the length of the present run of zeros, once a one has
been written. -/
def codeTab : Nat → List Nat
  | 0 => (upto 10).map (fun z => if z ≤ 5 then 1 else 0)
  | n + 1 =>
    let t := codeTab n
    (upto 10).map (fun z => (if z < 9 then nth 0 t (z + 1) else 0) + nth 0 t 0)

/-- Completions with no one written yet, by the number of zeros written. -/
def codeLead : Nat → Nat → Nat
  | 0, _ => 0
  | n + 1, z => (if z < 4 then codeLead n (z + 1) else 0) + nth 0 (codeTab n) 0

/-- Completions after one more zero, with `n` bits left after it: `none` stands for no one written yet. -/
def codeZero (n : Nat) (started : Bool) (z : Nat) : Nat :=
  if started then (if z < 9 then nth 0 (codeTab n) (z + 1) else 0) else (if z < 4 then codeLead n (z + 1) else 0)

/-- The bits of the value of a rank, most significant first. -/
def codeBits : Nat → Bool → Nat → Nat → List Bool
  | 0, _, _, _ => []
  | n + 1, s, z, v =>
    let c := codeZero n s z
    if v < c then false :: codeBits n s (z + 1) v else true :: codeBits n true 0 (v - c)

/-- The rank of bits among the admissible values; none where they are not admissible. -/
def codeRank : List Bool → Bool → Nat → Option Nat
  | [], s, z => if s && decide (z ≤ 5) then some 0 else none
  | b :: r, s, z =>
    let c := codeZero r.length s z
    if b then (codeRank r true 0).map (fun n => n + c)
    else if z < (if s then 9 else 4) then codeRank r s (z + 1) else none

/-- The code word of three bytes, the bit written first in front. -/
def codeWord (b0 b1 b2 : Byte) : List Bool := codeBits 25 false 0 (b0.toNat * 65536 + b1.toNat * 256 + b2.toNat)

/-- The three bytes of a code word; none where it is not one (R323). -/
def codeBytes (l : List Bool) : Option (List Byte) :=
  match codeRank l false 0 with
  | some v => if v < 16777216 then some [BitVec.ofNat 8 (v / 65536), BitVec.ofNat 8 (v / 256), BitVec.ofNat 8 v] else none
  | none => none

/-- A byte sequence coded, three bytes at a time. -/
def codeRun : List Byte → List Bool
  | a :: b :: c :: r => codeWord a b c ++ codeRun r
  | _ => []

/-- Channel bits with their reliability decoded: bytes with erasure flags (R323, R360). A code word of which some bit has a
reliability below `relmin`, or that is no code word, erases its three bytes. -/
def decodeRun (relmin : Nat) : Nat → List (Bool × Nat) → List (Byte × Bool)
  | 0, _ => []
  | n + 1, l =>
    let w := l.take 25
    let low := w.any (fun x => decide (x.2 < relmin)) || decide (w.length < 25)
    (match codeBytes (w.map (fun x => x.1)) with
     | some b => b.map (fun x => (x, low))
     | none => [(0, true), (0, true), (0, true)]) ++ decodeRun relmin n (l.drop 25)

/-! ## Bits, spokes, marks (R318-R322, R324) -/

/-- The `n` bits of a number, most significant first. -/
def msbBits (n x : Nat) : List Bool := (upto n).map (fun i => bit x (n - 1 - i))

/-- The number that bits spell, most significant first. -/
def msbNat (l : List Bool) : Nat := l.foldl (fun a b => 2 * a + bnat b) 0

/-- The row mark and the header mark (Table 11-3). -/
def rsm : List Bool := msbBits 25 0x01000259
def hsm : List Bool := msbBits 25 0x0100002D

/-- The timing-phase reference and the spoke mark (Table 11-2). -/
def spokeLead : List Bool := msbBits 15 0x5400

/-- The ID field of a spoke from its 16 data bits: a one, then each group of four followed by a one. -/
def spokeId (d : Nat) : List Bool :=
  true :: ((msbBits 4 (d / 4096)) ++ [true] ++ (msbBits 4 (d / 256)) ++ [true] ++ (msbBits 4 (d / 16)) ++ [true] ++ (msbBits 4 d) ++ [true])

/-- The data bits of a spoke: TRK, CNT, PAR. -/
def spokeData (track cnt : Nat) : Nat :=
  let d := track * 1024 + cnt * 2
  d + (msbBits 16 d).countP (fun b => b) % 2

/-- The 36 channel bits of a spoke (R319). -/
def spoke (track cnt : Nat) : List Bool := spokeLead ++ spokeId (spokeData track cnt)

/-- What a spoke's bits say: track and period number; none where PH, SPM or PAR do not hold (R362). -/
def readSpoke (l : List Bool) : Option (Nat × Nat) :=
  if l.length ≠ 36 ∨ l.take 15 ≠ spokeLead then none
  else
    let g := fun (k : Nat) => ((l.drop (16 + 5 * k)).take 4)
    let d := g 0 ++ g 1 ++ g 2 ++ g 3
    if d.countP (fun b => b) % 2 ≠ 0 then none else some (msbNat (d.take 6), msbNat ((d.drop 6).take 9))

/-- The fill sequence. -/
def fillBits (n : Nat) : List Bool := (upto n).map (fun i => i % 2 = 0)

/-- Channel bits of a coded row: its mark and 334 code words. -/
def rowBits : Nat := 8375

/-- Where a row that would start at payload position `p` starts (R322). -/
def rowPlace (p : Nat) : Nat := if 4035 < p % 4060 then (p / 4060 + 1) * 4060 else p

/-- The payload position of the row of an ordinal on its track. -/
def rowStart : Nat → Nat
  | 0 => rowPlace 1337
  | n + 1 => rowPlace (rowStart n + rowBits)

/-- Spoke periods of a data set whose longest track has `n` rows (R320). -/
def periodsOf (n : Nat) : Nat := if n = 0 then 3 else (rowStart (n - 1) + rowBits - 1) / 4060 + 3

/-! ## CRC-16 and CRC-8 (R316, R328) -/

/-- A CRC without reflection: width, polynomial, initial value. -/
def crcPlain (w poly init : Nat) (l : List Byte) : Nat :=
  l.foldl (fun c b => (upto 8).foldl (fun c _ =>
    if 2 ^ (w - 1) ≤ c then ((2 * c) % 2 ^ w) ^^^ poly else 2 * c) (c ^^^ (b.toNat * 2 ^ (w - 8)))) init

/-- HCRC (R328). -/
def crc16 (l : List Byte) : Nat := crcPlain 16 0x1021 0xFFFF l

/-- The CRC of an LPOS field (R316). -/
def crc8 (l : List Byte) : Nat := crcPlain 8 0x07 0 l

/-- The LPOS of the 40 bits of a servo frame's field; none where SYNC or the CRC do not hold. -/
def readLpos (l : List Bool) : Option Nat :=
  let x := msbNat ((l.drop 8).take 24)
  let b := [BitVec.ofNat 8 (x / 65536), BitVec.ofNat 8 (x / 256), BitVec.ofNat 8 x]
  if l.length = 40 ∧ msbNat (l.take 8) = 0xE4 ∧ crc8 b = msbNat (l.drop 32) then some x else none

/-! ## The Reed-Solomon codes (R325) -/

/-- The field polynomial. -/
def rsPoly : Nat := 0x11D

/-- A product of polynomials over the field, lowest degree first. -/
def rsMul (a b : List Nat) : List Nat :=
  (upto (a.length + b.length - 1)).map (fun k =>
    (upto a.length).foldl (fun s i => if i ≤ k then s ^^^ gfMul rsPoly (nth 0 a i) (nth 0 b (k - i)) else s) 0)

/-- The generator of degree 16, highest degree first without its leading 1. -/
def rsGen : List Nat :=
  (((upto 16).foldl (fun g i => rsMul g [gfPow rsPoly 2 i, 1]) [1]).reverse).drop 1

/-- The 16 parity symbols of a message: the remainder of m(x) × x^16. -/
def rsParity (m : List Byte) : List Byte :=
  (m.foldl (fun (r : List Nat) b =>
    let k := b.toNat ^^^ nth 0 r 0
    List.zipWith (fun x g => x ^^^ gfMul rsPoly k g) (r.drop 1 ++ [0]) rsGen) (List.replicate 16 0)).map (BitVec.ofNat 8)

/-- A polynomial's value, lowest degree first. -/
def rsEval (p : List Nat) (x : Nat) : Nat := p.reverse.foldl (fun a c => gfMul rsPoly a x ^^^ c) 0

/-- The 16 syndromes of a received word, symbol 0 the highest coefficient. -/
def rsSyndromes (c : List Nat) : List Nat :=
  (upto 16).map (fun i => let x := gfPow rsPoly 2 i; c.foldl (fun a s => gfMul rsPoly a x ^^^ s) 0)

/-- One step of Berlekamp's iteration on the syndromes modified by the erasures: locator, its companion, register length,
gap, the last discrepancy. -/
def rsStep (syn : List Nat) (s : List Nat × List Nat × Nat × Nat × Nat) (n : Nat) : List Nat × List Nat × Nat × Nat × Nat :=
  let (lam, b, len, gap, last) := s
  let d := (upto (len + 1)).foldl (fun a i => if i ≤ n then a ^^^ gfMul rsPoly (nth 0 lam i) (nth 0 syn (n - i)) else a) 0
  if d = 0 then (lam, b, len, gap + 1, last)
  else
    let k := gfMul rsPoly d (gfInv rsPoly last)
    let sub := List.replicate gap 0 ++ b.map (gfMul rsPoly k)
    let new := (upto (max lam.length sub.length)).map (fun i => nth 0 lam i ^^^ nth 0 sub i)
    if 2 * len ≤ n then (new, lam, n + 1 - len, 1, d) else (new, b, len, gap + 1, last)

/-- The places, from the end of the word, at which a locator vanishes. -/
def rsRoots (lam : List Nat) (n : Nat) : List Nat :=
  (upto n).filter (fun k => rsEval lam (gfPow rsPoly 2 ((255 - k) % 255)) = 0)

/-- Values of errors at known places from the syndromes: the linear equations of the word's check. -/
def rsValues (syn : List Nat) (places : List Nat) : Option (List Nat) :=
  let k := places.length
  (gfSolve rsPoly k ((upto k).map (fun i => (places.map (fun p => gfPow rsPoly (gfPow rsPoly 2 p) i), [nth 0 syn i])))).map
    (fun l => l.map (fun r => nth 0 r 0))

/-- A received word corrected: errors and erasures where 2e + f ≤ 16 (R377). The answer is the word and the number of symbols
that were corrected or erased; none where the word does not decode. -/
def rsDecode (c : List (Byte × Bool)) : Option (List Byte × Nat) :=
  let n := c.length
  let w := c.map (fun x => x.1.toNat)
  let syn := rsSyndromes w
  let era := (upto n).filter (fun k => (nth (0, false) c (n - 1 - k)).2)
  if 16 < era.length then none
  else if syn.all (fun x => x = 0) then some (c.map (fun x => x.1), era.length)
  else
    let gam := era.foldl (fun g k => rsMul g [1, gfPow rsPoly 2 k]) [1]
    let forney := ((rsMul gam syn).take 16).drop era.length
    let s := (upto (16 - era.length)).foldl (rsStep forney) ([1], [1], 0, 1, 1)
    let errs := rsRoots (s.1.take (s.2.2.1 + 1)) n
    if errs.length ≠ s.2.2.1 ∨ 16 < 2 * s.2.2.1 + era.length then none
    else
      let places := errs.filter (fun k => !(era.contains k)) ++ era
      match rsValues syn places with
      | none => none
      | some vs =>
        let fix := places.zip vs
        let out := (upto n).map (fun i =>
          match fix.find? (fun x => x.1 = n - 1 - i) with | some x => nth 0 w i ^^^ x.2 | none => nth 0 w i)
        if (rsSyndromes out).all (fun x => x = 0) then some (out.map (BitVec.ofNat 8), places.length) else none

/-! ## Rows and the product code (R326-R331) -/

/-- Data bytes of a block and of a row; the body's length. -/
def blockData : Nat := 103936
def rowData : Nat := 928
def bodyBytes : Nat := 8388608

/-- Byte n of a body; the bytes after it are 0. -/
def bodyByte (body : List Byte) (n : Nat) : Byte := nth 0 body n

/-- The 928 bytes of a data row. -/
def dataRow (body : List Byte) (b r : Nat) : List Byte := fit 0 rowData ((body.drop (blockData * b + rowData * r)).take rowData)

/-- The 928 bytes of any row of a block: rows 112 to 127 are C2 parity, column by column. -/
def blockRow (body : List Byte) (b r : Nat) : List Byte :=
  if r < 112 then dataRow body b r
  else
    let rows := (upto 112).map (dataRow body b)
    (upto rowData).map (fun c => nth 0 (rsParity (rows.map (fun l => nth 0 l c))) (r - 112))

/-- C1 parity over a row's data: codeword k mod 4, symbol k div 4 (R327). -/
def rowPayload (d : List Byte) : List Byte :=
  let word := fun (j : Nat) => (upto 232).map (fun i => nth 0 d (4 * i + j))
  let par := (upto 4).map (fun j => rsParity (word j))
  d ++ (upto 64).map (fun k => nth 0 (nth [] par (k % 4)) (k / 4))

/-- A row header (Table 11-4). -/
def rowHead (dsn blk row rwseq rewr : Nat) : List Byte :=
  let b := leBytes 2 dsn ++ [BitVec.ofNat 8 blk, BitVec.ofNat 8 row, BitVec.ofNat 8 rwseq, BitVec.ofNat 8 (rewr % 8), 0, 0]
  b ++ leBytes 2 (crc16 b)

/-- The home row at position q of track j (R329): block and row. -/
def homeRow (j q : Nat) : Nat × Nat :=
  if q < 81 then (q, (j + 64 * 162 - 8 * q) % 64) else (q - 81, (j + 64 * 162 - 8 * (q - 81)) % 64 + 64)

/-- A list with an element put in at an index. -/
def putAt {α : Type} (l : List α) (i : Nat) (a : α) : List α := l.take i ++ a :: l.drop i

/-- The rows of a track in order, as (block, row, RWSEQ): home rows with the rewrite rows put in. -/
def DSet.track (d : DSet) (j : Nat) : List (Nat × Nat × Nat) :=
  (d.rewrites.filter (fun r => r.track = j)).foldl (fun l r => putAt l r.ordinal (r.blk, r.row, r.rwseq))
    ((upto 162).map (fun q => let x := homeRow j q; (x.1, x.2, 0)))

/-- Rows of the longest track. -/
def DSet.longest (d : DSet) : Nat := (upto 64).foldl (fun n j => max n (d.track j).length) 0

/-- Spoke periods of a data set. -/
def DSet.periods (d : DSet) : Nat := periodsOf d.longest

/-- The data-set header (Table 11-5) with its check. -/
def DSet.header (d : DSet) (tgen : Nat) : List Byte :=
  let w := fun (fs : List (Nat × Nat)) => leBytes 8 (pack fs).toNat
  let b := w [(48, 0x5D7A), (44, 1), (40, d.dtype), (32, d.rewr), (0, d.dsn)] ++ w [(32, tgen), (24, d.wrap), (0, d.lpos)] ++
    w [(16, d.rec0)] ++ w [(24, d.tcn0)] ++ w [(32, d.idxoff), (0, d.idxlen)] ++ w [(32, d.nrec), (0, d.nchk)] ++
    w [(32, d.job)] ++ List.replicate 40 0
  b.take 88 ++ leBytes 4 (crc32c b) ++ List.replicate 4 0

/-- The channel bits of a row. -/
def DSet.rowChannel (d : DSet) (x : Nat × Nat × Nat) : List Bool :=
  rsm ++ codeRun (rowHead d.dsn x.1 x.2.1 x.2.2 d.rewr ++ rowPayload (blockRow d.body x.1 x.2.1))

/-- The payload bits of a track from a position on: rows with the fill that R322 puts before them. -/
def DSet.rowsFrom (d : DSet) : List (Nat × Nat × Nat) → Nat → List Bool
  | [], _ => []
  | x :: r, p => fillBits (rowPlace p - p) ++ d.rowChannel x ++ d.rowsFrom r (rowPlace p + rowBits)

/-- The payload bits of a track (R320, R321). -/
def DSet.payload (d : DSet) (tgen j : Nat) : List Bool :=
  let l := hsm ++ fillBits 487 ++ hsm ++ codeRun (d.header tgen) ++ d.rowsFrom (d.track j) 1337
  l ++ fillBits (4060 * d.periods - l.length)

/-- The channel bits of a spoke period of a track (R318). -/
def DSet.period (d : DSet) (tgen j i : Nat) : List Bool :=
  spoke j i ++ ((d.payload tgen j).drop (4060 * i)).take 4060

/-- The 64 words of WRITE frame f of a data set (Table 12-2): word t holds 64 channel bits of track t, the earliest in bit 0. -/
def DSet.frame (d : DSet) (tgen f : Nat) : List Word :=
  (upto 64).map (fun t =>
    BitVec.ofNat 64 (msbNat ((((d.period tgen t (f / 64)).drop (64 * (f % 64))).take 64).reverse)))

/-- The track for the rewrite of a row on track `j` (R330): the one, other than `j`, with the fewest rewrite rows, the lowest
number first, and the ordinal of its next row start past `sent` channel bits; none where none has one. -/
def DSet.rewriteAt (d : DSet) (j sent : Nat) : Option (Nat × Nat) :=
  let left := 4060 * (sent / 4096) + (sent % 4096 - 36)
  let next := fun (t : Nat) => (upto ((d.track t).length + 1)).find? (fun k => decide (left ≤ rowStart k))
  let count := fun (t : Nat) => (d.rewrites.filter (fun r => r.track = t)).length
  ((upto 64).foldl (fun (best : Option (Nat × Nat)) t =>
    if t = j then best
    else
      match next t with
      | none => best
      | some k => (match best with
        | some b => if count t < count b.1 then some (t, k) else some b
        | none => some (t, k))) none)

/-! ## Reading a data set (R328, R330, R377) -/

/-- What a row header says, where it is one of a row that exists (R328): DSN, block, row, RWSEQ, COPY. -/
def readRowHead (b : List Byte) : Option (Nat × Nat × Nat × Nat × Nat) :=
  let f := fun (i n : Nat) => leNat ((b.drop i).take n)
  if crc16 (b.take 8) ≠ f 8 2 ∨ 80 < f 2 1 ∨ 127 < f 3 1 then none
  else some (f 0 2, f 2 1, f 3 1, f 4 1, f 5 1 % 8)

/-- C1 on a row's 992 payload bytes (R369, R377): the bytes and the most symbols one of its codewords corrected; none where
one of the four does not decode. -/
def c1Decode (p : List (Byte × Bool)) : Option (List Byte × Nat) :=
  let word := fun (j : Nat) => rsDecode ((upto 248).map (fun i => nth (0, true) p (4 * i + j)))
  match word 0, word 1, word 2, word 3 with
  | some a, some b, some c, some d =>
    let ws := [a.1, b.1, c.1, d.1]
    some ((upto 992).map (fun k => nth 0 (nth [] ws (k % 4)) (k / 4)), max (max a.2 b.2) (max c.2 d.2))
  | _, _, _, _ => none

/-- The copy of a block's row that counts: the highest RWSEQ that passed C1 (R330). -/
def bestRow (rows : List TRow) (b r : Nat) : Option TRow :=
  (rows.filter (fun x => x.blk = b && x.row = r)).foldl (fun best x => match best with
    | some y => if y.rwseq ≤ x.rwseq then some x else some y
    | none => some x) none

/-- C2 on a block: its 112 data rows, and the most symbols one of its codewords corrected; none where one fails. -/
def c2Block (rows : List TRow) (b : Nat) : Option (List (List Byte) × Nat) :=
  let rs := (upto 128).map (fun r => bestRow rows b r)
  let cols := (upto rowData).map (fun c =>
    rsDecode (rs.map (fun x => match x with | some y => (nth 0 y.bytes c, false) | none => (0, true))))
  if cols.any (fun x => x.isNone) then none
  else
    let words := cols.map (fun x => match x with | some y => y.1 | none => [])
    some ((upto 112).map (fun r => words.map (fun w => nth 0 w r)), cols.foldl (fun m x => match x with | some y => max m y.2 | none => m) 0)

/-- The body of a data set from its rows, with the most symbols that one C2 codeword corrected. -/
def c2Decode (rows : List TRow) : Option (List Byte × Nat) :=
  ((upto 81).foldl (fun (acc : Option (List (List Byte) × Nat)) b =>
    match acc, c2Block rows b with
    | some a, some x => some (a.1 ++ x.1, max a.2 x.2)
    | _, _ => none) (some ([], 0))).map (fun x => (x.1.flatten.take bodyBytes, x.2))

/-- What a data-set header says (Table 11-5), where its check and fixed fields hold: the data set without rows, and TGEN. -/
def readHeader (b : List Byte) : Option (DSet × Nat) :=
  let w := fun (k hi lo : Nat) => bits (leNat ((b.drop (8 * k)).take 8)) hi lo
  if b.length ≠ 96 ∨ crc32c (b.take 88 ++ List.replicate 8 0) ≠ w 11 31 0 ∨ w 0 63 48 ≠ 0x5D7A ∨ w 0 47 44 ≠ 1 then none
  else
    some ({ DSet.blank with
      dsn := w 0 31 0, dtype := w 0 43 40, rewr := w 0 35 32, wrap := w 1 31 24, lpos := w 1 23 0, rec0 := w 2 63 16
      tcn0 := w 3 63 24, idxoff := w 4 63 32, idxlen := w 4 31 0, nrec := w 5 63 32, nchk := w 5 31 0, job := w 6 63 32 }, w 1 63 32)

/-! ## Structures in a body (R335-R343) -/

/-- A 64-bit word of fields, little-endian. -/
def w64 (fs : List (Nat × Nat)) : List Byte := leBytes 8 (pack fs).toNat

/-- The label body (Table 11-6). -/
def TLabel.body (l : TLabel) : List Byte :=
  let b := w64 [(48, 0x5D7C), (32, 1), (0, l.tgen)] ++ w64 [(40, l.lpbow), (16, l.lpeow), (8, 128)] ++ leBytes 8 l.time ++
    fit 0 32 l.wkey ++ List.replicate 8 0
  b.take 56 ++ leBytes 4 (crc32c b) ++ List.replicate 4 0

/-- A label read; none where it is none. -/
def readLabel (b : List Byte) : Option TLabel :=
  let b := b.take 64
  let w := fun (k hi lo : Nat) => bits (leNat ((b.drop (8 * k)).take 8)) hi lo
  if crc32c (b.take 56 ++ List.replicate 8 0) ≠ w 7 31 0 ∨ w 0 63 48 ≠ 0x5D7C ∨ w 0 47 32 ≠ 1 then none
  else some ⟨w 0 31 0, w 1 63 40, w 1 39 16, w 2 63 0, (b.drop 24).take 32⟩

/-- The EOD body (Table 11-7) but for the signature and the check: bytes 0 to 143. -/
def eodHead (tgen idxds nidx idxlen prev lastData lastRec lastTcn : Nat) (hash key : List Byte) : List Byte :=
  w64 [(48, 0x5D7D), (0, tgen)] ++ w64 [(32, idxds), (0, nidx)] ++ w64 [(0, idxlen)] ++ w64 [(32, prev), (0, lastData)] ++
    w64 [(16, lastRec)] ++ w64 [(24, lastTcn)] ++ fit 0 64 hash ++ fit 0 32 key

/-- The EOD body from its head and the signature over it. -/
def eodBody (head sig : List Byte) : List Byte :=
  let b := head ++ fit 0 64 sig
  b ++ leBytes 4 (crc32c b) ++ List.replicate 4 0

/-- An EOD body passes its check. -/
def eodOk (b : List Byte) : Bool :=
  leNat ((b.drop 208).take 4) = crc32c (b.take 208) && leNat ((b.drop 6).take 2) = 0x5D7D

/-- Field [hi:lo] of word k of bytes. -/
def wfield (b : List Byte) (k hi lo : Nat) : Nat := bits (leNat ((b.drop (8 * k)).take 8)) hi lo

/-- A directory entry's 32 bytes (Table 11-8). -/
def DirEnt.bytes (e : DirEnt) : List Byte :=
  w64 [(32, e.dsn), (24, e.wrap), (0, e.lpos)] ++ w64 [(60, e.dtype), (56, e.rewr), (0, e.rec0)] ++ w64 [(24, e.tcn0)] ++
    w64 [(32, e.nrec), (0, e.nchk)]

/-- A directory entry read. -/
def readDirEnt (b : List Byte) : DirEnt :=
  ⟨wfield b 0 63 32, wfield b 0 31 24, wfield b 0 23 0, wfield b 1 63 60, wfield b 1 59 56, wfield b 1 47 0, wfield b 2 63 24,
    wfield b 3 63 32, wfield b 3 31 0⟩

/-- The tape index (R337): header, directory, catalogue in ascending order of fingerprint. -/
def tapeIndex (tgen : Nat) (dir : List DirEnt) (catal : List (List Byte × Nat)) : List Byte :=
  let cat := sortBy (fun (x : List Byte × Nat) => beNat x.1) catal
  let h := w64 [(48, 0x5D7E), (32, 1), (0, tgen)] ++ w64 [(32, dir.length)] ++ leBytes 8 cat.length ++ List.replicate 40 0
  h.take 56 ++ leBytes 4 (crc32c h) ++ List.replicate 4 0 ++ (dir.map DirEnt.bytes).flatten ++
    (cat.map (fun x => fit 0 32 x.1 ++ leBytes 8 x.2)).flatten

/-- A tape index read: directory and catalogue; none where its check fails. -/
def readIndex (b : List Byte) : Option (List DirEnt × List (List Byte × Nat)) :=
  let nd := wfield b 1 63 32
  let nc := wfield b 2 63 0
  if crc32c (b.take 56 ++ List.replicate 8 0) ≠ wfield b 7 31 0 ∨ wfield b 0 63 48 ≠ 0x5D7E ∨ b.length < 64 + 32 * nd + 40 * nc then none
  else
    some ((upto nd).map (fun i => readDirEnt ((b.drop (64 + 32 * i)).take 32)),
      (upto nc).map (fun i =>
        let e := (b.drop (64 + 32 * nd + 40 * i)).take 40
        (e.take 32, wfield (e.drop 32) 0 39 0)))

/-- An item with its header and padding (Table 11-9). -/
def item (typ num : Nat) (pay : List Byte) : List Byte :=
  let l := w64 [(56, typ), (0, pay.length)] ++ leBytes 8 num ++ pay
  l ++ List.replicate ((16 - l.length % 16) % 16) 0

/-- A record's payload (Table 11-10): pieces as (TCN, COFF, PLEN), the poison bitmap, padded, where there is one. -/
def recordBytes (vol voff len : Nat) (pieces : List (Nat × Nat × Nat)) (pois : List Byte) : List Byte :=
  let bm := if pois.isEmpty then [] else pois ++ List.replicate ((16 - pois.length % 16) % 16) 0
  let rest := (pieces.map (fun p => w64 [(0, p.1)] ++ w64 [(32, p.2.1), (0, p.2.2)])).flatten ++ bm
  let h := fun (chk : Nat) => w64 [(48, vol), (40, bnat (!pois.isEmpty)), (0, pieces.length)] ++ leBytes 8 voff ++
    w64 [(32, len), (0, chk)] ++ leBytes 8 0
  h (crc32c (h 0 ++ rest)) ++ rest

/-- A record read from its payload; none where its check fails. -/
def readRecord (num dsn : Nat) (b : List Byte) : Option TRec :=
  let n := wfield b 0 31 0
  let z := b.take 16 ++ List.replicate 4 0 ++ b.drop 20
  if crc32c z ≠ wfield b 2 31 0 ∨ n = 0 ∨ 1024 < n ∨ b.length < 32 + 16 * n then none
  else
    some ⟨num, dsn, wfield b 0 63 48, wfield b 1 63 0, wfield b 2 63 32,
      if bit (wfield b 0 63 0) 40 then b.drop (32 + 16 * n) else [],
      (upto n).map (fun i => let p := (b.drop (32 + 16 * i)).take 16; (wfield p 0 39 0, wfield p 1 63 32, wfield p 1 31 0))⟩

/-- A data-set index (Table 11-11): record entries (record, volume, offset, body offset, bytes), chunk entries (TCN, body
offset, container bytes, fingerprint). -/
def dsIndex (recs : List (Nat × Nat × Nat × Nat × Nat)) (chs : List (Nat × Nat × Nat × List Byte)) : List Byte :=
  let rest := (recs.map (fun r => w64 [(16, r.1), (0, r.2.1)] ++ leBytes 8 r.2.2.1 ++ w64 [(32, r.2.2.2.1), (0, r.2.2.2.2)])).flatten ++
    (chs.map (fun c => w64 [(24, c.1)] ++ w64 [(32, c.2.1), (0, c.2.2.1)] ++ fit 0 32 c.2.2.2)).flatten
  let h := fun (chk : Nat) => w64 [(32, recs.length), (0, chs.length)] ++ w64 [(0, chk)]
  h (crc32c (h 0 ++ rest)) ++ rest

/-- The chunk entries of a data set's index: TCN, body offset, container bytes, fingerprint; none where its check fails. -/
def DSet.chunks (d : DSet) : Option (List (Nat × Nat × Nat × List Byte)) :=
  let b := (d.body.drop d.idxoff).take d.idxlen
  if crc32c (b.take 8 ++ List.replicate 4 0 ++ b.drop 12) ≠ wfield b 1 31 0 then none
  else
    some ((upto (wfield b 0 31 0)).map (fun i =>
      let e := (b.drop (16 + 24 * wfield b 0 63 32 + 48 * i)).take 48
      (wfield e 0 63 24, wfield e 1 63 32, wfield e 1 31 0, e.drop 16)))

/-- The records of a data set through its index, in body order. -/
def DSet.records (d : DSet) : List TRec :=
  let b := (d.body.drop d.idxoff).take d.idxlen
  (upto (wfield b 0 63 32)).filterMap (fun i =>
    let e := (b.drop (16 + 24 * i)).take 24
    let o := wfield e 2 63 32
    let h := (d.body.drop o).take 16
    readRecord (wfield e 0 63 16) d.dsn ((d.body.drop (o + 16)).take (wfield h 0 31 0)))

end Sys2Proof.Machine
end

