-- ==== Sys2Proof/Machine/TapeLink.lean ====
section
/-! DEFINITION. The transport links, the servo loop and write inhibition of the tape ports (R345-R357, R365-R368). -/

namespace Sys2Proof.Machine

/-! ## Ports -/

/-- The head with a port replaced. -/
def Head.setPort (h : Head) (p : Nat) (x : Port) : Head := { h with tape := { h.tape with ports := h.tape.ports.put p x } }

/-- A port. -/
def Head.port (h : Head) (p : Nat) : Port := h.tape.ports.at p

/-- A tape counter of a port raised (Table 12-23). -/
def Head.tcount (h : Head) (p n k : Nat) : Head := h.count .TPCNT (16 * p + n) k

/-- The link of a port replaced. -/
def Head.setTl (h : Head) (p : Nat) (l : TLink) : Head := h.setPort p { h.port p with link := l }

/-- The servo of a port replaced. -/
def Head.setServo (h : Head) (p : Nat) (v : Servo) : Head := h.setPort p { h.port p with servo := v }

/-- The words of a frame of a transport link (Table 12-1): the header, with CHK over header and payload, and the payload. -/
def tlFrame (typ seq : Nat) (w : List Word) : List Word :=
  let hd := fun (chk : Nat) => pack [(56, typ), (48, w.length), (32, seq), (0, chk)]
  hd (crc32c ((hd 0 :: w).flatMap (fun x => leBytes 8 x.toNat))) :: w

/-- A frame sent on a transport link (R348): numbered among those of its TYPE; only CONFIG and RUN carry frames. -/
def Head.sendTl (h : Head) (p typ : Nat) (w : List Word) : Head :=
  let l := (h.port p).link
  if l.state = .run || l.state = .config then
    let n := look 0 l.txSeq typ
    (h.setTl p { l with txSeq := place 0 l.txSeq typ ((n + 1) % 65536) }).emit (.tl p (tlFrame typ n w))
  else h

/-! ## CTRL (R351, R352, R366, R367) -/

/-- The step in force: the second pass over a data set that failed is read one step lower (R377). -/
def Port.stepNow (x : Port) : Nat :=
  match x.cur with
  | some d => if x.state = .reading && d.pass = 2 then x.step - 1 else x.step
  | none => x.step

/-- The step's record of the ladder in force. -/
def Port.lstep (x : Port) : LStep := nth ⟨0, 0, 0, 0, 0, 1152⟩ x.ladder.steps x.stepNow

/-- The wrap runs in reverse (R314). -/
def Port.reverse (x : Port) : Bool := x.wrap % 2 = 1

/-- Tape speed in mm/s, smoothed over the last eight servo frames; before any, the step's. -/
def Port.speed (x : Port) : Nat :=
  if x.servo.speeds.isEmpty then x.lstep.speed else sum x.servo.speeds / x.servo.speeds.length

/-- WCLK in kHz: v / 30 nm. -/
def Port.wclk (x : Port) : Nat := x.speed * 100 / 3

/-- ADCR, the rate FS in kHz. -/
def Port.adcr (x : Port) : Nat := x.lstep.fsr * x.wclk / 1024

/-- Every channel bit of the copy being written has been sent and has left the FIFO. -/
def Port.copyOut (x : Port) : Bool :=
  match x.cur with
  | some d => decide (64 * d.periods ≤ d.frames) && x.fifo = 0
  | none => true

/-- WEN: a copy is being written (R371: 0 within a splice). -/
def Port.wen (x : Port) : Bool := x.state = .writing && !x.servo.inh && !x.due && !x.copyOut

/-- A signed 16-bit field of a word. -/
def field16 (i : Int) : Nat := (BitVec.ofInt 16 i).toNat

/-- The CTRL payload (Table 12-4). -/
def Port.ctrl (x : Port) : List Word :=
  [pack [(48, field16 x.servo.act), (32, field16 x.servo.reelA), (16, field16 x.servo.reelB), (15, bnat x.wen),
     (14, bnat x.servo.inh), (13, bnat x.reverse)],
   pack [(32, x.wclk), (0, x.adcr)]]

/-- A CTRL frame sent. -/
def Head.sendCtrl (h : Head) (p : Nat) : Head := if (h.port p).link.state = .run then h.sendTl p 0x02 (h.port p).ctrl else h

/-- A number held within a symmetric range. -/
def clampInt (m x : Int) : Int := if x < -m then -m else if m < x then m else x

/-- TL_CTRL_TIMER (R367): every 20 µs. An idle port sends zero commands (R385); while the tape is positioned the actuator is
ramped, by a law that the spec leaves open. -/
def Head.ctrlTick (h : Head) (p : Nat) : Head :=
  let x := h.port p
  let s := x.servo
  if x.link.state ≠ .run then h
  else
    let still : Bool := x.state = .idle || x.state = .noCartridge
    let i := clampInt 16384 (s.integ + s.pes)
    let act := clampInt 32767 (x.eq.kp * s.pes + x.eq.ki * i + x.eq.kd * (s.pes - s.prev))
    let want := if x.state = .stopped then 0 else x.lstep.speed
    let reel := fun (k : Nat) => Config.reel k x.speed want x.eq.kv (bits x.status.toNat 15 0) x.eq.tenstgt x.eq.kt
    let s : Servo :=
      if still then { s with act := 0, reelA := 0, reelB := 0 }
      else if x.state = .seeking then { s with act := Config.rampAct s.lpos, reelA := reel 0, reelB := reel 1 }
      else { s with integ := i, prev := s.pes, act := act, reelA := reel 0, reelB := reel 1 }
    (h.setServo p s).sendCtrl p

/-- TL_CTRL_TIMER (R367). -/
def execTlCtrlTimer (p : Nat) (s : State) : Host.Outcome State Fault Refusal := s.run (fun h => h.ctrlTick p)

/-! ## Aborts and inhibition (R353, R357, R368, R370, R371) -/

/-- A backhitch begins (R371). -/
def Head.backhitch (h : Head) (p : Nat) : Head :=
  let x := h.port p
  (h.setPort p { x with state := .backhitch, chans := [], servo := { x.servo with okAt := none } }).tcount p 5 1

/-- The data set in progress is aborted: a written one is due again as its next copy (R370), a read one is read again; the tape
goes back. -/
def Head.abortSet (h : Head) (p : Nat) : Head :=
  let x := h.port p
  match x.state with
  | .writing =>
    let due := x.cur.isSome
    (h.setPort p { x with due := x.due || due, fifo := 0, cur := x.cur.map (fun (d : DSet) => { d with again := true }) }).backhitch p
  | .reading => h.backhitch p
  | _ => h

/-- Writing is inhibited (R368): CTRL with INH, the data set aborted; `ctr` is the counter of the cause. -/
def Head.inhibit (h : Head) (p ctr : Nat) : Head :=
  if (h.port p).servo.inh then h
  else
    let h := (h.tcount p ctr 1).setServo p { (h.port p).servo with inh := true }
    (h.sendCtrl p).abortSet p

/-- A link leaves TRAIN, ALIGN, CONFIG or RUN for DOWN (R354): one try; after RETRIES without 1 s in RUN it enters FAULT. -/
def Head.linkDown (h : Head) (p : Nat) : Head :=
  let l := (h.port p).link
  if l.state = .down || l.state = .fault then h
  else
    let tries := (if l.state = .run && decide (l.runAt + 1000000000 ≤ h.now) then 0 else l.tries) + 1
    let bad := decide (l.tab.retries ≤ tries)
    let h := (h.abortSet p).tcount p 15 1
    let s := (h.port p).servo
    let h := h.setServo p { s with inh := true }
    let l' : TLink := { l with
      state := if bad then .fault else .down, tries := tries, ready := false, enOff := false, txw := 0, rxw := 0, rxGood := 0, txGood := 0 }
    let h := h.setTl p l'
    if bad then h.event 0x0801 2 0xFF 6 p l.tlid 0 0 else h

/-- TL_LINK_LOSS (R353). -/
def execTlLinkLoss (p : Nat) (s : State) : Host.Outcome State Fault Refusal := s.run (fun h => h.linkDown p)

/-- The width that good lanes allow (Table 12-8). -/
def widthOf (wide narrow good : Nat) : Nat := if wide ≤ good then wide else if narrow ≤ good then narrow else 0

/-- How many lanes of a mask are good. -/
def lanes (n m : Nat) : Nat := (upto n).countP (fun k => bit m k)

/-- TL_LANE_BAD (R357): a lane went bad; `rx` and `tx` are the lanes left. In RUN the link retrains at the width they allow. -/
def execTlLaneBad (p : Nat) (rx : BitVec 8) (tx : BitVec 4) (s : State) : Host.Outcome State Fault Refusal :=
  s.run (fun h =>
    let h := if (h.port p).link.state = .run then h.linkDown p else h
    h.setTl p { (h.port p).link with rxGood := rx, txGood := tx })

/-- A link that may leave DOWN does so under the table in force (R354, R355). -/
def Head.tryTrain (h : Head) (p : Nat) : Head :=
  let l := (h.port p).link
  if l.state = .down && l.ready && h.cfg .TLCFG p 63 63 = 1 && h.runs 21 then
    h.setTl p { l with state := .train, tab := h.tape.linkT, ready := false }
  else h

/-- TL_RETRY_WAIT (R354). -/
def execTlRetryWait (p : Nat) (s : State) : Host.Outcome State Fault Refusal :=
  s.run (fun h => (h.setTl p { (h.port p).link with ready := true }).tryTrain p)

/-- TL_TRAIN_DONE (R354, R357): the lanes with block lock; below the narrowest width the link cannot leave TRAIN. -/
def execTlTrainDone (p : Nat) (rx : BitVec 8) (tx : BitVec 4) (s : State) : Host.Outcome State Fault Refusal :=
  s.run (fun h =>
    let l := (h.port p).link
    let rw := widthOf 8 4 (lanes 8 rx.toNat)
    let tw := widthOf 4 2 (lanes 4 tx.toNat)
    if l.state ≠ .train || rw = 0 || tw = 0 then h.setTl p (if l.state = .train then { l with rxGood := rx, txGood := tx } else l)
    else h.setTl p { l with state := .align, rxGood := rx, txGood := tx, rxw := rw, txw := tw })

/-! ## CONFIG (R354-R356) -/

/-- A REG word (Table 12-2). -/
def regWord (rd : Bool) (addr data : Nat) : Word := pack [(63, bnat rd), (32, addr % 65536), (0, data % 4294967296)]

/-- The CONFIG program goes on: entry 0 stands for the read of TLID that comes first (R356: Claxis records it; DEDUCED, log entry
50). A WAIT passes without an event of its own. After the last entry the link is in RUN. -/
def configFrom : Nat → Head → Nat → Head
  | 0, h, _ => h
  | fuel + 1, h, p =>
    let l := (h.port p).link
    if l.entry = 0 then h.sendTl p 0x04 [regWord true 0 0]
    else
      match l.tab.entries[l.entry - 1]? with
      | none => h.setTl p { l with state := .run, txSeq := [], rxSeq := [], runAt := h.now, entry := 0 }
      | some e =>
        if e.op = 1 then configFrom fuel (h.setTl p { l with entry := l.entry + 1 }) p
        else h.sendTl p 0x04 [regWord (e.op = 2) e.addr (if e.op = 2 then 0 else e.value)]

/-- TL_ALIGN_DONE (R354). -/
def execTlAlignDone (p : Nat) (s : State) : Host.Outcome State Fault Refusal :=
  s.run (fun h =>
    let l := (h.port p).link
    if l.state ≠ .align then h
    else configFrom 66 (h.setTl p { l with state := .config, entry := 0, txSeq := [], rxSeq := [] }) p)

/-- A frame arrives (R348, R349): it counts as discarded where its check fails; the number expected follows it. -/
def Head.tlSeen (h : Head) (p typ seq : Nat) (ok : Bool) : Head × Bool :=
  let l := (h.port p).link
  if l.state = .run || l.state = .config then
    if ok then (h.setTl p { l with rxSeq := place 0 l.rxSeq typ ((seq + 1) % 65536) }, true) else (h.tcount p 11 1, false)
  else (h, false)

/-- A REGRSP frame (R349, R354, R356): in CONFIG it advances the program, in RUN it fills TLREG. -/
def Head.regRsp (h : Head) (p : Nat) (v : Word) : Head :=
  let l := (h.port p).link
  let data := bits v.toNat 31 0
  if l.state = .run then h.setTl p { l with rsp := v }
  else if l.entry = 0 then configFrom 66 (h.setTl p { l with tlid := data, entry := 1 }) p
  else
    match l.tab.entries[l.entry - 1]? with
    | none => h
    | some e =>
      if e.op = 2 && data ≠ e.value then h.linkDown p
      else configFrom 66 (h.setTl p { l with entry := l.entry + 1 }) p

/-- TL_REGRSP_RX. -/
def execTlRegrspRx (p seq : Nat) (chkOk : Bool) (v : Word) (s : State) : Host.Outcome State Fault Refusal :=
  s.run (fun h =>
    let x := h.tlSeen p 0x13 seq chkOk
    if x.2 then x.1.regRsp p v else x.1)

/-- TL_STATE_TIMEOUT (R354): TTRAIN, TALIGN or TCONFIG has passed. -/
def execTlStateTimeout (p : Nat) (s : State) : Host.Outcome State Fault Refusal :=
  s.run (fun h => if (h.port p).link.state = .run then h else h.linkDown p)

/-! ## Register writes -/

/-- What a write of TLCFG does (R354): EN = 1 lets a link leave DOWN, and 0 and then 1 clears FAULT. A write of 0 takes no link out of
another state (DEDUCED: Table 12-6 names none; log entry 51). -/
def Head.doTlcfg (h : Head) (c : Caller) (p : Nat) (v : Word) : WriteResult :=
  let h := h.setReg c Reg.TLCFG.row p v
  let l := (h.port p).link
  if !(v.getLsbD 63) then .ok (h.setTl p { l with enOff := true }, .ok)
  else if l.state = .fault && l.enOff then
    .ok ((h.setTl p { l with state := .down, tries := 0, ready := true, enOff := false }).tryTrain p, .ok)
  else .ok ((h.setTl p { l with enOff := false }).tryTrain p, .ok)

/-- TLCFG_EN_WRITE (R354). -/
def execTlcfgEnWrite (c : Caller) (p : Nat) (v : Word) (s : State) : Host.Outcome State Fault Refusal :=
  s.write (fun h => h.writeWith c Reg.TLCFG.row p v (fun h => h.doTlcfg c p v))

/-- What a write of TLREG does: a REG frame with its fields. -/
def Head.doTlreg (h : Head) (p : Nat) (v : Word) : WriteResult :=
  let n := v.toNat
  .ok (if (h.port p).link.state = .run then h.sendTl p 0x04 [regWord (bit n 63) (bits n 47 32) (bits n 31 0)] else h, .ok)

/-- TLREG_WRITE (R349, R356). -/
def execTlregWrite (c : Caller) (p : Nat) (v : Word) (s : State) : Host.Outcome State Fault Refusal :=
  s.write (fun h => h.writeWith c Reg.TLREG.row p v (fun h => h.doTlreg p v))

/-- The load of the table that TPLAD, TPEQ or TPLNK names. An equaliser table is INVALID where RWDIST would need SPLICE above 8
(R376); each link takes a link table at its next entry into TRAIN (R355). -/
def Head.doTapeTable (h : Head) (c : Caller) (r : Reg) (v : Word) : WriteResult :=
  match r with
  | .TPLAD => h.loadTable c v 5 ladderForm (fun _ => true)
  | .TPEQ => h.loadTable c v 6 eqForm (fun b => decide (spliceOf (eqOf b).rwdist ≤ 8))
  | _ => h.loadTable c v 7 linkForm (fun _ => true)

/-- TPLAD_LOAD (R375). -/
def execTpladLoad (c : Caller) (v : Word) (s : State) : Host.Outcome State Fault Refusal :=
  s.write (fun h => h.writeWith c Reg.TPLAD.row 0 v (fun h => h.doTapeTable c .TPLAD v))

/-- TPEQ_LOAD (R376). -/
def execTpeqLoad (c : Caller) (v : Word) (s : State) : Host.Outcome State Fault Refusal :=
  s.write (fun h => h.writeWith c Reg.TPEQ.row 0 v (fun h => h.doTapeTable c .TPEQ v))

/-- TPLNK_LOAD (R355). -/
def execTplnkLoad (c : Caller) (v : Word) (s : State) : Host.Outcome State Fault Refusal :=
  s.write (fun h => h.writeWith c Reg.TPLNK.row 0 v (fun h => h.doTapeTable c .TPLNK v))

/-! ## The servo (R365, R366) -/

/-- The sign of the position error at the wrap's boundary. -/
def Port.sigma (x : Port) : Int := if x.wrap % 2 = 0 then 1 else -1

/-- The position error of one element in 0.1 % of p, from tone amplitudes; none where neither tone has energy above the floor. -/
def Port.pesOf (x : Port) (smp : List Int) : Option Int :=
  let a := Config.toneAmp 0 x.adcr x.speed smp.reverse
  let b := Config.toneAmp 1 x.adcr x.speed smp.reverse
  if a ≤ Config.toneFloor && b ≤ Config.toneFloor then none
  else
    let num := x.eq.bscale * b - 4096 * a
    let den := 2 * (x.eq.bscale * b + 4096 * a)
    some ((1000 * x.sigma * num) / den)

/-- The servo target's offset of a read pass (R377): +50 and −50. -/
def passOffset (pass : Nat) : Int := if pass = 4 then 50 else if pass = 5 then -50 else 0

/-- SERVO_PES_UPDATE (R365, R368): the errors of both elements, their mean, and what follows from them. -/
def Head.pesUpdate (h : Head) (p : Nat) : Head :=
  let x := h.port p
  if x.state = .noCartridge || x.state = .idle then h
  else
    let s := x.servo
    let e0 := x.pesOf s.smp0
    let e1 := x.pesOf s.smp1
    let off : Bool := e0.isNone && e1.isNone
    let target := match x.cur with | some d => (if x.state = .reading then passOffset d.pass else 0) | none => 0
    let pes := (match e0, e1 with
      | some a, some b => (a + b) / 2
      | some a, none => a
      | none, some b => b
      | none, none => s.pes + target) - target
    let calm := !off && decide (pes.natAbs ≤ x.eq.pesok)
    let h := h.setServo p { s with
      pes0 := e0.getD s.pes0, pes1 := e1.getD s.pes1, pes := pes, off := off
      okAt := if calm then some (s.okAt.getD h.now) else none }
    if off || decide (x.eq.peslim < pes.natAbs) then h.inhibit p 3 else h

/-- SERVO_PES_UPDATE (R365). -/
def execServoPesUpdate (p : Nat) (s : State) : Host.Outcome State Fault Refusal := s.run (fun h => h.pesUpdate p)

/-- Servo samples of one SAMPLE frame taken (R365, R366): those of the last 8 µs are kept; where a servo frame ends its LPOS and
the tape speed follow. -/
def Port.servoIn (x : Port) (a b : List Int) : Port :=
  let s := x.servo
  let fs := x.adcr
  let keep := max 8 (fs / 500)
  let s0 := (a.reverse ++ s.smp0).take keep
  let s1 := (b.reverse ++ s.smp1).take keep
  let l0 := Config.lposField fs x.speed (a.reverse ++ s.smp0).reverse
  let l1 := Config.lposField fs x.speed (b.reverse ++ s.smp1).reverse
  let since := s.since + 32
  let s : Servo := { s with smp0 := s0, smp1 := s1, since := since }
  if l0.isNone && l1.isNone then { x with servo := s }
  else
    let good := (match (l0.bind readLpos) with | some n => some n | none => l1.bind readLpos)
    let next := if x.reverse then s.lpos - 1 else (s.lpos + 1) % 16777216
    { x with servo := { s with
        lpos := good.getD next, since := 0, speeds := ((192 * fs / since) :: s.speeds).take 8 } }

/-- A low pulse of SHOCKp_L (R368, R513): it acts from 50 ns on and is ignored below 10 ns; between, either may happen. -/
def Head.shock (h : Head) (p low : Nat) : Head :=
  let act := if 50 ≤ low then true else if low < 10 then false else Config.freeBool h.fresh
  let h := if 10 ≤ low && decide (low < 50) then h.tick else h
  if act then (h.setServo p { (h.port p).servo with shkAt := h.now + 1 }).inhibit p 4 else h

/-- SHOCK_INPUT (R368). -/
def execShockInput (p low : Nat) (s : State) : Host.Outcome State Fault Refusal := s.run (fun h => h.shock p low)

/-- A word of TFE status (Table 12-5). -/
def TfeStatus.word (t : TfeStatus) : Word :=
  pack [(63, bnat t.shk), (62, bnat t.winh), (61, bnat t.wfault), (60, bnat t.badw), (59, bnat t.loaded), (58, bnat t.wprot),
    (48, t.fifo % 1024), (32, t.tachA % 65536), (16, t.tachB % 65536), (0, t.tens % 65536)]

/-- A status word arrives (R350, R352, R368, R370): FIFO, cartridge, shock, write faults. -/
def Head.tfeStatus (h : Head) (p : Nat) (t : TfeStatus) : Head :=
  let x := h.port p
  let st : TpState := if !t.loaded then .noCartridge else if x.state = .noCartridge then .stopped else x.state
  let gone := !t.loaded && x.state ≠ .noCartridge
  let x : Port := { x with
    status := t.word, fifo := t.fifo, state := st
    stopAt := if st = .stopped && x.state ≠ .stopped then h.now else x.stopAt
    label := if gone then none else x.label, dir := if gone then [] else x.dir, catal := if gone then [] else x.catal
    cur := if (t.badw || t.wfault) && x.state = .writing then x.cur.map (fun (d : DSet) => { d with again := true }) else x.cur }
  let h := h.setPort p x
  let h := if t.badw then h.tcount p 12 1 else h
  if t.shk then (h.setServo p { x.servo with shkAt := h.now + 1 }).inhibit p 4 else h

end Sys2Proof.Machine
end

