-- ==== Sys2Proof/Machine/TapeChan.lean ====
section
/-! DEFINITION. The read channel of a track (R358-R361) and the search for spokes, headers and rows (R362-R364). -/

namespace Sys2Proof.Machine

/-! ## Detector (R360) -/

/-- A magnetisation as ±1. -/
def pm (b : Bool) : Int := if b then 1 else -1

/-- The target level of five magnetisations, newest first: Σ g[i] × a_(n−i). -/
def level (g : List Int) (a : List Bool) : Int := (List.zipWith (fun k b => k * pm b) g a).foldl (fun s x => s + x) 0

/-- The last four magnetisations of a trellis state, newest first. -/
def stateMags (s : Nat) : List Bool := (upto 4).map (fun i => bit s i)

/-- A path with its reliabilities lowered where its channel bits differ from those of a competing path. -/
def lowerRel (d : Nat) : List (Bool × Nat) → List (Bool × Nat) → List (Bool × Nat)
  | a :: a' :: r, b :: b' :: q =>
    (a.1, if xor a.1 a'.1 = xor b.1 b'.1 then a.2 else min a.2 d) :: lowerRel d (a' :: r) (b' :: q)
  | l, _ => l

/-- A reliability before any comparison. -/
def relMax : Nat := 2 ^ 32

/-- The survivor of a state after one more equalised sample. -/
def survivor (g : List Int) (y : Int) (l : List Surv) (ns : Nat) : Surv :=
  let new := bit ns 0
  let arm := fun (b : Nat) =>
    let s := ns / 2 + 8 * b
    let old := nth ⟨0, []⟩ l s
    let e := y - level g (new :: stateMags s)
    (old.metric + (e * e).natAbs, (new, relMax) :: old.path)
  let a := arm 0
  let b := arm 1
  if a.1 ≤ b.1 then ⟨a.1, (lowerRel (b.1 - a.1) a.2 b.2).take 66⟩ else ⟨b.1, (lowerRel (a.1 - b.1) b.2 a.2).take 66⟩

/-- All 16 survivors after a sample. -/
def viterbi (g : List Int) (y : Int) (l : List Surv) : List Surv := (upto 16).map (survivor g y l)

/-- The survivor of least metric. -/
def bestSurv (l : List Surv) : Surv := l.foldl (fun b s => if s.metric < b.metric then s else b) (nth ⟨0, []⟩ l 0)

/-! ## One channel bit (R358-R360) -/

/-- A channel that begins. -/
def Chan.start (t : Target) : Chan :=
  { o := 0, a := 0, gain := 0, c := t.c0, f := 0, tau := 0, zs := [], nz := 0, nr := 0, rs := [], ur := [], ys := [], ds := []
    surv := List.replicate 16 ⟨0, []⟩, mags := [], zsum := 0, zcnt := 0, miss := 0, missSp := 0, found := false, bits := []
    period := 0, pay := [], row := 0, head := false }

/-- The channel bit that the format fixes at the place of the next bit decided: PH and SPM of a spoke, the lock pattern of a
header block (R359); whether the loops run in their acquisition settings there. -/
def Chan.known (c : Chan) : Option Bool × Bool :=
  let n := c.bits.length
  let inner := n % 4096
  let pp := 4060 * (c.period + n / 4096) + (inner - 36)
  if !c.found then (none, false)
  else if inner < 15 then (spokeLead[inner]?, false)
  else if 36 ≤ inner ∧ 25 ≤ pp ∧ pp < 512 then (some ((pp - 25) % 2 = 0), true)
  else (none, false)

/-- The loops of R359 at the bit just decided: `d` its target level, `acq` the acquisition settings. -/
def Chan.adapt (e : EqTab) (c : Chan) (d d1 : Int) (acq : Bool) : Chan :=
  match nth none c.ur 71 with
  | none => { c with tau := c.tau + c.f }
  | some u =>
    let y := nth 0 c.ys 64
    let y1 := nth 0 c.ys 65
    let err := d - y
    let mu := if acq then e.muacq else e.mutrk
    let ki := if acq then e.kiacq else e.kitrk
    let kp := if acq then e.kpacq else e.kptrk
    let te := y * d1 - y1 * d
    let f := c.f + te >>> ki
    { c with
      a := clampInt 127 (c.a + (err * u * u) >>> e.asymsh)
      c := (upto 15).map (fun k => nth 0 c.c k + (err * nth 0 c.rs (64 + k)) >>> mu)
      f := f, tau := c.tau + f + te >>> kp }

/-- The end of a spoke period: the gain follows the mean of |z| (R359). -/
def Chan.gainTurn (e : EqTab) (c : Chan) : Chan :=
  let g : Int := (c.zsum / max 1 c.zcnt : Nat) - e.lgt
  let k := if 1 < g then c.gain - 1 else if g < -1 then c.gain + 1 else c.gain
  { c with gain := if k < 0 then 0 else if 255 < k then 255 else k, zsum := 0, zcnt := 0 }

/-- A channel bit: its sample `r` (`u` beside it; none where the samples are missing) passes equaliser and detector; the bit 71
places back is decided. -/
def Chan.bit (e : EqTab) (g : List Int) (c : Chan) (r : Int) (u : Option Int) : Chan :=
  let rs := (r :: c.rs).take 80
  let y := ((List.zipWith (fun a b => a * b) c.c rs).foldl (fun s x => s + x) 0) >>> (13 : Nat)
  let surv := viterbi g y c.surv
  let c : Chan := { c with rs := rs, ur := (u :: c.ur).take 72, ys := (y :: c.ys).take 66, surv := surv, nr := c.nr + 1 }
  match (bestSurv surv).path[64]? with
  | none => c
  | some x =>
    let k := c.known
    let prev := nth true c.mags 0
    let mag := match k.1 with | some b => xor prev b | none => x.1
    let lost := decide (4 ≤ c.miss) || (nth none c.ur 71).isNone
    let rel := if lost then 0 else min 255 (Config.relScale x.2)
    let mags := (mag :: c.mags).take 5
    let d := level g mags
    let c := ({ c with mags := mags, bits := c.bits ++ [(xor prev x.1, rel)] }).adapt e d (nth 0 c.ds 0) k.2
    let c : Chan := { c with ds := [d] }
    if (if c.found then c.bits.length else c.nr) % 4096 = 0 then c.gainTurn e else c

/-- Channel bits interpolated up to the newest sample (R358); at most two, since FS is above the channel bit rate. -/
def Chan.resample (e : EqTab) (g : List Int) (fsr : Nat) : Nat → Chan → Option Int → Chan
  | 0, c, _ => c
  | n + 1, c, u =>
    if Config.bitPlace c.nr c.tau fsr < c.nz then
      Chan.resample e g fsr n (c.bit e g (match u with | some _ => Config.interpolate c.zs c.tau | none => 0) u) u
    else c

/-- An ADC sample of the track: offset, asymmetry, then the channel bits it completes (R358, R359). -/
def Chan.sample (e : EqTab) (g : List Int) (fsr : Nat) (c : Chan) (x : Int) : Chan :=
  let o := c.o + (x * 256 - c.o) >>> e.offsh
  let u := x - o >>> (8 : Nat)
  let z := u - (c.a * u * u) / 64
  Chan.resample e g fsr 2 { c with o := o, zs := (z :: c.zs).take 4, nz := c.nz + 1, zsum := c.zsum + z.natAbs, zcnt := c.zcnt + 1 } (some u)

/-- An instant whose samples are missing (R361). -/
def Chan.gap (e : EqTab) (g : List Int) (fsr : Nat) (c : Chan) : Chan :=
  Chan.resample e g fsr 2 { c with nz := c.nz + 1 } none

/-! ## Spokes (R362) -/

/-- What a track's channel brings up: the header of the data set found (with its TGEN), a row of its track (with its ordinal, its
header and its payload bytes with erasures; none where no candidate passes), the track's end. -/
inductive ChEv where
  | header (d : DSet) (tgen : Nat)
  | row (ordinal : Nat) (x : Option ((Nat × Nat × Nat × Nat × Nat) × List (Byte × Bool)))
  | lost
deriving DecidableEq, Repr

/-- A channel's bits without reliabilities. -/
def plain (l : List (Bool × Nat)) : List Bool := l.map (fun x => x.1)

/-- The first place from which 36 bits are a spoke with CNT 0. -/
def findSpoke0 (l : List (Bool × Nat)) : Option Nat :=
  (upto (l.length - 35)).find? (fun i => match readSpoke (plain ((l.drop i).take 36)) with | some (_, 0) => true | _ => false)

/-- The next spoke taken, or found missing; none where the bits have not come. The number is how many spokes were missed. -/
def Chan.spoke (c : Chan) : Option (Chan × Nat) :=
  if !c.found then
    match findSpoke0 c.bits with
    | some i => some ({ c with bits := c.bits.drop i, found := true, period := 0, missSp := 0, miss := 0, pay := [], row := 0, head := false }, 0)
    | none => none
  else
    let at' := 4096 * (c.missSp + 1)
    if c.bits.length < at' + 44 then none
    else
      let body := 4096 * c.missSp + 36
      match (upto 17).find? (fun k => (readSpoke (plain ((c.bits.drop (at' + k - 8)).take 36))).isSome) with
      | some k =>
        let o := at' + k - 8
        some ({ c with
          pay := c.pay ++ fit (false, 0) 4060 ((c.bits.drop body).take (o - body)), bits := c.bits.drop o
          period := c.period + c.missSp + 1, missSp := 0, miss := 0 }, 0)
      | none =>
        let c : Chan := { c with pay := c.pay ++ (c.bits.drop body).take 4060, missSp := c.missSp + 1 }
        if c.missSp = 4 then some ({ c with found := false, bits := c.bits.drop 36 }, 1) else some (c, 1)

/-! ## Headers and rows (R363, R364) -/

/-- Bits in which a stretch differs from a mark. -/
def differ (l : List (Bool × Nat)) (m : List Bool) : Nat :=
  if l.length < m.length then m.length else (List.zipWith (fun (a : Bool × Nat) b => xor a.1 b) l m).countP (fun x => x)

/-- A place within ±24 of `p` at which a mark stands, the first in ascending position. -/
def findMark (mktol : Nat) (pay : List (Bool × Nat)) (p : Nat) (m : List Bool) : Option Nat :=
  ((upto 49).map (fun k => p + k - 24)).find? (fun i => decide (differ ((pay.drop i).take 25) m ≤ mktol))

/-- The header of the data set, once its payload has come (R363): from the first HSM or from the second. -/
def Chan.header (e : EqTab) (c : Chan) : Option (DSet × Nat) :=
  let from' := match findMark e.mktol c.pay 0 hsm with
    | some i => some (i + 537)
    | none => (findMark e.mktol c.pay 512 hsm).map (fun j => j + 25)
  from'.bind (fun i => readHeader ((decodeRun 0 32 (c.pay.drop i)).map (fun x => x.1)))

/-- The candidates of a row in ascending position: how many were false marks before the first whose header passes, and that row. -/
def tryRows (e : EqTab) (pay : List (Bool × Nat)) : List Nat → Nat × Option ((Nat × Nat × Nat × Nat × Nat) × List (Byte × Bool))
  | [] => (0, none)
  | i :: r =>
    let l := pay.drop i
    if e.mktol < differ (l.take 25) rsm then tryRows e pay r
    else
      match readRowHead (((decodeRun 0 4 (l.drop 25)).map (fun x => x.1)).take 10) with
      | some hd => (0, some (hd, ((decodeRun e.relmin 334 (l.drop 25)).drop 10).take 992))
      | none => let x := tryRows e pay r; (x.1 + 1, x.2)

/-- The most rows a track can carry (R330: no track carries two rewrite rows). -/
def maxRows : Nat := 163

/-- The next row of a track, where its payload has come or the track has ended; with the count of false marks. -/
def Chan.takeRow (e : EqTab) (c : Chan) : Option (Chan × Nat × ChEv) :=
  let p := rowStart c.row
  if maxRows ≤ c.row ∨ (c.found ∧ c.pay.length < p + 24 + rowBits) ∨ c.pay.length < p then none
  else
    let x := tryRows e c.pay ((upto 49).map (fun k => p + k - 24))
    some ({ c with row := c.row + 1 }, x.1, .row c.row x.2)

/-- Rows taken as far as the payload goes. -/
def takeRows (e : EqTab) : Nat → Chan → Nat → List ChEv → Chan × Nat × List ChEv
  | 0, c, n, l => (c, n, l)
  | k + 1, c, n, l =>
    match c.takeRow e with
    | none => (c, n, l)
    | some (c, m, ev) => takeRows e k c (n + m) (l ++ [ev])

/-- A channel moved on after new bits: spokes, header, rows, until nothing more has come. The numbers are spokes missed and false
marks. -/
def Chan.hunt (e : EqTab) : Nat → Chan → Nat → Nat → List ChEv → Chan × Nat × Nat × List ChEv
  | 0, c, m, f, l => (c, m, f, l)
  | k + 1, c, m, f, l =>
    match c.spoke with
    | none => ({ c with bits := if c.found then c.bits else c.bits.drop (c.bits.length - 35) }, m, f, l)
    | some (c', n) =>
      let hd := if !c'.head && decide (1361 ≤ c'.pay.length) then c'.header e else none
      let c'' : Chan := if decide (1361 ≤ c'.pay.length) then { c' with head := true } else c'
      let x := if c''.head then takeRows e maxRows c'' 0 [] else (c'', 0, [])
      let lost := c.found && !c'.found
      Chan.hunt e k x.1 (m + n) (f + x.2.1) (l ++ (match hd with | some (d, t) => [ChEv.header d t] | none => []) ++ x.2.2 ++
        (if lost then [ChEv.lost] else []))

/-- The 32 instants of a SAMPLE frame on one track, after `gap` frames that are missing (R361). -/
def Chan.take (e : EqTab) (g : List Int) (fsr gap : Nat) (c : Chan) (xs : List Int) : Chan × Nat × Nat × List ChEv :=
  let c : Chan := if 0 < gap then { c with miss := if 4 ≤ gap then gap else c.miss } else c
  let c := (upto (32 * gap)).foldl (fun c _ => c.gap e g fsr) c
  let c := xs.foldl (fun c x => c.sample e g fsr x) c
  Chan.hunt e (4 + 32 * gap) c 0 0 []

end Sys2Proof.Machine
end

