-- ==== Sys2Proof/Machine/TapeFormat.lean ====
section
/-! DEFINITION. What a job formats (R335-R343, R373, R379, R381): the ranges of a snapshot, items, bodies, the tape index and
the EOD; positioning; the end of a job. -/

namespace Sys2Proof.Machine

/-! ## Positioning -/

/-- TGEN of the label in force. -/
def Port.tgen (x : Port) : Nat := match x.label with | some l => l.tgen | none => 0

/-- First and last LPOS of the data zone (R317, R335): 5,000 until a label says more. -/
def Port.zone (x : Port) : Nat × Nat := match x.label with | some l => (l.lpbow, l.lpeow) | none => (5000, 5000)

/-- LPOS at a distance from the start of a wrap, in its direction. -/
def Port.placeAt (x : Port) (w d : Nat) : Nat := if w % 2 = 0 then x.zone.1 + d else x.zone.2 - d

/-- Distance of an LPOS from the start of a wrap. -/
def Port.distOf (x : Port) (w lpos : Nat) : Nat := if w % 2 = 0 then lpos - x.zone.1 else x.zone.2 - lpos

/-- Servo frames of a wrap's data zone. -/
def Port.wrapLen (x : Port) : Nat := x.zone.2 - x.zone.1

/-- The transport moves to a place, to read from it or to write after it. -/
def Head.wind (h : Head) (p w lpos : Nat) : Head :=
  let x := h.port p
  h.setPort p { x with state := .seeking, wrap := w, seekAt := lpos, chans := [], servo := { x.servo with okAt := none } }

/-- The transport stops. -/
def Head.halt (h : Head) (p : Nat) : Head :=
  let x := h.port p
  let h := h.setPort p { x with state := .stopped, stopAt := h.now, chans := [], servo := { x.servo with speeds := [] } }
  h.sendCtrl p

/-- Servo frames that a data set takes: those of 337 spoke periods without rewrite rows (R332). -/
def setFrames : Nat := 218

/-- Servo frames that are always enough for a data set with its splice (R317). -/
def setRoom : Nat := 340

/-! ## The end of a job -/

/-- A verb that takes its answer once what it wrote is in both PSTOREs (R382). -/
def Head.finishVerb (h : Head) (vid : Nat) (res : VRes) : Head :=
  let tag := h.lastTag
  h.updVerb vid (fun v => { v with aw := .nothing, res := res, tag := tag, past := true })

/-- A port's job ends with an answer; its transport stops. -/
def Head.endJob (h : Head) (p : Nat) (res : VRes) : Head :=
  let x := h.port p
  match x.job with
  | none => h
  | some j =>
    let h := (h.setPort p { x with job := none, cur := none, due := false, buf := [] }).halt p
    (h.sayJob p none).finishVerb j.vid res

/-- A job fails, with what it had done as its result. -/
def Head.failJob (h : Head) (p : Nat) (st : Status) : Head :=
  match (h.port p).job with
  | none => h
  | some j => h.endJob p ⟨st, BitVec.ofNat 64 (if j.archive then j.written else j.records), 0, false⟩

/-- The job of a port changed. -/
def Head.updJob (h : Head) (p : Nat) (f : TJob → TJob) : Head := h.setPort p { h.port p with job := (h.port p).job.map f }

/-! ## The ranges of a snapshot (R341) -/

/-- The 4 MiB ranges that writes of a volume or of its clone parents touch. -/
def rangesOf : Nat → List Volume → Nat → List Nat
  | 0, _, _ => []
  | fuel + 1, vs, v =>
    match vs.find? (fun x => x.num = v) with
    | none => []
    | some x =>
      let mine := (x.writes.map (fun (w : VWrite) =>
        if w.len = 0 then [] else (upto ((w.off + w.len - 1) / 4194304 + 1 - w.off / 4194304)).map (fun k => w.off / 4194304 + k))).flatten
      mine ++ (match x.parent with | some q => rangesOf fuel vs q.1 | none => [])

/-- Numbers in ascending order without repeats. -/
def eachOnce (l : List Nat) : List Nat := l.foldl (fun acc n => if acc.contains n then acc else insertNat n acc) []

/-- The ranges that a snapshot's records describe (R341; one record for each 4 MiB range that holds a byte other than zero:
DESIGN CHOICE, log entry 52), in ascending (VOLUME, VOFF). -/
def Head.snapRanges (h : Head) (l : List (Nat × Nat)) : List TExt :=
  (l.map (fun ve => (eachOnce (rangesOf 9 h.vols.vols ve.1)).filterMap (fun k =>
    if (h.volRead ve.1 ve.2 (k * 4194304) 4194304).all (fun b => b = some 0) then none
    else some ⟨ve.1, k * 4194304, 4194304, some ve, []⟩))).flatten

/-- The ranges of the weak store's records (R379). -/
def weakRanges (l : List WeakEnt) : List TExt :=
  sortBy (fun e => e.vol * 2 ^ 50 + e.off) ((l.map (fun w => w.recs.map (fun r => TExt.mk r.1 r.2.1 r.2.2.length none r.2.2))).flatten)

/-! ## Items (R339-R342) -/

/-- The bytes of an item in its body. -/
def TItem.bytes (i : TItem) : List Byte := item i.typ i.num i.pay

/-- A chunk's number on the tape: that of the catalogue, or of a chunk without fingerprint that the job wrote, or a new one with
its CHUNK item. `cref` is its reference (0 for a chunk drawn up afresh). -/
def Head.chunkItem (h : Head) (p cref : Nat) (cont fp : List Byte) : Head × Nat :=
  let x := h.port p
  let none' := fp.all (fun b => b = 0)
  let known := if none' then (match x.job with
      | some j => if cref = 0 then none else (j.crefs.find? (fun c => c.1 = cref)).map (fun c => c.2)
      | none => none)
    else (x.catal.find? (fun c => c.1 = fp)).map (fun c => c.2)
  match known with
  | some n => (h, n)
  | none =>
    let n := x.tcn + 1
    let h := h.setPort p { x with tcn := n, catal := if none' then x.catal else (fp, n) :: x.catal }
    (h.updJob p (fun j => { j with
      items := j.items ++ [⟨1, n, cont, fp, 0, 0, cont.length⟩]
      crefs := if none' && cref ≠ 0 then (cref, n) :: j.crefs else j.crefs }), n)

/-- The poison bitmap of a range (R342): one bit for each granule it touches; empty where none is poisoned. -/
def poisonMap (off : Nat) (l : List (Option Byte)) : List Byte :=
  if l.all (fun b => b.isSome) then []
  else
    let bitsL := (granules off l.length).map (fun g => (upto l.length).any (fun i => (off + i) / 4096 = g && (nth none l i).isNone))
    (upto (ceilDiv bitsL.length 8)).map (fun k => BitVec.ofNat 8 ((upto 8).foldl (fun s i => s + bnat (nth false bitsL (8 * k + i)) * 2 ^ i) 0))

/-- The record of a range with its pieces. -/
def Head.recordItem (h : Head) (p : Nat) (x : TExt) (pieces : List (Nat × Nat × Nat)) (pois : List Byte) : Head :=
  let n := (h.port p).rcd + 1
  let h := h.setPort p { h.port p with rcd := n }
  h.updJob p (fun j => { j with items := j.items ++ [⟨2, n, recordBytes x.vol x.off x.len pieces pois, [], x.vol, x.off, x.len⟩] })

/-- Pieces of a range from the map, where every piece names a chunk that is stored and no write of the range is still to be
destaged: the chunks go to tape as they are stored (R195, R339). -/
def Head.storedPieces (h : Head) (x : TExt) : Option (List (Nat × Nat × Nat)) :=
  match x.src with
  | none => none
  | some (v, e) =>
    let ps := ((upto 4).map (fun k => unitPieces 9 h.vols.vols v e (x.off / 1048576 + k) 0 1048576)).flatten
    let fresh := match h.vol v with | some y => !(y.undone x.off x.len).isEmpty || y.parent.isSome | none => true
    if fresh || decide (1024 < ps.length) || ps.isEmpty then none
    else if ps.any (fun q => q.1 ≠ 0 && ((h.chunk q.1).bind h.bandOf).isNone) then none
    else some ps

/-- The container of a stored chunk. -/
def Head.storedContainer (h : Head) (cref : Nat) : List Byte :=
  match h.chunk cref with
  | some k => (match h.bandOf k with | some b => (pieceBytes (b.pieces (.chunk k.chunk))).take k.clen | none => [])
  | none => []

/-- The chunks on flash that a range is read from. -/
def Head.extChunks (h : Head) (x : TExt) : List Nat :=
  match x.src with
  | some (v, e) => pieceChunks (h.flashPieces v e x.off x.len)
  | none => []

/-- The items of a range that has been read: its chunks that the tape does not hold yet, and its record (R340, R341, R342). What R197
could not repair is written as poisoned (R381 step 5). -/
def Head.extItems (h : Head) (p : Nat) (x : TExt) : Head :=
  let z := match x.src with | some (v, e) => h.readWhole (.tape p) v e x.off x.len | none => (h, x.data)
  let h := z.1
  let data := z.2
  let pois := poisonMap x.off data
  match (if pois.isEmpty then h.storedPieces x else none) with
  | some ps =>
    let y := ps.foldl (fun (acc : Head × List (Nat × Nat × Nat)) q =>
      if q.1 = 0 then (acc.1, acc.2 ++ [(0, 0, q.2.2)])
      else
        let c := acc.1.storedContainer q.1
        let z := acc.1.chunkItem p q.1 c ((c.drop 16).take 32)
        (z.1, acc.2 ++ [(z.2, q.2.1, q.2.2)])) (h, [])
    y.1.recordItem p x y.2 []
  | none =>
    let pool := match (h.port p).job with | some j => j.pool | none => 0
    let l := data.map (fun b => (b.getD 0, b.isNone))
    let runs := cutRun (h.red.gear.cut (l.map (fun b => b.1))) l
    let y := runs.foldl (fun (acc : Head × List (Nat × Nat × Nat)) r =>
      let c := drawChunk 0 r
      let cont := container (h.cfg .DRCFG pool 61 60) (h.cfg .DRCFG pool 59 56) h.huff c.data c.fp c.pois
      let z := acc.1.chunkItem p 0 cont c.fp
      (z.1, acc.2 ++ [(z.2, 0, r.length)])) (h, [])
    y.1.recordItem p x y.2 pois

/-- The JOB item (Table 11-9), written first. -/
def Head.jobItem (h : Head) (p : Nat) (j : TJob) : TItem :=
  let x := h.port p
  ⟨3, j.jobNum, leBytes 8 (if j.repair then 0 else j.snap.toNat) ++ w64 [(16, x.rcd + 1)] ++ leBytes 8 h.now ++ leBytes 8 0 ++
    fit 0 32 Config.idPublic, [], 0, 0, 0⟩

/-- The JOBEND item, written last. -/
def Port.endItem (x : Port) (j : TJob) : TItem :=
  ⟨4, j.jobNum, w64 [(16, x.rcd)] ++ w64 [(24, x.tcn)] ++ leBytes 8 (x.rcd + 1 - j.rec1) ++ leBytes 8 0, [], 0, 0, 0⟩

/-- Bytes of the items that are drawn up. -/
def TJob.drawn (j : TJob) : Nat := sum (j.items.map (fun i => i.bytes.length))

/-- The items of the next range are drawn up once its chunks have come from flash (R202, R222, R381 step 5); true where they are. -/
def Head.drawNext (h : Head) (p : Nat) : Head × Bool :=
  match (h.port p).job with
  | none => (h, false)
  | some j =>
    match j.todo with
    | [] => (h, false)
    | e :: r =>
      let y := h.readStep (.tape p) (h.extChunks e)
      if y.2 then ((y.1.updJob p (fun j => { j with todo := r })).extItems p e, true) else (y.1, false)

/-- Ranges drawn up until their items fill a body; true where a body can be formatted: the items fill it, or nothing is left to be read. -/
def drawFor (p : Nat) : Nat → Head → Head × Bool
  | 0, h => (h, false)
  | n + 1, h =>
    match (h.port p).job with
    | none => (h, false)
    | some j =>
      if bodyBytes < j.drawn || j.todo.isEmpty then (h, true)
      else
        let y := h.drawNext p
        if y.2 then drawFor p n y.1 else y

/-- A job's items begin with its JOB item. -/
def Head.openItems (h : Head) (p : Nat) : Head :=
  match (h.port p).job with
  | none => h
  | some j =>
    if j.begun then h
    else
      let n := (h.port p).jobs + 1
      let j' : TJob := { j with begun := true, jobNum := n, rec1 := (h.port p).rcd + 1 }
      (h.setPort p { h.port p with jobs := n }).updJob p (fun _ => { j' with items := [h.jobItem p j'] })

/-- The JOBEND item is there once everything else has been placed. -/
def Head.nextItems (h : Head) (p : Nat) : Head :=
  match (h.port p).job with
  | none => h
  | some j =>
    if !j.begun || !j.items.isEmpty || !j.todo.isEmpty || j.ended then h
    else h.updJob p (fun j => { j with ended := true, items := [(h.port p).endItem j] })

/-! ## Bodies (R339, R343, R373) -/

/-- What a body holds so far: its bytes and its items with their offsets. -/
structure Draft where
  len   : Nat
  items : List (Nat × TItem)
deriving DecidableEq, Repr

/-- Bytes of the data-set index of a draft with one item more. -/
def Draft.indexLen (d : Draft) (i : TItem) : Nat :=
  let n := fun (t : Nat) => (d.items.countP (fun x => x.2.typ = t)) + bnat (i.typ = t)
  16 + 24 * n 2 + 48 * n 1

/-- Items placed as long as they fit; `keep` bytes stay free for a JOBEND item. -/
def fillDraft (p keep : Nat) : Nat → Head → Draft → Head × Draft
  | 0, h, d => (h, d)
  | fuel + 1, h, d =>
    let h := h.nextItems p
    match (h.port p).job with
    | none => (h, d)
    | some j =>
      match j.items with
      | [] => (h, d)
      | i :: r =>
        let n := i.bytes.length
        if bodyBytes < d.len + n + d.indexLen i + (if i.typ = 4 then 0 else keep) then (h, d)
        else fillDraft p keep fuel (h.updJob p (fun j => { j with items := r })) ⟨d.len + n, d.items ++ [(d.len, i)]⟩

/-- A drafted body as a data set. -/
def Draft.dset (d : Draft) (dsn job : Nat) : DSet :=
  let recs := d.items.filter (fun x => x.2.typ = 2)
  let chs := d.items.filter (fun x => x.2.typ = 1)
  let idx := dsIndex (recs.map (fun x => (x.2.num, x.2.vol, x.2.off, x.1, x.2.len))) (chs.map (fun x => (x.2.num, x.1, x.2.len, x.2.fp)))
  { DSet.blank with
    dsn := dsn, dtype := 2, body := (d.items.map (fun x => x.2.bytes)).flatten ++ idx
    rec0 := (match recs with | x :: _ => x.2.num | [] => 0), tcn0 := (match chs with | x :: _ => x.2.num | [] => 0)
    nrec := recs.length, nchk := chs.length, idxoff := d.len, idxlen := idx.length, job := job }

/-- The job's DATA stop here (R381): ranges and items left are dropped, their numbers with them; only the JOBEND item is still
to come. -/
def Head.cutShort (h : Head) (p : Nat) : Head :=
  match (h.port p).job with
  | none => h
  | some j =>
    let left := j.items.filter (fun i => i.typ ≠ 4)
    if left.isEmpty && j.todo.isEmpty then h
    else
      let low := fun (t n : Nat) => (left.filter (fun i => i.typ = t)).foldl (fun m i => min m (i.num - 1)) n
      let x := h.port p
      let tcn := low 1 x.tcn
      let h := h.setPort p { x with rcd := low 2 x.rcd, tcn := tcn, catal := x.catal.filter (fun c => decide (c.2 ≤ tcn)) }
      h.updJob p (fun j => { j with todo := [], items := [], ended := false, partly := true, crefs := j.crefs.filter (fun c => decide (c.2 ≤ tcn)) })

/-- One DATA body formatted; `last` where the job may have none after it: then it holds the JOBEND item too. -/
def Head.makeBody (h : Head) (p : Nat) (last : Bool) : Head :=
  let x := fillDraft p (if last then 48 else 0) 100000 h ⟨0, []⟩
  let x := if last then fillDraft p 0 2 (x.1.cutShort p) x.2 else x
  match (x.1.port p).job with
  | none => h
  | some j =>
    let h := x.1
    let y := h.port p
    let d := x.2.dset y.dsn j.jobNum
    (h.setPort p { y with dsn := y.dsn + 1, buf := y.buf ++ [d], inflow := y.inflow + bodyBytes }).updJob p
      (fun j => { j with bodies := j.bodies + 1 })

/-- Data sets that the rest of the data zone holds. -/
def Port.roomSets (x : Port) : Nat := (x.wrapLen - x.distOf x.wrap x.servo.lpos) / setRoom + (127 - x.wrap) * (x.wrapLen / setRoom)

/-- INDEX data sets that an index needs. -/
def Port.indexSets (x : Port) : Nat := ceilDiv (64 + 32 * (x.dsn + 1000) + 40 * x.catal.length) bodyBytes

/-- DATA data sets the job may still format: what the tape holds beside the index and the EOD, and MAXDS. -/
def Port.setsLeft (x : Port) (j : TJob) : Nat :=
  let room := x.roomSets - (x.indexSets + 1 + x.buf.length + bnat x.cur.isSome)
  if j.maxds = 0 then room else min room (j.maxds - j.bodies)

/-- More DATA bodies are wanted: items or ranges are left, or the job has not ended. -/
def TJob.more (j : TJob) : Bool := !j.begun || !j.items.isEmpty || !j.todo.isEmpty || !j.ended

/-- Up to `n` bodies formatted into the port buffer of 2 GiB (R373), as far as flash has brought what they hold. -/
def fillBodies (p : Nat) : Nat → Head → Head
  | 0, h => h
  | n + 1, h =>
    let x := h.port p
    match x.job with
    | none => h
    | some j =>
      if !j.more || decide (256 ≤ x.buf.length) then h
      else
        let left := x.setsLeft j
        if left = 0 then h.cutShort p |>.updJob p (fun j => { j with ended := true, items := [] })
        else
          let y := drawFor p (j.todo.length + 1) (h.openItems p)
          if y.2 then fillBodies p n (y.1.makeBody p (left = 1)) else y.1

/-- Flash brings bodies to the port buffer: how many by this moment is free (log entry 53). -/
def Head.fillBuf (h : Head) (p : Nat) : Head := fillBodies p (Config.freeNat h.fresh) h.tick

/-! ## Tape index and EOD (R336, R337) -/

/-- Where the data set `k` places after the present end will stand, when none is written again (DESIGN CHOICE, log entry 54: an
index names data sets written after it). -/
def Port.nextPlace (x : Port) (k : Nat) : Nat × Nat :=
  let d := x.distOf x.wrap x.servo.lpos + ((k + 1) * 337 * 4096 + (k + 1) * 6400 * x.splice) * 30 / 192000
  if d + 330 ≤ x.wrapLen then (x.wrap, x.placeAt x.wrap d) else (x.wrap + 1, x.placeAt (x.wrap + 1) (k * setFrames))

/-- INDEX data sets of an index with `d` directory entries beside its own and the EOD's, and `c` catalogue entries. -/
def indexCount (d c : Nat) : Nat :=
  (upto 8).foldl (fun n _ => ceilDiv (64 + 32 * (d + n + 1) + 40 * c) bodyBytes) 1

/-- The data sets that close a job: the tape index in INDEX data sets, put in the buffer. -/
def Head.makeIndex (h : Head) (p : Nat) (j : TJob) : Head :=
  let x := h.port p
  let n := indexCount x.dir.length x.catal.length
  let ahead := (upto (n + 1)).map (fun k =>
    let q := x.nextPlace k
    DirEnt.mk (x.dsn + k) q.1 q.2 (if k = n then 4 else 3) 0 0 0 0 0)
  let b := tapeIndex x.tgen (x.dir ++ ahead) x.catal
  let sets := (upto (ceilDiv b.length bodyBytes)).map (fun k =>
    let part := (b.drop (bodyBytes * k)).take bodyBytes
    { DSet.blank with dsn := x.dsn + k, dtype := 3, body := part, idxlen := part.length, job := j.jobNum })
  (h.setPort p { x with dsn := x.dsn + sets.length, buf := x.buf ++ sets }).updJob p (fun j => { j with stage := .idx, acc := b })

/-- The EOD data set (Table 11-7), signed with the identity key. -/
def Head.makeEod (h : Head) (p : Nat) (j : TJob) : Head :=
  let x := h.port p
  let n := ceilDiv j.acc.length bodyBytes
  let lastData := (x.dir.filter (fun e => e.dtype = 2)).foldl (fun m e => max m e.dsn) 0
  let hd := eodHead x.tgen (x.dsn - n) n j.acc.length x.prevEod lastData x.rcd x.tcn (Sha.sha512 j.acc) Config.idPublic
  let d : DSet := { DSet.blank with
    dsn := x.dsn, dtype := 4, body := eodBody hd (Config.edSign Config.idPrivate hd), job := j.jobNum }
  (h.setPort p { x with dsn := x.dsn + 1, buf := x.buf ++ [d] }).updJob p (fun j => { j with stage := .eodw })

/-- A new label (R335): TGEN drawn at random, not 0 and not that of the label it replaces. -/
def Head.makeLabel (h : Head) (p : Nat) : Head :=
  let r := h.random 4
  let x := r.1.port p
  let t0 := leNat r.2
  let t1 := if t0 = 0 then 1 else t0
  let t := if t1 = x.tgen then (if t1 = 1 then 2 else t1 - 1) else t1
  let l : TLabel := ⟨t, 5000, Config.mediumLast p - 5000, r.1.now, fit 0 32 Config.idPublic⟩
  let d : DSet := { DSet.blank with dsn := 0, dtype := 1, body := l.body }
  let h := r.1.setPort p { x with label := some l, dir := [], catal := [], dsn := 1, tcn := 0, rcd := 0, jobs := 0, prevEod := 0, buf := [d] }
  (h.updJob p (fun j => { j with stage := .labelw, lab := some t })).wind p 0 5000

end Sys2Proof.Machine
end

