-- ==== Sys2Proof/Machine/TapeWrite.lean ====
section
/-! DEFINITION. Writing data sets (R330, R331, R352, R369-R374): starts, rows read back, rewrites, copies, verified data sets,
changes of ladder step. -/

namespace Sys2Proof.Machine

/-! ## WRITE frames (R352) -/

/-- Up to `n` further WRITE frames of the copy being written. -/
def sendFrames (p : Nat) : Nat → Head → Head
  | 0, h => h
  | n + 1, h =>
    let x := h.port p
    match x.cur with
    | none => h
    | some d =>
      if 64 * d.periods ≤ d.frames then h
      else
        let h := h.sendTl p 0x01 (d.frame x.tgen d.frames)
        sendFrames p n (h.setPort p { h.port p with cur := some { d with frames := d.frames + 1 }, fifo := (h.port p).fifo + 1 })

/-- The FIFO filled to 32 frames, half way between its limits of 16 and 48. -/
def Head.feed (h : Head) (p : Nat) : Head := sendFrames p (32 - (h.port p).fifo) h

/-! ## The next data set starts (R371) -/

/-- A job that writes: it has reached its label, data, index or EOD. -/
def TJob.writing (j : TJob) : Bool :=
  match j.stage with
  | .labelw => true
  | .data => j.archive
  | .idx => true
  | .eodw => true
  | _ => false

/-- What R371 asks before a data set starts without a backhitch: a body, a calm servo for one frame, no shock within 10 ms. -/
def Port.mayStart (x : Port) (now : Nat) : Bool :=
  (x.due || !x.buf.isEmpty) && !x.servo.off &&
  (match x.servo.okAt with | some t => decide (t + 192000000 / max 1 x.speed ≤ now) | none => false) &&
  (x.servo.shkAt = 0 || decide (x.servo.shkAt + 10000000 ≤ now + 1))

/-- Spoke 0 of the next data set, or of the next copy of the present one (R331), is written: 32 frames stand in the FIFO before WEN
is set; INH is cleared (R352, R368). The eq table takes effect (R376). -/
def Head.startSet (h : Head) (p : Nat) (d : DSet) (rest : List DSet) : Head :=
  let x := h.port p
  let d : DSet := { d with wrap := x.wrap, lpos := x.servo.lpos, frames := 0, again := false, rewrites := [], okRows := [], slots := [] }
  let h := h.setPort p { x with
    cur := some d, due := false, buf := rest, fifo := 0, chans := if x.eq = h.tape.eq then x.chans else [], servo := { x.servo with inh := false }, eq := h.tape.eq
    splice := spliceOf h.tape.eq.rwdist }
  ((h.feed p)).sendCtrl p

/-- A copy is needed again (R370): an eighth one ends the job with CHECK_FAIL (R372). -/
def Head.nextCopy (h : Head) (p : Nat) : Head :=
  let x := h.port p
  match x.cur with
  | none => h
  | some d =>
    if 7 ≤ d.rewr then (h.event 0x0803 2 0xFF 6 p d.dsn 0 0).failJob p .checkFail
    else
      (h.setPort p { x with cur := some { d with rewr := d.rewr + 1, again := false, frames := 0, rewrites := [], okRows := [] }, due := true }).tcount p 2 1

/-- A head whose tape jobs must reach a boundary for its hand-off (R384): no data set is begun, the one in progress is finished, with
every copy that it needs (R20). -/
def Head.tapeHold (h : Head) : Bool := match h.pair.handoff with | some o => o.mine && o.side = h.side | none => false

/-- A job whose DATA are all on tape goes on to its index. -/
def Head.closeData (h : Head) (p : Nat) : Head :=
  let x := h.port p
  match x.job with
  | none => h
  | some j =>
    let done : Bool := (match j.stage with | .data => true | _ => false) && j.archive && !j.more && x.buf.isEmpty && x.cur.isNone
    if done then h.makeIndex p j else h

/-- DATASET_START (R317, R371): a copy that is due, else the next body; from another wrap where the zone has no 330 frames left;
a backhitch where a condition fails. -/
def Head.datasetStart (h : Head) (p : Nat) : Head :=
  let h := (h.fillBuf p).closeData p
  let copy : Bool := match (h.port p).cur with
    | some d => d.again && (h.port p).due && decide ((h.port p).state = .writing)
    | none => false
  let h := if copy then h.nextCopy p else h
  let x := h.port p
  match x.job with
  | none => h
  | some j =>
    if x.state ≠ .writing || !j.writing || x.link.state ≠ .run || (x.cur.isSome && !x.due) || (h.tapeHold && x.cur.isNone) then h
    else if !x.mayStart h.now then h.backhitch p
    else if x.wrapLen < x.distOf x.wrap x.servo.lpos + 330 then
      (if 127 ≤ x.wrap then h.failJob p .partially else h.wind p (x.wrap + 1) (x.placeAt (x.wrap + 1) 0))
    else
      match x.cur, x.buf with
      | some d, _ => h.startSet p d x.buf
      | none, d :: rest => h.startSet p d rest
      | none, [] => h

/-- DATASET_START (R371). -/
def execDatasetStart (p : Nat) (s : State) : Host.Outcome State Fault Refusal := s.run (fun h => (h.datasetStart p).settle)

/-! ## Rows read back (R330, R369, R370) -/

/-- A row failed: its rewrite row is placed, or the data set is due again. -/
def DSet.failRow (d : DSet) (t ordinal : Nat) : DSet × Bool :=
  match (d.track t)[ordinal]? with
  | none => (d, false)
  | some x =>
    if 32 ≤ d.rewrites.length then ({ d with again := true }, false)
    else
      match d.rewriteAt t (64 * d.frames) with
      | none => ({ d with again := true }, false)
      | some (u, k) =>
        let seq := d.rewrites.foldl (fun m r => max m r.rwseq) 0 + 1
        ({ d with rewrites := d.rewrites ++ [⟨x.1, x.2.1, seq, u, k⟩] }, true)

/-- A row of track `t` read back while its data set is written (R369). -/
def Head.verifyRow (h : Head) (p t ordinal : Nat) (r : Option ((Nat × Nat × Nat × Nat × Nat) × List (Byte × Bool))) : Head :=
  let x := h.port p
  match x.cur with
  | none => h
  | some d =>
    let good := match r with
      | some (hd, pay) =>
        (match c1Decode pay with
         | some (_, n) => if hd.1 = d.dsn % 65536 && decide (n ≤ x.eq.c1max) then some (hd.2.1, hd.2.2.1) else none
         | none => none)
      | none => none
    match good with
    | some k => h.setPort p { x with cur := some { d with okRows := if d.okRows.contains k then d.okRows else k :: d.okRows } }
    | none =>
      let y := d.failRow t ordinal
      let h := h.setPort p { x with cur := some y.1 }
      if y.2 then h.tcount p 1 1 else h

/-- A track is lost while a data set is written: rows of it that have not verified have no mark (R369). -/
def Head.verifyLost (h : Head) (p t : Nat) : Head :=
  let x := h.port p
  match x.cur with
  | none => h
  | some d =>
    if (d.track t).all (fun r => d.okRows.contains (r.1, r.2.1)) then h
    else h.setPort p { x with cur := some { d with again := true } }

/-- Every row has a copy that passed, and nothing asks for another copy (R370). -/
def DSet.verified (d : DSet) : Bool := !d.again && (upto 81).all (fun b => (upto 128).all (fun r => d.okRows.contains (b, r)))

/-! ## The ladder (R373, R374) -/

/-- The level of the port buffer in percent: its fill, or for a RESTORE 100 less its fill. -/
def Port.lvl (x : Port) : Nat :=
  let fill := min 100 (x.buf.length * 100 / 256)
  match x.job with
  | some j => if j.archive then fill else 100 - fill
  | none => fill

/-- The highest step that the inbound width allows (Table 12-8). -/
def Port.ceiling (x : Port) : Nat := if x.link.rxw = 8 then 11 else 7

/-- A change of step at a data-set boundary (R374): a backhitch at the new speed, under the ladder table loaded last (R375). -/
def Head.toStep (h : Head) (p k : Nat) : Head :=
  let x := h.port p
  if k = x.step then h
  else
    let h := (h.setPort p { x with step := k, ladder := h.tape.ladder, upAt := none, downAt := none, dwellAt := h.now, inflow := 0 }).tcount p 6 1
    h.backhitch p

/-- Up: the lowest step whose RATE is at least the inflow in MB/s, and at least one step up; down: the highest whose RATE is at
most it, and at least one step down. -/
def Port.stepFor (x : Port) (up : Bool) (rate : Nat) : Nat :=
  let r := fun (k : Nat) => (nth (⟨0, 0, 0, 0, 0, 0⟩ : LStep) x.ladder.steps k).rate
  if up then
    (match (upto 12).find? (fun k => decide (x.step < k) && decide (rate ≤ r k)) with | some k => k | none => 11)
  else
    (upto x.step).foldl (fun m k => if r k ≤ rate then k else m) 0

/-- LADDER_CHANGE at a boundary: the level has stayed at or beyond UP or DOWN for DWELL. -/
def Head.ladderTurn (h : Head) (p : Nat) : Head :=
  let x := h.port p
  let s := x.lstep
  let lvl := x.lvl
  let up := decide (s.up ≤ lvl)
  let down := decide (lvl ≤ s.down)
  let fresh := (up && x.upAt.isNone) || (down && x.downAt.isNone)
  let x : Port := { x with
    upAt := if up then some (x.upAt.getD h.now) else none, downAt := if down then some (x.downAt.getD h.now) else none
    dwellAt := if fresh then h.now else x.dwellAt, inflow := if fresh then 0 else x.inflow }
  let h := h.setPort p x
  let held := fun (t : Option Nat) => match t with | some t => decide (t + s.dwell * 1000000 ≤ h.now) | none => false
  let rate := x.inflow * 1000 / max 1 (h.now - x.dwellAt)
  if held x.upAt then
    let k := x.stepFor true rate
    if k ≤ x.ceiling && decide (x.step < 11) then h.toStep p k else h
  else if held x.downAt && decide (0 < x.step) then h.toStep p (x.stepFor false rate)
  else h

/-! ## A data set is verified (R334, R337, R370, R381) -/

/-- The directory entry of a data set. -/
def DSet.entry (d : DSet) : DirEnt := ⟨d.dsn, d.wrap, d.lpos, d.dtype, d.rewr, d.rec0, d.tcn0, d.nrec, d.nchk⟩

/-- The verb that a job answers is still there (R381: QRESET ends it). -/
def Head.jobLives (h : Head) (j : TJob) : Bool := h.work.verbs.any (fun v => v.vid = j.vid && v.ans.isNone)

/-- What follows a verified data set: the index once the DATA are out, the EOD, the end of the job; a repair job gives way to the
ARCHIVE's own. -/
def Head.afterSet (h : Head) (p : Nat) (j : TJob) : Head :=
  let x := h.port p
  match j.stage with
  | .labelw => h.updJob p (fun j => { j with stage := .data })
  | .data => if j.more || !x.buf.isEmpty then h else h.makeIndex p j
  | .idx => if x.buf.isEmpty then h.makeEod p j else h
  | .eodw =>
    let h := h.setPort p { x with prevEod := x.dsn - 1 }
    if j.repair then
      let h := { h with tape := { h.tape with weak := [] } }
      h.updJob p (fun j => { j with
        repair := false, todo := j.main, main := [], begun := false, ended := false, stage := .data, crefs := [] })
    else h.endJob p ⟨if j.partly then .partially else .ok, BitVec.ofNat 64 j.written, 0, false⟩
  | _ => h

/-- The copy being written is verified. -/
def Head.setVerified (h : Head) (p : Nat) : Head :=
  let x := h.port p
  match x.cur, x.job with
  | some d, some j =>
    let dir := (x.dir.filter (fun e => e.dsn ≠ d.dsn)) ++ [d.entry]
    let h := (h.setPort p { x with cur := none, due := false, dir := dir }).tcount p 0 1
    let j : TJob := { j with written := if d.dtype = 2 then j.written + 1 else j.written, last := some { d with body := [], rewrites := [], okRows := [] } }
    let h := h.updJob p (fun _ => j)
    if !h.jobLives j then h.endJob p (.fail .abandoned)
    else
      let h := (h.fillBuf p).afterSet p j
      if (h.port p).job.isSome then (if h.tapeHold then h.halt p else h.ladderTurn p) else h
  | some _, none => h.setPort p { x with cur := none, due := false }
  | none, _ => h

/-- What the writing of a data set leads to after new rows and a new FIFO count: frames, WEN, the next copy, verification. -/
def Head.writeTurn (h : Head) (p : Nat) : Head :=
  let wen := (h.port p).wen
  let h := if (h.port p).due then h else h.feed p
  let x := h.port p
  match x.cur with
  | none => h
  | some d =>
    if x.due then h
    else if d.verified && x.copyOut then (h.sendCtrl p).setVerified p
    else if d.again && x.copyOut then (h.sendCtrl p).nextCopy p
    else if wen = x.wen then h else h.sendCtrl p

end Sys2Proof.Machine
end

