-- ==== Sys2Proof/Machine/TapeRead.lean ====
section
/-! DEFINITION. Reading data sets (R363, R369, R377-R379) and the stages of a job that read: label, end of data, tape index,
later data sets, records (R335-R338, R381, R382). -/

namespace Sys2Proof.Machine

/-! ## Restoring records (R341, R342, R382) -/

/-- The directory's DATA data sets that hold records of a job's range, in ascending DSN. -/
def Port.recordSets (x : Port) (j : TJob) : List DirEnt :=
  x.dir.filter (fun e => e.dtype = 2 && decide (0 < e.nrec) && decide (e.rec0 < max 1 j.first + j.count) && decide (max 1 j.first < e.rec0 + e.nrec))

/-- A record is one that a job restores. -/
def TJob.takes (j : TJob) (r : TRec) : Bool :=
  decide (max 1 j.first ≤ r.num) && decide (r.num < max 1 j.first + j.count) && r.vol = j.srcvol

/-- A record's destination lies where it may (R382). -/
def TJob.fits (j : TJob) (r : TRec) : Bool := decide (j.srcbase ≤ r.voff) && !(pastEnd (r.voff - j.srcbase) r.len)

/-- The data set that holds a chunk: the last whose TCN0 is not above it (R337). -/
def Port.chunkSet (x : Port) (tcn : Nat) : Option DirEnt :=
  (x.dir.filter (fun e => e.dtype = 2 && decide (0 < e.nchk) && decide (e.tcn0 ≤ tcn))).foldl (fun (b : Option DirEnt) e => match b with
    | some y => if y.tcn0 ≤ e.tcn0 then some e else some y
    | none => some e) none

/-- The bytes of a record: those of its pieces, none where a chunk could not be read or a granule is poisoned. -/
def TJob.recBytes (j : TJob) (r : TRec) : List (Option Byte) :=
  let raw := (r.pieces.map (fun q =>
    if q.1 = 0 then List.replicate q.2.2 (some 0)
    else
      match j.got.find? (fun g => g.1 = q.1) with
      | some (_, some c) => (match openContainer c with
        | some b => fit none q.2.2 (((b.drop q.2.1).take q.2.2).map some)
        | none => List.replicate q.2.2 none)
      | _ => List.replicate q.2.2 none)).flatten
  (upto raw.length).map (fun i =>
    let g := (r.voff + i) / 4096 - r.voff / 4096
    if !r.pois.isEmpty && bit (nth 0 r.pois (g / 8)).toNat (g % 8) then none else nth none raw i)

/-- Poison spread to the granules it touches: ranges (offset, length) of a record. -/
def poisonRuns (off : Nat) (l : List (Option Byte)) : List (Nat × Nat) :=
  (granules off l.length).filterMap (fun g =>
    let lo := g * 4096 - off
    let hi := min l.length ((g + 1) * 4096 - off)
    if ((l.drop lo).take (hi - lo)).any (fun b => b.isNone) then some (lo, hi - lo) else none)

/-- A record kept in the weak store (R379), where it has room. -/
def Head.keepWeak (h : Head) (j : TJob) (tgen : Nat) (dsn : Nat) (r : TRec) (b : List (Option Byte)) : Head :=
  let used := sum (h.tape.weak.map (fun w => sum (w.recs.map (fun x => x.2.2.length))))
  if 2 ^ 30 < used + b.length then h
  else
    let e : Nat × Nat × List (Option Byte) := (r.vol, r.voff, b)
    let l := h.tape.weak
    let l := if l.any (fun w => w.tgen = tgen && w.dsn = dsn && w.pool = j.pool) then
        mapFirst (fun w => w.tgen = tgen && w.dsn = dsn && w.pool = j.pool) (fun (w : WeakEnt) => { w with recs := w.recs ++ [e] }) l
      else l ++ [⟨j.pool, tgen, dsn, [e]⟩]
    { h with tape := { h.tape with weak := l } }

/-- A record is written to the destination volume as a best-effort write (R382): its bytes to fresh lehr pages, its affected
granules as poison. -/
def Head.writeRecord (h : Head) (p : Nat) (j : TJob) (r : TRec) : Head :=
  let x := h.port p
  let b := j.recBytes r
  let off := r.voff - j.srcbase
  let bad := poisonRuns r.voff b
  let bytes := b.map (fun o => o.getD 0)
  let pg := h.allocPages (ceilDiv r.len 65536) .window 0
  let h := (upto pg.2.length).foldl (fun h k => h.placePage (nth 0 pg.2 k) 0 ((bytes.drop (65536 * k)).take 65536)) pg.1
  let h := h.applyWrite (j.side, j.seq) ⟨j.vol, some off, r.len, .inl [], false, false, bytes, pg.2, [], bad⟩
  let weak := j.weakDs.filter (fun d => r.dsn = d || r.pieces.any (fun q => (match x.chunkSet q.1 with | some e => q.1 ≠ 0 && e.dsn = d | none => false)))
  let h := weak.foldl (fun (h : Head) d => h.keepWeak j x.tgen d r b) h
  h.updJob p (fun j => { j with records := j.records + 1, recs := j.recs.drop 1, poison := j.poison || !bad.isEmpty })

/-- A decompression unit gives the bytes of the compressed chunks that a record names (R202); true once it has. -/
def Head.unpackRecord (h : Head) (p : Nat) (j : TJob) (r : TRec) : Head × Bool :=
  let who := Reader.tape p
  let n := sum (r.pieces.map (fun q => match j.got.find? (fun g => g.1 = q.1) with
    | some (_, some c) => if isRaw c then 0 else leNat ((c.drop 8).take 4)
    | _ => 0))
  if n = 0 || h.red.opened.contains who then (h, true)
  else if h.unpacking who then (h, false) else (h.unpackAsk who n, false)

/-- A RESTORE goes on (R382): records whose chunks have come and are decompressed are written while lehr pages last; else the data set of the next
chunk missing, or the next data set of records, is looked for; after the last the job ends. A head that has become READ_MOSTLY
ends it with CAPACITY (R107). -/
def restoreOn (p : Nat) : Nat → Head → Head
  | 0, h => h
  | fuel + 1, h =>
    let x := h.port p
    match x.job with
    | none => h
    | some j =>
      if h.work.readMostly then h.failJob p .capacity
      else if !h.jobLives j then h.endJob p (.fail .abandoned)
      else
        match j.recs with
        | r :: _ =>
          (match j.missing r with
           | [] =>
             let y := h.unpackRecord p j r
             if !y.2 then y.1
             else if h.freeLehr < ceilDiv r.len 65536 then (if x.state = .reading then h.halt p else h)
             else restoreOn p fuel ((h.writeRecord p j r).readEnd (.tape p))
           | n :: _ =>
             match x.chunkSet n with
             | none => restoreOn p fuel (h.updJob p (fun j => { j with got := (n, none) :: j.got }))
             | some e =>
               if h.tapeHold then h.halt p
               else (h.updJob p (fun j => { j with want := e.dsn })).wind p e.wrap e.lpos)
        | [] =>
          let h := h.setPort p { x with buf := [] }
          let h := h.updJob p (fun j => { j with got := [] })
          match (x.recordSets j).find? (fun e => decide (j.next < e.dsn + 1)) with
          | none => h.endJob p ⟨if j.poison then .poison else .ok, BitVec.ofNat 64 j.records, 0, false⟩
          | some e =>
            if h.tapeHold then h.halt p
            else (h.updJob p (fun j => { j with want := e.dsn, next := e.dsn + 1 })).wind p e.wrap e.lpos

/-- Enough turns for the records at hand. -/
def Head.restoreTurn (h : Head) (p : Nat) : Head :=
  match (h.port p).job with
  | none => h
  | some j => restoreOn p (2 + 1100 * (j.recs.length + 1)) h

/-! ## The stages of a job (R338, R381, R382) -/

/-- A data set looked for by DSN. -/
def Head.wantDs (h : Head) (p n : Nat) (st : TStage) : Head := h.updJob p (fun j => { j with want := n, stage := st, top := none })

/-- A step back along the tape from a place: far enough to meet the data set before it (R332: gaps of at most 8 frames); past the
start of a wrap, to the end of the one before. -/
def Head.stepBack (h : Head) (p w lpos : Nat) : Head :=
  let x := h.port p
  let d := x.distOf w lpos
  if setRoom ≤ d then h.wind p w (x.placeAt w (d - setRoom))
  else if w = 0 then h.wind p 0 (x.placeAt 0 0)
  else h.wind p (w - 1) (x.placeAt (w - 1) (x.wrapLen - 2 * setRoom))

/-- The chunk and record numbers and the catalogue take in a DATA data set that no index names (R381 step 3). -/
def Port.absorb (x : Port) (d : DSet) : Port :=
  let cs := d.chunks.getD []
  { x with
    tcn := if d.nchk = 0 then x.tcn else max x.tcn (d.tcn0 + d.nchk - 1)
    rcd := if d.nrec = 0 then x.rcd else max x.rcd (d.rec0 + d.nrec - 1)
    jobs := max x.jobs d.job
    catal := cs.foldl (fun l c =>
      if c.2.2.2.all (fun b => b = 0) || l.any (fun (y : List Byte × Nat) => y.1 = c.2.2.2) then l else (c.2.2.2, c.1) :: l) x.catal }

/-- The end of data is known (R381 step 4, R382 step 2). An ARCHIVE positions after it; bodies formatted before a hold or a stop
keep their numbers. A RESTORE first looks at its records' destinations, then reads. -/
def Head.endKnown (h : Head) (p : Nat) (j : TJob) : Head :=
  let x := h.port p
  match j.last with
  | none => h.failJob p .checkFail
  | some l =>
    if j.archive then
      let x : Port := { x with buf := x.buf.filter (fun d => d.dtype = 2), cur := x.cur.filter (fun d => d.dtype = 2) }
      let held := x.cur.toList ++ x.buf
      let x := held.foldl Port.absorb x
      let keep := match x.cur with | some d => x.dir.filter (fun e => e.dsn ≠ d.dsn) | none => x.dir
      let top := match held.getLast? with | some d => d.dsn + 1 | none => l.dsn + 1
      let h := h.setPort p { x with dir := keep, dsn := top, due := x.cur.isSome }
      let h := h.updJob p (fun j => { j with stage := .data })
      let d := (h.port p).distOf l.wrap l.lpos + setFrames
      (h.fillBuf p).wind p l.wrap ((h.port p).placeAt l.wrap d)
    else if j.begun then restoreOn p 4 (h.updJob p (fun j => { j with stage := .data }))
    else
      match x.recordSets j with
      | [] => h.endJob p (.ok 0)
      | e :: _ => (h.wantDs p e.dsn .scan).wind p e.wrap e.lpos

/-- Data sets after the newest EOD are read one by one up to the last (R338). -/
def Head.laterFrom (h : Head) (p n : Nat) (j : TJob) : Head :=
  match j.last with
  | some l => if l.dsn < n then h.endKnown p j else h.wantDs p n (.later n)
  | none => h.failJob p .checkFail

/-- The tape holds no EOD of the generation: its directory begins with the label. -/
def Head.noEod (h : Head) (p : Nat) (j : TJob) : Head :=
  let x := h.port p
  let h := h.setPort p { x with dir := [⟨0, 0, x.zone.1, 1, 0, 0, 0, 0, 0⟩], catal := [], tcn := 0, rcd := 0, jobs := 0, prevEod := 0 }
  if j.archive then (match j.last with
    | some l => if l.dsn = 0 then h.endKnown p j else (h.wantDs p 1 (.later 1)).wind p 0 x.zone.1
    | none => h.failJob p .checkFail)
  else (match j.last with
    | some l => if l.dsn = 0 then h.endJob p (.fail .checkFail) else (h.wantDs p 1 (.later 1)).wind p 0 x.zone.1
    | none => h.failJob p .checkFail)

/-- The next probe of the bisection over wraps (R338), or within the last wrap. -/
def Head.probeWraps (h : Head) (p lo hi : Nat) : Head :=
  if lo < hi then
    let m := (lo + hi + 1) / 2
    (h.updJob p (fun j => { j with stage := .wraps lo hi })).wind p m ((h.port p).placeAt m 0)
  else (h.updJob p (fun j => { j with stage := .last 0 (h.port p).wrapLen, last := none })).wind p lo
    ((h.port p).placeAt lo ((h.port p).wrapLen / 2))

/-- The next probe within the last wrap: by distance from its start. -/
def Head.probeLast (h : Head) (p lo hi : Nat) (j : TJob) : Head :=
  let x := h.port p
  if lo + 1 < hi then
    (h.updJob p (fun j => { j with stage := .last lo hi })).wind p x.wrap (x.placeAt x.wrap ((lo + hi) / 2))
  else
    match j.last with
    | some l => (h.wantDs p l.dsn (.eod l.dsn)).wind p l.wrap l.lpos
    | none => if hi = 0 then h.failJob p .checkFail
      else (h.updJob p (fun j => { j with stage := .last 0 0 })).wind p x.wrap (x.placeAt x.wrap lo)

/-- The label of the tape is known, or that it has none (R335, R380, R381): the checks that need it, the new label of FORMAT, the
search for the end of data. -/
def Head.labelRead (h : Head) (p : Nat) (l : Option TLabel) : Head :=
  let x := h.port p
  match x.job with
  | none => h
  | some j =>
    let h := h.setPort p { x with label := l }
    match l with
    | none => if j.lab.isSome then h.failJob p .headLost
      else if !j.format then h.failJob p .checkFail
      else if j.tgen ≠ 0 then h.failJob p .invalid else h.makeLabel p
    | some l =>
      if (match j.lab with | some t => decide (t ≠ l.tgen) | none => false) then h.failJob p .headLost
      else if j.lab.isSome then h.probeWraps p 0 127
      else if (j.tgen ≠ 0 && j.tgen ≠ l.tgen) || (j.format && j.tgen = 0) then h.failJob p .invalid
      else if j.archive && j.repair && h.tape.weak.any (fun w => w.tgen = l.tgen) then h.failJob p .invalid
      else if j.format then h.makeLabel p
      else (h.updJob p (fun j => { j with lab := some l.tgen })).probeWraps p 0 127

/-- The tape index has been read whole (R336, R337): its hash, for a RESTORE its signature under SIGMODE. -/
def Head.indexRead (h : Head) (p : Nat) (j : TJob) : Head :=
  let e := j.eod
  let key := (e.drop 112).take 32
  let sigBad := !j.archive && ((decide (1 ≤ j.sigmode) && !(Config.edVerify key (e.take 144) ((e.drop 144).take 64))) || (j.sigmode = 2 && key ≠ j.key))
  if Sha.sha512 j.acc ≠ (e.drop 48).take 64 || sigBad then h.failJob p .checkFail
  else
    match readIndex j.acc with
    | none => h.failJob p .checkFail
    | some (dir, cat) =>
      let x := h.port p
      let n := wfield e 1 63 32 + wfield e 1 31 0
      let h := h.setPort p { x with dir := dir.filter (fun d => decide (d.dsn ≤ n)), catal := cat, rcd := wfield e 4 63 16, tcn := wfield e 5 63 24, prevEod := n }
      h.laterFrom p (n + 1) j

/-- A data set wanted was not found, or could not be read: an EOD or a data set after it is passed; a record's data set counts as
unreadable; without its label or index a job fails. -/
def Head.dsMissing (h : Head) (p : Nat) (j : TJob) : Head :=
  let x := h.port p
  match j.stage with
  | .label => h.labelRead p none
  | .eod n => if n ≤ 1 then h.noEod p j
    else (h.wantDs p (n - 1) (.eod (n - 1))).stepBack p x.wrap x.servo.lpos
  | .later n => h.laterFrom p (n + 1) j
  | .scan => match (x.recordSets j).find? (fun e => decide (j.want < e.dsn)) with
    | some e => (h.wantDs p e.dsn .scan).wind p e.wrap e.lpos
    | none => restoreOn p 4 (h.updJob p (fun j => { j with stage := .data, begun := true, next := 0 }))
  | .data =>
    let gone := (j.recs.map j.missing).flatten.filter (fun n => match x.chunkSet n with | some e => e.dsn = j.want | none => true)
    (h.updJob p (fun j => { j with got := (gone.map (fun n => (n, none))) ++ j.got, poison := true })).restoreTurn p
  | _ => h.failJob p .checkFail

/-- A data set has been decoded: its stage takes it in. -/
def Head.dsRead (h : Head) (p : Nat) (j : TJob) (d : DSet) : Head :=
  let x := h.port p
  match j.stage with
  | .label => h.labelRead p (readLabel d.body)
  | .eod n =>
    if d.dtype = 4 && eodOk d.body && wfield d.body 0 31 0 = x.tgen then
      let h := h.updJob p (fun j => { j with eod := d.body.take 216, acc := [] })
      let h := h.setPort p { h.port p with jobs := d.job }
      (h.wantDs p (wfield d.body 1 63 32) (.index 0)).stepBack p d.wrap d.lpos
    else h.dsMissing p { j with stage := .eod n }
  | .index k =>
    let acc := j.acc ++ d.body.take d.idxlen
    if k + 1 < wfield j.eod 1 31 0 then (h.updJob p (fun j => { j with acc := acc })).wantDs p (d.dsn + 1) (.index (k + 1))
    else h.indexRead p { j with acc := acc }
  | .later n =>
    let x := if d.dtype = 2 then x.absorb d else x
    let h := h.setPort p { x with dir := x.dir ++ [d.entry] }
    h.laterFrom p (n + 1) j
  | .scan =>
    if (d.records.filter j.takes).all j.fits then h.dsMissing p j else h.endJob p (.fail .invalid)
  | .data =>
    let need := fun (rs : List TRec) => (rs.map (fun r => r.pieces.map (fun q => q.1))).flatten
    let recs := if d.dsn + 1 = j.next && !(j.recs.any (fun r => r.dsn = d.dsn)) then j.recs ++ d.records.filter j.takes else j.recs
    let names := need recs
    let new := (d.chunks.getD []).filter (fun c => names.contains c.1 && !(j.got.any (fun g => g.1 = c.1)))
    let lost := names.filter (fun n => n ≠ 0 && (match x.chunkSet n with | some e => e.dsn = d.dsn | none => false) &&
      !(new.any (fun c => c.1 = n)) && !(j.got.any (fun g => g.1 = n)))
    let h := (h.setPort p { x with buf := [{ d with body := [] }], inflow := x.inflow + bodyBytes }).ladderTurn p
    (h.updJob p (fun j => { j with
      recs := recs, got := (new.map (fun c => (c.1, some ((d.body.drop (c.2.1 + 16)).take c.2.2.1)))) ++ (lost.map (fun n => (n, none))) ++ j.got })).restoreTurn p
  | _ => h

/-! ## Passes (R377, R378) -/

/-- A data set decoded or given up: counters, the event of a weak one, and what its stage makes of it. -/
def Head.setDone (h : Head) (p : Nat) (d : DSet) (body : Option (List Byte × Nat)) : Head :=
  let x := h.port p
  let h := h.setPort p { x with cur := none }
  match x.job with
  | none => h
  | some j =>
    let h := h.updJob p (fun j => { j with lower := none, top := none })
    let j : TJob := { j with lower := none, top := none }
    match body with
    | none => (h.tcount p 10 1).dsMissing p j
    | some (b, n) =>
      let weak := decide (0 < d.pass) || d.lower || decide (h.cfg .TPCFG p 39 32 < n) || decide (h.cfg .TPCFG p 31 16 < d.bad)
      let h := if weak then ((h.tcount p 9 1).event 0x0802 1 0xFF 6 p x.tgen d.dsn 0).updJob p (fun j => { j with weakDs := d.dsn :: j.weakDs }) else h
      match (h.port p).job with
      | none => h
      | some j => h.dsRead p j { d with body := b, rows := [], slots := [] }

/-- Every track has delivered its rows or has ended: the data set is decoded, or read again, or its next lower copy is. -/
def Head.passDone (h : Head) (p : Nat) (d : DSet) : Head :=
  match c2Decode d.rows with
  | some x => h.setDone p d (some x)
  | none =>
    let x := h.port p
    if d.pass < h.cfg .TPCFG p 43 40 then
      let d : DSet := { d with pass := d.pass + 1, slots := [] }
      let h := (h.setPort p { x with cur := some d, seekAt := d.lpos }).tcount p 8 1
      h.backhitch p
    else if 0 < d.rewr then
      let h := (h.setPort p { x with cur := none }).updJob p (fun j => { j with lower := some (d.rewr - 1) })
      h.stepBack p d.wrap d.lpos
    else h.setDone p d none

/-- A row read (R369, R377): a row that passes C1 is kept; another counts as failed. -/
def Head.readRow (h : Head) (p t ordinal : Nat) (r : Option ((Nat × Nat × Nat × Nat × Nat) × List (Byte × Bool))) : Head :=
  let x := h.port p
  match x.cur with
  | none => h
  | some d =>
    let row := match r with
      | some (hd, pay) => (match c1Decode pay with
        | some (b, _) => if hd.1 = d.dsn % 65536 then some (TRow.mk hd.2.1 hd.2.2.1 hd.2.2.2.1 (b.take rowData)) else none
        | none => none)
      | none => none
    let d : DSet := { d with slots := place 0 d.slots t (ordinal + 1) }
    match row with
    | some w => h.setPort p { x with cur := some { d with rows := if d.rows.contains w then d.rows else w :: d.rows } }
    | none =>
      if ordinal < 162 then (h.setPort p { x with cur := some { d with bad := d.bad + 1 } }).tcount p 7 1
      else h.setPort p { x with cur := some d }

/-- A track has ended. -/
def Head.readLost (h : Head) (p t : Nat) : Head :=
  let x := h.port p
  match x.cur with
  | none => h
  | some d => h.setPort p { x with cur := some { d with slots := place 0 d.slots t maxRows } }

/-- The copy wanted is one below another that was tried and failed (R377). -/
def TJob.again (j : TJob) : Bool :=
  match j.lower, j.top with
  | some k, some t => decide (k < t.rewr)
  | k, none => k.isSome
  | none, some _ => false

/-- A data set's reading begins; before a hand-off only that of another copy of the one in progress (R384). -/
def Head.beginSet (h : Head) (p : Nat) (d : DSet) (j : TJob) : Head :=
  let x := h.port p
  if h.tapeHold && !j.again then h.halt p else h.setPort p { x with cur := some { d with lower := j.again }, eq := h.tape.eq }

/-- A scan meets a copy of the data set wanted, which no directory names: a newer one may follow it, up to copy 7 (R331). -/
def Head.copyMet (h : Head) (p : Nat) (d : DSet) (j : TJob) : Head :=
  if 7 ≤ d.rewr then h.beginSet p d { j with lower := none, top := none }
  else h.updJob p (fun j => { j with top := some (match j.top with | some t => if t.rewr ≤ d.rewr then d else t | none => d) })

/-- Another copy than the lower one wanted (R331, R377): an earlier one is passed; a later one means that the one wanted does not
stand there, so that the next lower one is. -/
def Head.lowerCopy (h : Head) (p : Nat) (d : DSet) (j : TJob) : Head :=
  match j.lower with
  | some (k + 1) => if d.rewr < k + 1 then h else (h.updJob p (fun j => { j with lower := some k })).stepBack p d.wrap d.lpos
  | some 0 => ((h.updJob p (fun j => { j with lower := none, top := none })).tcount p 10 1).dsMissing p { j with lower := none, top := none }
  | none => h

/-- The newest copy of the data set wanted has been passed (R331): its bytes are read next, or its entry taken where they are not needed. -/
def Head.scanned (h : Head) (p : Nat) (w lpos : Nat) (t : DSet) (j : TJob) : Head :=
  match j.stage with
  | .later n =>
    if t.dtype = 2 then (h.updJob p (fun j => { j with lower := some t.rewr })).stepBack p w lpos
    else (h.setPort p { h.port p with dir := (h.port p).dir ++ [t.entry] }).laterFrom p (n + 1) j
  | _ => (h.updJob p (fun j => { j with lower := some t.rewr })).stepBack p w lpos

/-- A header met by the stage in progress (R335, R338, R363): a data set of another generation is ignored; the one wanted begins; one after
it means a step back; one before it is passed. -/
def Head.headerMet (h : Head) (p : Nat) (d : DSet) (tgen : Nat) : Head :=
  let x := h.port p
  match x.job with
  | none => h
  | some j =>
    if (match x.cur with | some c => c.dsn = d.dsn && c.rewr = d.rewr | none => false) then h
    else if (match j.stage with | .label => false | _ => true) && tgen ≠ x.tgen then h
    else
      let h := h.setPort p { x with seekAt := x.servo.lpos }
      match j.stage with
      | .label =>
        if d.dsn = 0 && d.dtype = 1 then
          (match j.lower with
           | some k => if d.rewr = k then h.beginSet p d j else h.lowerCopy p d j
           | none => h.copyMet p d j)
        else if j.lower.isSome then h.stepBack p d.wrap d.lpos
        else h.labelRead p none
      | .wraps lo hi => h.probeWraps p ((lo + hi + 1) / 2) hi
      | .last _ hi =>
        let j : TJob := { j with last := some d }
        let h := h.updJob p (fun _ => j)
        if hi = 0 then (h.wantDs p d.dsn (.eod d.dsn)).copyMet p d { j with want := d.dsn, stage := .eod d.dsn, lower := none, top := none }
        else h.probeLast p (x.distOf x.wrap d.lpos) hi j
      | _ =>
        if d.dsn < j.want then h
        else if j.want < d.dsn then h.stepBack p d.wrap d.lpos
        else if (match j.lower with | some k => decide (d.rewr ≠ k) | none => false) then h.lowerCopy p d j
        else if j.lower.isSome then h.beginSet p d j
        else
          match x.dir.find? (fun e => e.dsn = d.dsn) with
          | some e => if d.rewr < e.rewr then h else h.beginSet p d j
          | none =>
            match j.stage with
            | .eod n =>
              if d.dtype = 4 then h.copyMet p d j
              else if n ≤ 1 then h.noEod p j
              else (h.wantDs p (n - 1) (.eod (n - 1))).stepBack p d.wrap d.lpos
            | .later n =>
              if d.dtype ≠ 2 && decide (7 ≤ d.rewr) then (h.setPort p { h.port p with dir := (h.port p).dir ++ [d.entry] }).laterFrom p (n + 1) j
              else h.copyMet p d j
            | _ => h.copyMet p d j

/-- A header read on some track: that of another data set ends the scan for the newest copy of the one wanted, and then counts on its own
where the job wants what comes next. -/
def Head.readHeader (h : Head) (p : Nat) (d : DSet) (tgen : Nat) : Head :=
  let x := h.port p
  match x.job with
  | none => h
  | some j =>
    match j.top with
    | some t =>
      if j.lower.isSome || x.cur.isSome || d.dsn = t.dsn then h.headerMet p d tgen
      else
        let h := h.scanned p d.wrap d.lpos t j
        (match t.dtype, j.stage with
         | 2, _ => h
         | _, .later _ => h.headerMet p d tgen
         | _, _ => h)
    | none => h.headerMet p d tgen

/-- No data set of the generation stands within reach of the place the reading began (R332, R338). -/
def Head.noneFound (h : Head) (p : Nat) : Head :=
  let x := h.port p
  match x.job with
  | none => h
  | some j =>
    match j.stage with
    | .wraps lo hi => h.probeWraps p lo ((lo + hi + 1) / 2 - 1)
    | .last lo hi => if hi = 0 then h.failJob p .checkFail else h.probeLast p lo ((lo + hi) / 2) j
    | _ => match j.lower, j.top with
      | some _, _ => ((h.updJob p (fun j => { j with lower := none, top := none })).tcount p 10 1).dsMissing p { j with lower := none, top := none }
      | none, some t => h.scanned p x.wrap x.servo.lpos t j
      | none, none => h.dsMissing p j

/-- Servo frames passed since the reading began, or since the last header. -/
def Port.moved (x : Port) : Nat := max (x.servo.lpos - x.seekAt) (x.seekAt - x.servo.lpos)

/-- What the reading leads to after new rows: a finished pass; nothing found. -/
def Head.readTurn (h : Head) (p : Nat) : Head :=
  let x := h.port p
  match x.job with
  | none => h
  | some j =>
    match x.cur with
    | some d => if decide (64 ≤ d.slots.length) && d.slots.all (fun e => decide (maxRows ≤ e.2)) then h.passDone p d
      else if 2 * setRoom < x.moved then h.passDone p d else h
    | none =>
      if !j.recs.isEmpty && (match j.stage with | .data => true | _ => false) then
        (if (match j.recs with | r :: _ => (j.missing r).isEmpty | [] => false) then h.restoreTurn p
         else if 336 < x.moved then h.noneFound p else h)
      else if 336 < x.moved then h.noneFound p else h

end Sys2Proof.Machine
end

