-- ==== Sys2Proof/Machine/TapeJob.lean ====
section
/-! DEFINITION. ARCHIVE and RESTORE (R380-R385), and the frames and moments of a tape port that move a job: SAMPLE, STATUS,
backhitch, idle. -/

namespace Sys2Proof.Machine

/-! ## Jobs begin (R380) -/

/-- A job without anything done. -/
def TJob.blank : TJob :=
  { archive := true, vid := 0, seq := 0, side := 0, snap := 0, vol := 0, pool := 0, tgen := 0, format := false, maxds := 0, sigmode := 0
    first := 0, count := 0, srcvol := 0, srcbase := 0, key := [], stage := .label, todo := [], main := [], repair := false, items := []
    begun := false, ended := false, bodies := 0, jobNum := 0, rec1 := 0, crefs := [], written := 0, records := 0, poison := false
    partly := false, held := false, saved := [], lab := none, last := none, eod := [], acc := [], recs := [], got := [], weakDs := []
    want := 0, next := 0, lower := none, top := none }

/-- The tape begins to move for a job (R380, R381 step 1, R382 step 1): it reads the label, from the start of wrap 0. A stopped
or idle transport starts; a job that goes on after a hold or a stop of the transport reads the label again (R384). -/
def Head.kick (h : Head) (p : Nat) : Head :=
  let x := h.port p
  match x.job with
  | none => h
  | some j =>
    if (x.state = .stopped || x.state = .idle) && x.link.state = .run && !j.held && !h.tapeHold then
      (h.updJob p (fun j => { j with stage := .label, lower := none, top := none })).wind p 0 5000
    else h

/-- What every job asks of its port (R380). -/
def Head.portTakes (h : Head) (p : Nat) (tgen : Nat) (archive : Bool) : Bool :=
  let x := h.port p
  let st := x.status.toNat
  x.link.state = .run && bit st 59 && x.state ≠ .noCartridge && x.job.isNone && x.held.isNone && !(archive && bit st 58) &&
    (match x.label with | some l => tgen = 0 || tgen = l.tgen | none => true)

/-- A job runs on a port: it starts at TPCFG.STEP0, under the ladder table loaded last (R374, R375). -/
def Head.runJob (h : Head) (p : Nat) (v : HVerb) (j : TJob) : Head :=
  let x := h.port p
  let h := h.setPort p { x with
    job := some j, ladder := h.tape.ladder, step := min (h.cfg .TPCFG p 47 44) x.ceiling, upAt := none, downAt := none
    dwellAt := h.now, inflow := 0, cur := none, due := false, buf := [] }
  let h := (h.sayJob p (some (v.cmd.getD (h.side, 0)))).pushC v (.tape p) (.ok 0)
  h.kick p

/-- A re-run ARCHIVE or RESTORE whose job runs on, or was held for, its port takes the job up (R384); its completion carries
TKO = 0. -/
def Head.attachJob (h : Head) (p : Nat) (v : HVerb) (archive : Bool) : Option Head :=
  let x := h.port p
  let k := v.cmd.getD (h.side, 0)
  match x.job with
  | none => none
  | some j =>
    if v.cmd.isSome && j.archive = archive && j.side = k.1 && j.seq = k.2 && !(h.work.verbs.any (fun w => w.vid = j.vid)) then
      some (((h.updJob p (fun j => { j with vid := v.vid })).updCmd k (fun c => { c with tko := false })).pushC v (.tape p) (.ok 0))
    else none

/-- ARCHIVE: a0 snapshot handle, a1 port, a2 job descriptor (Table 12-13). -/
def Head.beginArchive (h : Head) (v : HVerb) : Head :=
  let p := v.arg 1
  let snap := h.handle (nth 0 v.ops 0)
  if 1 < p then h.failVerb v .invalid
  else
    match h.attachJob p v true with
    | some h => h
    | none =>
      match h.source (h.vside v) (h.vreplay v) (nth 0 v.ops 2) 64 with
      | .error s => h.failVerb v s
      | .ok (b, bad) =>
        let f := dword b
        let weak : Bool := f 0 1 1 = 1
        if bad then h.answerVerb v (.fail .poison)
        else if snap.isEmpty || f 0 31 2 ≠ 0 || f 1 31 0 ≠ 0 || !((b.drop 16).take 48).all (fun x => x = 0) then h.failVerb v .invalid
        else
          let todo := h.snapRanges snap
          let wk := if weak then weakRanges h.tape.weak else []
          if !h.portTakes p (if f 0 0 0 = 1 then 0 else f 0 63 32) true then h.failVerb v .invalid
          else
            let k := v.cmd.getD (h.side, 0)
            h.runJob p v { TJob.blank with
              vid := v.vid, seq := k.2, side := k.1, snap := nth 0 v.ops 0, tgen := f 0 63 32, format := f 0 0 0 = 1, maxds := f 1 63 32
              pool := (match snap with | q :: _ => h.poolOf q.1 | [] => 0)
              repair := !wk.isEmpty, todo := if wk.isEmpty then todo else wk, main := if wk.isEmpty then [] else todo }

/-- ARCHIVE (R381). -/
def execArchive (t : Nat) (w : VWord) (s : State) : Host.Outcome State Fault Refusal :=
  s.run (fun h => h.hostVerb t 0x10 0 [3] w Head.beginArchive)

/-- RESTORE: a0 port, a1 destination volume, a2 job descriptor (Table 12-14). While the head is READ_MOSTLY it completes with
CAPACITY (R107). -/
def Head.beginRestore (h : Head) (v : HVerb) : Head :=
  let p := v.arg 0
  if 1 < p then h.failVerb v .invalid
  else
    match h.attachJob p v false with
    | some h => h
    | none =>
      match h.volFor v (v.arg 1) with
      | none => h.failVerb v .invalid
      | some y =>
        match h.source (h.vside v) (h.vreplay v) (nth 0 v.ops 2) 96 with
        | .error s => h.failVerb v s
        | .ok (b, bad) =>
          let f := dword b
          if bad then h.answerVerb v (.fail .poison)
          else if f 0 31 2 ≠ 0 || f 0 1 0 = 3 || f 1 15 0 ≠ 0 || decide (2 ^ 48 < f 2 63 0) || f 3 47 0 ≠ 0 ||
              !((b.drop 40).take 24).all (fun x => x = 0) then h.failVerb v .invalid
          else if h.work.readMostly then h.failVerb v .capacity
          else if !h.portTakes p (f 0 63 32) false then h.failVerb v .invalid
          else
            let k := v.cmd.getD (h.side, 0)
            h.runJob p v { TJob.blank with
              archive := false, vid := v.vid, seq := k.2, side := k.1, vol := v.arg 1, pool := y.pool, tgen := f 0 63 32, sigmode := f 0 1 0
              first := f 1 63 16, count := f 2 63 0, srcvol := f 3 63 48, srcbase := f 4 63 0, key := (b.drop 64).take 32 }

/-- RESTORE (R382). -/
def execRestore (t : Nat) (w : VWord) (s : State) : Host.Outcome State Fault Refusal :=
  s.run (fun h => h.hostVerb t 0x11 0 [3] w Head.beginRestore)

/-! ## Frames (R350, R352, R358-R364, R369, R377) -/

/-- The target that a step and a read pass select (R360, R377). -/
def Port.target (x : Port) : Target :=
  let k := nth 0 x.eq.tsel x.stepNow
  let k := match x.cur with | some d => if x.state = .reading && d.pass = 3 then (if k % 2 = 0 then k + 1 else k - 1) else k | none => k
  nth ⟨[], []⟩ x.eq.targets k

/-- What one track's channel brought up, taken in. -/
def Head.chanEvent (h : Head) (p t : Nat) (e : ChEv) : Head :=
  let wr := (h.port p).state = .writing
  match e with
  | .header d g => if wr then h else if (h.port p).state = .reading then h.readHeader p d g else h
  | .row n r => if wr then h.verifyRow p t n r else if (h.port p).state = .reading then h.readRow p t n r else h
  | .lost => if wr then h.verifyLost p t else if (h.port p).state = .reading then h.readLost p t else h

/-- The 32 instants of a frame on track `t`. -/
def Head.trackIn (h : Head) (p gap t : Nat) (xs : List Int) : Head :=
  let x := h.port p
  let tg := x.target
  let c := match look none x.chans t with | some c => c | none => Chan.start tg
  let y := c.take x.eq tg.g x.lstep.fsr gap xs
  let h := h.setPort p { x with chans := place none x.chans t (some y.1), gainDue := x.gainDue || y.1.gain ≠ c.gain }
  let h := (h.tcount p 13 y.2.1).tcount p 14 y.2.2.1
  y.2.2.2.foldl (fun h e => h.chanEvent p t e) h

/-- GAIN (R359, Table 12-2): the gain codes, on a change, at most once per 10 µs. -/
def Head.gainTurn (h : Head) (p : Nat) : Head :=
  let x := h.port p
  let age := x.gainAge + 32
  if x.gainDue && decide (x.adcr ≤ 100 * age) then
    let code := fun (t : Nat) => match look none x.chans t with | some c => BitVec.ofNat 8 c.gain.toNat | none => 0
    (h.setPort p { x with gainDue := false, gainAge := 0 }).sendTl p 0x03 (wordsOf 8 ((upto 64).map code))
  else h.setPort p { x with gainAge := age }

/-- TL_SAMPLE_RX (R350, R361): a frame that fails its check is discarded; the frames that its number shows missing stand as
erasures. -/
def Head.tlSample (h : Head) (p : Nat) (f : SampleFrame) : Head :=
  let gap := (f.seq + 65536 - look 0 (h.port p).link.rxSeq 0x11) % 65536
  let y := h.tlSeen p 0x11 f.seq (f.chkOk && f.lenOk)
  if !y.2 then y.1
  else
    let h := y.1.tfeStatus p f.status
    let x := h.port p
    let h := h.setPort p { x with servo := { x.servo with since := x.servo.since + 32 * gap } }
    let h := h.setPort p ((h.port p).servoIn f.servo0 f.servo1)
    if x.state = .writing || x.state = .reading then
      let h := (upto 64).foldl (fun h t => h.trackIn p gap t (f.samples.map (fun l => nth 0 l t))) h
      let h := h.gainTurn p
      (if (h.port p).state = .writing then h.writeTurn p else if (h.port p).state = .reading then h.readTurn p else h).settle
    else h.settle

/-- TL_SAMPLE_RX (R350). -/
def execTlSampleRx (p : Nat) (f : SampleFrame) (s : State) : Host.Outcome State Fault Refusal := s.run (fun h => h.tlSample p f)

/-- TL_STATUS_RX (R349): the tape stands still; a job that waits for its port starts, records that wait for pages go on. -/
def execTlStatusRx (p seq : Nat) (chkOk : Bool) (st : TfeStatus) (s : State) : Host.Outcome State Fault Refusal :=
  s.run (fun h =>
    let y := h.tlSeen p 0x12 seq chkOk
    if !y.2 then y.1
    else
      let h := y.1.tfeStatus p st
      let waits := match (h.port p).job with
        | some j => (match j.stage, j.recs with | .data, r :: _ => !j.archive && (j.missing r).isEmpty | _, _ => false)
        | none => false
      (if waits && (h.port p).state = .stopped then h.restoreTurn p else h.kick p).settle)

/-! ## Backhitch and idle (R371, R385) -/

/-- BACKHITCH_DONE: the tape is back at speed and in place (a seek ends with it too: DESIGN CHOICE, log entry 55). A job that writes
goes on with DATASET_START; one that reads reads on. -/
def Head.backhitchDone (h : Head) (p : Nat) : Head :=
  let x := h.port p
  if (x.state ≠ .backhitch && x.state ≠ .seeking) || x.link.state ≠ .run then h
  else
    let x : Port := if x.state = .seeking then { x with servo := { x.servo with lpos := x.seekAt, speeds := [], since := 0 } }
      else { x with servo := { x.servo with speeds := [], since := 0 } }
    match x.job with
    | none => (h.setPort p x).halt p
    | some j =>
      if j.writing then (h.setPort p { x with state := .writing, chans := [] }).sendCtrl p
      else (h.setPort p { x with state := .reading, chans := [], seekAt := x.servo.lpos }).sendCtrl p

/-- BACKHITCH_DONE (R371). -/
def execBackhitchDone (p : Nat) (s : State) : Host.Outcome State Fault Refusal := s.run (fun h => h.backhitchDone p)

/-- TAPE_PORT_IDLE (R385): a transport that stood stopped with no job for TPCFG.IDLE seconds. -/
def Head.portIdle (h : Head) (p : Nat) : Head :=
  let x := h.port p
  if x.state = .stopped && x.job.isNone && h.cfg .TPCFG p 63 48 ≠ 0 then
    (h.setPort p { x with state := .idle, chans := [], servo := { x.servo with act := 0, reelA := 0, reelB := 0, smp0 := [], smp1 := [] } }).sendCtrl p
  else h

/-- TAPE_PORT_IDLE (R385). -/
def execTapePortIdle (p : Nat) (s : State) : Host.Outcome State Fault Refusal := s.run (fun h => h.portIdle p)

end Sys2Proof.Machine
end

