-- ==== Sys2Proof/Machine/Checks.lean ====
section
/-! DEFINITION. Caches and checked memory as commands see them (R396, R397, R399-R401, R404-R408): write-backs, the merging
buffer's timer, patrol scrubbing, the PSTORE's failures, the writes of ENGCFG, L2CFG and ECCTCTL. -/

namespace Sys2Proof.Machine

/-! ## Buffers (R397, R399) -/

/-- A write-back is acknowledged: level 1 an L1 D's, which the level below takes where it can; level 2 an L2's. -/
def Head.writeback (h : Head) (level n line : Nat) : Head :=
  if level = 1 then
    match cached (h.l1 n).evict line with
    | none => h
    | some c =>
      match (h.setL1 n { h.l1 n with evict := dropLine (h.l1 n).evict line }).putBelow (pelotonOf n) line c.ln with
      | some h' => h'
      | none => h
  else h.ackL2 n line

/-- WRITEBACK_ACK (R399). -/
def execWritebackAck (level n line : Nat) (s : State) : Host.Outcome State Fault Refusal := s.run (fun h => h.writeback level n line)

/-- WT_BUFFER_DRAIN: 64 cycles have passed without a store (R397). -/
def execWtBufferDrain (e : Nat) (s : State) : Host.Outcome State Fault Refusal :=
  s.run (fun h => match h.drainOne e with | some h => h | none => h)

/-! ## Patrol scrubbing (R406) -/

/-- A word as its checker delivers it written back, its check bits computed anew. -/
def Head.scrubWord (h : Head) (m w : Nat) : Head :=
  if m = 1 ∨ m = 4 then let x := h.memWord m w; h.putWord m w x.1 x.2
  else h.setCore { h.core with chk := place 0 h.core.chk (chkKey m w) 0 }

/-- The L2 that holds a line: the lowest peloton whose L2 does (DESIGN CHOICE, log entry 56: an address names no peloton). -/
def Head.l2Of (h : Head) (n : Nat) : Option (Nat × CLine) :=
  (upto 12).findSome? (fun k => (cached (h.l2 k).lines n).map (fun c => (k, c)))

/-- PATROL_SCRUB of an address of a memory; address 0 begins a new pass (DESIGN CHOICE, log entry 56). A corrected error is
counted, per way in L2, and written back; an uncorrectable one leaves poison. -/
def Head.patrol (h : Head) (m addr : Nat) (res : ScrubResult) : Head :=
  let h := if addr = 0 then h.setCore { h.core with
      scrubPrev := place [] h.core.scrubPrev m (look [] h.core.scrubNow m), scrubNow := place [] h.core.scrubNow m [] } else h
  let w := addr / 8
  match res with
  | .clean => h
  | .corrected =>
    let h := h.scrubWord m w
    if m = 0 then
      match h.l2Of (addr / 64) with
      | some (k, c) => h.wayCorrected k c.way addr
      | none => h.eccCorrected 0 addr
    else h.eccCorrected m addr
  | .uncorrectable =>
    if m = 0 then
      match h.l2Of (addr / 64) with
      | some (k, c) => h.l2Uncorrectable k c.line (w % 8)
      | none => h.eccNote 0 3 addr
    else
      let h := if m = 1 ∨ m = 4 then h.putWord m w (h.memWord m w).1 true else h
      h.eccNote m 3 addr

/-- PATROL_SCRUB (R406). -/
def execPatrolScrub (mem addr : Nat) (res : ScrubResult) (s : State) : Host.Outcome State Fault Refusal :=
  s.run (fun h => h.patrol mem addr res)

/-! ## PSTORE (R283, R407, R446, R508) -/

/-- The earlier contents of a metadata page whose changes were held only in lost deltas (R283 step 3). -/
def Head.pageBefore (h : Head) (p : MPage) (side : Nat) : PageCopy :=
  (h.vols.copies.find? (fun y => y.page = p && y.side = side && y.stored)).getD ⟨p, side, true, [], [], []⟩

/-- The page directories of a side rebuilt from its metadata bands (R283 step 3): a page that was not written since its last change reads as
it stands on flash. Writes of the side's volumes that were still in the lehr are gone with their pages (step 1); of those on flash, a unit
that no entry names any more holds nothing. -/
def Head.rebuildPages (h : Head) (side : Nat) : Head :=
  let waits := (h.vols.copies.filter (fun y => y.side = side && !y.stored)).map (fun y => y.page)
  let old := ((h.vols.dirty.filter (fun x => x.2 = side)).map (fun x => x.1) ++ waits).map (fun p => h.pageBefore p side)
  let is := fun (p : MPage) => old.any (fun y => y.page = p)
  let vols : List Volume := h.vols.vols.map (fun (v : Volume) =>
    if v.home ≠ side then v
    else
      let mine := old.filter (fun y => match y.page with | .map n _ => n = v.num | .fine n _ => n = v.num | _ => false)
      let map := v.map.filter (fun m => !(is (h.entryPage v m.unit))) ++ (mine.map (fun y => y.map)).flatten
      let emap := ((upto (v.emap.length / 256 + 1)).map (fun n =>
        if is (.kept v.num n) then (h.pageBefore (.kept v.num n) side).map else (v.emap.drop (256 * n)).take 256)).flatten
      let gone := (v.map.map (fun m => m.unit / 65)).filter (fun u => !(map.any (fun m => m.unit / 65 = u)))
      { v with
        map := map, emap := emap
        writes := v.writes.filter (fun w => w.done && !(gone.any (fun u => meets (w.off, w.len) (u * 1048576, 1048576)))) })
  let chunks := h.fl.chunks.filter (fun c => c.side ≠ side || !(is (.chunks c.pool (c.chunk / 256)))) ++ (old.map (fun y => y.chunks)).flatten
  let cold := h.red.cold.map (fun (c : ColdPage) =>
    if c.side = side && is (.cold c.pool c.page) then { c with ents := (h.pageBefore (.cold c.pool c.page) side).cold } else c)
  { h with
    vols := { h.vols with
      vols := vols, dirty := h.vols.dirty.filter (fun x => x.2 ≠ side), deltas := h.vols.deltas.filter (fun d => d.side ≠ side)
      copies := h.vols.copies.filter (fun (y : PageCopy) => y.side ≠ side || y.stored), fines := h.vols.fines.filter (fun x =>
        vols.any (fun v => v.num = x.1 && (v.home ≠ side || v.map.any (fun m => m.unit = x.2 * 65 && m.kind = .fine)))) }
    fl := { h.fl with chunks := chunks, gc := h.fl.gc.filter (fun g => g.side ≠ side) }
    red := { h.red with cold := cold } }

/-- A side's PSTORE structures are lost (R283): lehr pages discarded, the journal restarted, the page directories rebuilt, the stripe journal
gone and every band of the side to be resynchronised (R258), an event. -/
def Head.psLost (h : Head) (side : Nat) : Head :=
  let newest := if side = h.side then (if h.linked then some (h.jour side).newest else none) else h.pair.link.peerSeq
  let start := match newest with | some n => (n + 2 ^ 20) % 2 ^ 48 | none => 2 ^ 47
  let h := h.freePagesOf ((h.pair.lehr.filter (fun p => p.o = side)).map (fun p => p.o * 1048576 + p.p))
  let h := (h.setJour side { Journal.blank with next := start }).rebuildPages side
  let h := h.setFl { h.fl with 
    jour := h.fl.jour.filter (fun x => x.side ≠ side)
    unsync := h.fl.unsync.filter (fun n => !((h.band n).any (fun b => b.side = side))) ++ (h.fl.bands.filter (fun b => b.side = side)).map (fun b => b.num) }
  h.headEvent 0x0705 3 side start

/-- The local PSTORE is declared failed (R407): `why` 1 device, 2 count, 3 read-back. A head that serves alone has lost what it held
(R283). -/
def Head.psFailed (h : Head) (why : Nat) : Head :=
  if h.core.psFail then h
  else
    let h := ((h.setCore { h.core with psFail := true }).headEvent 0x0402 2 why 0).recorderVolatile 1
    if !h.mirroring || h.core.psPeer then ((upto 2).filter (fun s => h.serves s)).foldl (fun h s => h.psLost s) h else h

/-- PSTORE_UNCORRECTABLE: `why` 0 a line read is uncorrectable, repaired from the peer's copy where its structure is mirrored; more
than PSCFG.PSFAIL of them within 24 h fail the PSTORE; 1 a device fault; 3 a line's read-back failed twice. -/
def Head.psUncorrectable (h : Head) (why : Nat) : Head :=
  if why = 1 ∨ why = 3 then h.psFailed why
  else
    let l := h.now :: h.core.psUnc.filter (fun t => decide (h.now < t + 86400000000000))
    let h := (h.setCore { h.core with psUnc := l }).eccNote 5 3 0
    if h.cfg .PSCFG 0 63 56 < l.length then h.psFailed 2 else h

/-- PSTORE_UNCORRECTABLE (R407): what a mirrored line held is not lost, and no rule says what an unmirrored one held reads as. -/
def execPstoreUncorrectable (why : Nat) (_mirrored : Bool) (s : State) : Host.Outcome State Fault Refusal :=
  s.run (fun h => (h.psUncorrectable why).settle)

/-- VDD_PS_LOW (R407, R508). -/
def execVddPsLow (s : State) : Host.Outcome State Fault Refusal := s.run (fun h => (h.psFailed 1).settle)

/-! ## ENGCFG (R396, R397) -/

/-- What a write of ENGCFG does: INVI and INVD empty their caches at once and read 0; an enable set without the invalidate that
R396 asks for is undefined. -/
def Head.doEngcfg (h : Head) (c : Caller) (e : Nat) (v : Word) : WriteResult :=
  let n := v.toNat
  let x := h.l1 e
  let rise := fun (b : Nat) => bit n b && h.cfg .ENGCFG e b b = 0
  let fall := fun (b : Nat) => !bit n b && h.cfg .ENGCFG e b b = 1
  if (rise 63 && !x.ivi) || (rise 62 && !x.ivd) then .error .cacheEnabledWithoutInvalidate
  else
    let ivi := bit n 59
    let ivd := bit n 58
    let x : L1 := { x with
      iline := if ivi then [] else x.iline, lines := if ivd then [] else x.lines
      ivi := (x.ivi || ivi) && !fall 63, ivd := (x.ivd || ivd) && !fall 62
      scount := if ivd then 0 else x.scount }
    .ok ((h.setReg c Reg.ENGCFG.row e (v &&& ~~~(BitVec.ofNat 64 (maskBits 59 58)))).setL1 e x, .ok)

/-- ENGCFG_INVI (R396). -/
def execEngcfgInvi (c : Caller) (e : Nat) (v : Word) (s : State) : Host.Outcome State Fault Refusal :=
  s.write (fun h => h.writeWith c Reg.ENGCFG.row e v (fun h => h.doEngcfg c e v))

/-- ENGCFG_INVD (R396). -/
def execEngcfgInvd (c : Caller) (e : Nat) (v : Word) (s : State) : Host.Outcome State Fault Refusal :=
  s.write (fun h => h.writeWith c Reg.ENGCFG.row e v (fun h => h.doEngcfg c e v))

/-! ## L2CFG (R396, R400, R401) -/

/-- What a write of L2CFG does. At most 8 ways are locked and no locked way is disabled; a way that is disabled by the write gives
up its lines as in R400. -/
def Head.doL2cfg (h : Head) (c : Caller) (k : Nat) (v : Word) : WriteResult :=
  let n := v.toNat
  let x := h.l2 k
  let dis := bits n 31 16
  let lock := bits n 15 0
  let on := bit n 63
  let was : Bool := h.cfg .L2CFG k 63 63 = 1
  if 8 < lanes 16 lock || lock &&& dis ≠ 0 then h.noWrite .invalid
  else if on && !was && !x.iv then .error .cacheEnabledWithoutInvalidate
  else
    let inv := bit n 62
    let h := h.setL2 k { x with lines := if inv then [] else x.lines, iv := (x.iv || inv) && !(was && !on) }
    let h := ((upto 16).filter (fun w => bit dis w && !h.wayOff k w)).foldl (fun h w => h.wayLost k w) h
    .ok (h.setReg c Reg.L2CFG.row k (v &&& ~~~(BitVec.ofNat 64 (maskBits 62 62))), .ok)

/-- L2CFG_INV (R396). -/
def execL2cfgInv (c : Caller) (k : Nat) (v : Word) (s : State) : Host.Outcome State Fault Refusal :=
  s.write (fun h => h.writeWith c Reg.L2CFG.row k v (fun h => h.doL2cfg c k v))

/-- L2CFG_LOCK_DIS_WRITE (R400, R401). -/
def execL2cfgLockDisWrite (c : Caller) (k : Nat) (v : Word) (s : State) : Host.Outcome State Fault Refusal :=
  s.write (fun h => h.writeWith c Reg.L2CFG.row k v (fun h => h.doL2cfg c k v))

/-! ## Checker tests (R408) -/

/-- A raw write of a word: data, check bits and poison as given. A word of L2 is that of the cached line at the address; what L2
does not hold, and the other SRAM, keep the word for raw reads. -/
def Head.rawWrite (h : Head) (m a : Nat) (d : Word) (chk : Nat) (p : Bool) : Head :=
  let w := a / 8
  let key := chkKey m w
  if m = 1 ∨ m = 4 then
    let h := h.putWord m w d p
    h.setCore { h.core with chk := place 0 h.core.chk key (chk + 1) }
  else
    let h := h.setCore { h.core with chk := place 0 h.core.chk key (chk + 1), raw := place 0 h.core.raw key d }
    if m ≠ 0 then h
    else
      match h.l2Of (a / 64) with
      | none => h
      | some (k, c) =>
        let x := checked d (BitVec.ofNat 8 chk)
        let l := c.ln.store (8 * (w % 8)) (leBytes 8 x.1.toNat)
        let pois := if p || x.2 then l.pois ||| (1#8 <<< (w % 8)) else l.pois
        h.setL2 k { h.l2 k with lines := (h.l2 k).lines.map (fun (y : CLine) => if y.line = c.line then { y with data := l.data, pois := pois } else y) }

/-- A raw read of a word: data, check bits, poison, uncorrected. -/
def Head.rawRead (h : Head) (m a : Nat) : Word × Nat × Bool :=
  let w := a / 8
  let key := chkKey m w
  let stored := look 0 h.core.chk key
  let code := fun (d : Word) => if stored = 0 then (Config.secded d).toNat else stored - 1
  if m = 1 then let d := cellWord h.core.scr w; (d, code d, look false h.core.scrP w)
  else if m = 4 then
    let d := cellWord h.core.hbm w
    let p := look false h.core.hbmP w
    (d, if p && stored = 0 then (~~~(Config.secded d)).toNat else code d, p)
  else
    match (if m = 0 && stored = 0 then h.l2Of (a / 64) else none) with
    | some (_, c) => let d := c.ln.word (w % 8); (d, code d, c.ln.pois.getLsbD (w % 8))
    | none => let d := look 0 h.core.raw key; (d, code d, false)

/-- What a write of ECCTCTL does: OP 1 writes raw, 2 reads raw, on the word that ECCTA names. -/
def Head.doEcct (h : Head) (v : Word) : WriteResult :=
  let m := h.cfg .ECCTA 0 63 60
  let a := h.cfg .ECCTA 0 47 0
  let op := bits v.toNat 63 62
  if op = 0 then .ok (h, .ok)
  else if op = 3 ∨ a % 8 ≠ 0 then h.noWrite .invalid
  else if op = 1 then .ok (h.rawWrite m a (h.stored 0 .ECCTD 0) (h.cfg .ECCTC 0 7 0) (h.cfg .ECCTC 0 8 8 = 1), .ok)
  else
    let x := h.rawRead m a
    .ok (((h.store 0 .ECCTD 0 x.1).setFld 0 .ECCTC 0 7 0 x.2.1).setFld 0 .ECCTC 0 8 8 (bnat x.2.2), .ok)

/-- ECCT_RAW_WRITE (R408). -/
def execEcctRawWrite (c : Caller) (v : Word) (s : State) : Host.Outcome State Fault Refusal :=
  s.write (fun h => h.writeWith c Reg.ECCTCTL.row 0 v (fun h => h.doEcct v))

/-- ECCT_RAW_READ (R408). -/
def execEcctRawRead (c : Caller) (v : Word) (s : State) : Host.Outcome State Fault Refusal :=
  s.write (fun h => h.writeWith c Reg.ECCTCTL.row 0 v (fun h => h.doEcct v))

end Sys2Proof.Machine
end

