-- ==== Sys2Proof/Machine/Keys.lean ====
section
/-! DEFINITION. Roles, keys, sessions, digests, attestation and the activation of firmware (R416-R442): the key table and its
writes, HELLO and PROOF, maker access, import of keys, digest contexts, the reports an identity key signs. -/

namespace Sys2Proof.Machine

/-! ## The key table (R416-R421) -/

/-- The key of a live slot. -/
def Head.keyOf (h : Head) (n : Nat) : Option KeyEnt := look none h.keys.slots n

/-- Live slots in a range. -/
def Head.liveKeys (h : Head) (lo hi : Nat) : Nat := (upto (hi + 1 - lo)).countP (fun k => (h.keyOf (lo + k)).isSome)

/-- The key table with a slot replaced, on both heads. -/
def Head.setKey (h : Head) (n : Nat) (k : Option KeyEnt) : Head :=
  ({ h with keys := { h.keys with slots := place none h.keys.slots n k } }).record'
    (.key n (k.map (fun (e : KeyEnt) => (e.key, e.by_))))

/-- The connection number by which the SMBus session keeps its KEYX key. -/
def smbConn : Nat := 4294967296

/-- Every session under the slots that `p` picks ends: its connections close with reason SESSION (R421, R425). -/
def Head.endSessions (h : Head) (p : Nat → Bool) : Head :=
  let mine := h.net.conns.filter (fun c => match c.slot with | some n => p n | none => false)
  let h := mine.foldl (fun h c => (h.updConn c.num (fun c => { c with slot := none })).closeConn c.num 6) h
  let port := match h.sys.smb.sess with | some x => p x.slot | none => false
  let h := { h with
    keys := { h.keys with keyx := h.keys.keyx.filter (fun e => !(mine.any (fun c => c.num = e.1) || (port && e.1 = smbConn))) }
    net := { h.net with hellos := h.net.hellos.filter (fun x => !(p x.slot)) } }
  { h with sys := { h.sys with smb := { h.sys.smb with
    sess := (match h.sys.smb.sess with | some x => if p x.slot then none else some x | none => none)
    hello := (match h.sys.smb.hello with | some x => if p x.slot then none else some x | none => none) } } }

/-- Table 14-3: whether a caller may enrol (`enrol`) or remove on a slot in range. Firmware has no slot that KEYINFO.BY could
name (DEDUCED, log entry 40). -/
def Head.mayKey (h : Head) (tier : Tier) (enrol : Bool) (slot : Nat) : Bool :=
  if slot < 64 then tier = .I
  else if slot < 72 then tier = .I || (enrol && tier = .M && h.liveKeys 64 71 = 0)
  else tier = .M

/-- Checks 1 to 4 of R419 on an enrolment record; none where all pass. -/
def Head.keyCheck (h : Head) (tier : Tier) (b : List Byte) : Option Status :=
  let op := dword b 0 63 56
  let slot := dword b 0 55 48
  let key := (b.drop 16).take 32
  let inRange := (op = 1 || op = 2) && decide (slot ≤ 73)
  if !Tier.I.le tier || (inRange && !h.mayKey tier (op = 1) slot) then some .tier
  else if !inRange || dword b 0 47 0 ≠ 0 || dword b 1 63 0 ≠ 0 || dword b 6 63 0 ≠ 0 || dword b 7 63 0 ≠ 0 ||
      (op = 2 && key.any (fun x => x ≠ 0)) then some .invalid
  else if op = 1 then
    (if (h.keyOf slot).isSome || (upto 74).any (fun n => (h.keyOf n).any (fun k => k.key = key)) then some .invalid else none)
  else if (h.keyOf slot).isNone || (decide (64 ≤ slot ∧ slot < 72) && decide (h.liveKeys 64 71 ≤ 1)) ||
      (decide (72 ≤ slot) && decide (h.liveKeys 72 73 ≤ 1)) then some .invalid
  else none

/-- A slot is removed (R421): its sessions end, its windows are released. -/
def Head.removeKey (h : Head) (slot : Nat) : Head :=
  let h := (h.setKey slot none).endSessions (fun n => n = slot)
  (h.net.windows.filter (fun w => w.slot = slot)).foldl (fun h w => h.winRelease w.side w.idx) h

/-- An enrolment record that passed its checks takes effect. -/
def Head.applyKey (h : Head) (b : List Byte) (by_ : Nat) : Head :=
  let slot := dword b 0 55 48
  if dword b 0 63 56 = 1 then h.setKey slot (some ⟨(b.drop 16).take 32, by_⟩) else h.removeKey slot

/-- A maker is refused an action on an operator's or installer's key (R417). -/
def keyRefused (tier : Tier) (b : List Byte) : Bool := tier = .M && decide (dword b 0 55 48 < 72)

/-- A write of KEYENR (R419). -/
def Head.doKeyenr (h : Head) (c : Caller) (v : Word) : WriteResult :=
  match h.writeCheck c Reg.KEYENR.row 0 v with
  | some s => .ok (h.auditReg c Reg.KEYENR.row 0 s false, s)
  | none =>
    match h.tabref c v 64 with
    | none => .ok (h.auditReg c Reg.KEYENR.row 0 .invalid false, .invalid)
    | some b =>
      match h.keyCheck c.tier b with
      | some s => .ok (h.auditReg c Reg.KEYENR.row 0 s (s = .tier && keyRefused c.tier b), s)
      | none => .ok ((h.applyKey b c.slot).auditReg c Reg.KEYENR.row 0 .ok false, .ok)

/-- KEY_ENROL (R419). -/
def execKeyEnrol (c : Caller) (v : Word) (s : State) : Host.Outcome State Fault Refusal :=
  s.write (fun h => h.doKeyenr c v)

/-- KEY_REMOVE (R419, R421). -/
def execKeyRemove (c : Caller) (v : Word) (s : State) : Host.Outcome State Fault Refusal :=
  s.write (fun h => Head.doKeyenr h c v)

/-! ## Sessions (R422-R424) -/

/-- The transcript T (R422). -/
def transcript (addr headConn clientConn slot : Nat) (nc nh : List Byte) : List Byte :=
  [0x43, 0x4C, 0x41, 0x58, 0x49, 0x53, 0x2D, 0x53, 0x45, 0x53, 0x53, 0x49, 0x4F, 0x4E, 0x2D, 0x31] ++ Sha.beBytes 16 addr ++
    Sha.beBytes 4 headConn ++ Sha.beBytes 4 clientConn ++ [BitVec.ofNat 8 slot] ++ nc ++ nh

/-- Maker access is closed (R425). -/
def Head.makerClosed (h : Head) : Bool := h.cfg .MKACC 0 63 63 = 1

/-- A HELLO for the slot is refused (R423). -/
def Head.helloRefused (h : Head) (slot : Nat) : Bool :=
  (h.keyOf slot).isNone || (decide (72 ≤ slot) && h.makerClosed)

/-- More than 4,096 proofs have come within the present second (R423). -/
def Head.proofsFull (h : Head) : Bool :=
  h.net.proofs.1 = h.now / 1000000000 && decide (4096 < h.net.proofs.2)

/-- One more proof of the present second. -/
def Head.countProof (h : Head) : Head :=
  let sec := h.now / 1000000000
  let n := if h.net.proofs.1 = sec then h.net.proofs.2 else 0
  { h with net := { h.net with proofs := (sec, n + 1) } }

/-- The head with the HELLO of a connection replaced. -/
def Head.setHello (h : Head) (n : Nat) (x : Option Hello) : Head :=
  { h with net := { h.net with hellos := h.net.hellos.filter (fun y => y.conn ≠ some n) ++ x.toList } }

/-- A RESULT on a connection. -/
def Head.sendResult (h : Head) (n : Nat) (s : Status) (tier : Nat) : Head :=
  h.reliable' n (.session 4 (Sha.beBytes 2 s.code ++ [BitVec.ofNat 8 tier, 0, 0, 0, 0, 0]))

/-- A HELLO on a connection (R422, R423). -/
def Head.onHello (h : Head) (k : Pkt) (c : Conn) (slot : Nat) (nc : List Byte) : Head :=
  if c.slot.isSome then h.sendResult c.num .invalid 0
  else if h.proofsFull then h.closeConn c.num 6
  else if h.helloRefused slot then (h.sendResult c.num .tier 0).closeConn c.num 6
  else
    let x := h.random 32
    let h := x.1.setHello c.num (some ⟨some c.num, k.frame.dst, slot, nc, x.2⟩)
    let t := transcript k.frame.dst c.num c.far slot nc x.2
    h.reliable' c.num (.session 2 (x.2 ++ Config.idPublic ++ Config.edSign Config.idPrivate (2 :: t)))

/-- SESSION_HELLO (R422, R423). -/
def execSessionHello (k : Rx) (slot nc : List Byte) (s : State) : Host.Outcome State Fault Refusal :=
  s.run (fun h =>
    let k := (k.join [slot, nc]).pkt
    h.rx k (k.sessionStep = 1) takesAll (fun _ => true) (fun h c =>
      h.rxReliable k c false (fun h => h.onHello k c (beAt k.pay 0 1) (k.pay.drop 8))))

/-- A proof has failed (R418, R423): counted and recorded; `addr` is the client's address. -/
def Head.proofFailed (h : Head) (slot addr : Nat) : Head :=
  let n := (h.cfg .KEYSTAT 0 31 0 + 1) % 4294967296
  (h.setFld 0 .KEYSTAT 0 31 0 n).event 0x0202 1 slot 0 0 (addr / 18446744073709551616) (addr % 18446744073709551616) 0

/-- A session under an installer or maker slot is recorded (R418); `conn` is 0 for SMBus. -/
def Head.sessionNoted (h : Head) (slot conn : Nat) : Head :=
  if 64 ≤ slot then h.event 0x0201 0 slot 0 0 conn 0 0 else h

/-- The signature of a PROOF verifies under the slot's key (R422). -/
def Head.proofOk (h : Head) (x : Hello) (headConn clientConn : Nat) (sig : List Byte) : Bool :=
  !(h.helloRefused x.slot) &&
    (match h.keyOf x.slot with
     | some e => Config.edVerify e.key (3 :: transcript x.addr headConn clientConn x.slot x.nc x.nh) sig
     | none => false)

/-- A PROOF on a connection (R422, R423). -/
def Head.onProof (h : Head) (k : Pkt) (c : Conn) (sig : List Byte) : Head :=
  let h := h.countProof
  match (if c.init then none else h.net.hellos.find? (fun x => x.conn = some c.num)) with
  | none => h.sendResult c.num .invalid 0
  | some x =>
    let h := h.setHello c.num none
    if h.proofOk x c.num c.far sig then
      let h := h.updConn c.num (fun c => { c with slot := some x.slot })
      (h.sessionNoted x.slot c.num).sendResult c.num .ok (slotTier x.slot).num
    else ((h.proofFailed x.slot k.src).sendResult c.num .checkFail 0).closeConn c.num 6

/-- SESSION_PROOF (R422, R423). -/
def execSessionProof (k : Rx) (sg : List Byte) (s : State) : Host.Outcome State Fault Refusal :=
  s.run (fun h =>
    let k := (k.join [sg]).pkt
    h.rx k (k.sessionStep = 3) takesAll (fun _ => true) (fun h c =>
      (h.rxReliable k c false (fun h => h.onProof k c k.pay)).settle))

/-! ## Maker access (R425, R426) -/

/-- A write of MKACC that passed the general checks. -/
def Head.doMkacc (h : Head) (c : Caller) (v : Word) : WriteResult :=
  let was := h.makerClosed
  let h := h.setReg c Reg.MKACC.row 0 v
  .ok (if !was && bit v.toNat 63 then h.endSessions (fun n => decide (72 ≤ n ∧ n ≤ 73)) else h, .ok)

/-- A write of MKACC: CLOSED is the installer's alone (R417, R425). -/
def Head.writeMkacc (h : Head) (c : Caller) (v : Word) : WriteResult :=
  if c.tier = .M && h.served Reg.MKACC.row 0 && bit v.toNat 63 ≠ h.makerClosed then
    .ok (h.auditReg c Reg.MKACC.row 0 .tier true, .tier)
  else h.writeWith c Reg.MKACC.row 0 v (fun h => h.doMkacc c v)

/-- MKACC_WRITE (R425, R426). -/
def execMkaccWrite (c : Caller) (v : Word) (s : State) : Host.Outcome State Fault Refusal := s.write (fun h => h.writeMkacc c v)

/-! ## Imported keys (R435, R436) -/

/-- The base point of X25519 (RFC 7748). -/
def basePoint : List Byte := 9 :: List.replicate 31 0

/-- The private part of KEYX is drawn for a session when KEYX is first read (R436); its public part is the register. -/
def Head.drawKeyx (h : Head) (conn : Nat) : Head × List Byte :=
  match look [] h.keys.keyx conn with
  | [] =>
    let x := h.random 32
    ({ x.1 with keys := { x.1.keys with keyx := place [] x.1.keys.keyx conn x.2 } }, Config.x25519 x.2 basePoint)
  | k => (h, Config.x25519 k basePoint)

/-- KEK of an import record (R436). -/
def kekOf (priv cpub : List Byte) : List Byte :=
  (Sha.sha512 ([0x43, 0x4C, 0x41, 0x58, 0x49, 0x53, 0x2D, 0x4B, 0x45, 0x4B, 0x2D, 0x31] ++ Config.x25519 priv cpub ++
    Config.x25519 priv basePoint ++ cpub)).take 32

/-- The plain bytes of an import record's CT; none where the tag fails or the session has no KEYX. -/
def Head.importOpen (h : Head) (conn : Nat) (b : List Byte) : Option (List Byte) :=
  match look [] h.keys.keyx conn with
  | [] => none
  | k => Config.aeadOpen (kekOf k ((b.drop 16).take 32)) ((b.drop 48).take 12) ((b.drop 64).take 144 ++ b.take 16)

/-- The head with an HMAC key slot replaced, on both heads. -/
def Head.setHkey (h : Head) (k : Nat) (x : Option HKey) : Head :=
  ({ h with keys := { h.keys with hkeys := place none h.keys.hkeys k x } }).record' (.hkey k (x.map (fun (e : HKey) => (e.key, e.use))))

/-- A pool's key replaced (R436 KIND 1), wrapped under the pair wrapping key (R435). -/
def Head.importPool (h : Head) (n : Nat) (key : List Byte) : WriteResult :=
  match h.pool n with
  | none => h.noWrite .invalid
  | some p =>
    if !p.enc || p.built then h.noWrite .invalid
    else
      let x := h.random 12
      let w := Config.aeadSeal (x.1.keys.pwk.getD []) (x.2 ++ [1, BitVec.ofNat 8 n]) key
      let h := x.1.putPool n (some ⟨p.enc, p.w, p.p, p.cidxk, some w⟩)
      .ok (h.record' (.pool n (some ⟨p.enc, p.w, p.p, p.cidxk, some w⟩)), .ok)

/-- A write of KEYIMP that passed the general checks (R436, Table 14-8): the tag first, then KIND, TGT and LEN. -/
def Head.doKeyimp (h : Head) (c : Caller) (v : Word) : WriteResult :=
  match h.tabref c v 208 with
  | none => h.noWrite .invalid
  | some b =>
    let f := dword b 0
    let kind := f 7 0
    let tgt := f 15 8
    let len := f 31 24
    match h.importOpen c.conn b with
    | none => h.noWrite .checkFail
    | some p =>
      if f 63 32 ≠ 0 || dword b 1 63 0 ≠ 0 || leNat ((b.drop 60).take 4) ≠ 0 then h.noWrite .invalid
      else if kind = 1 then (if len ≠ 64 then h.noWrite .invalid else h.importPool tgt (p.take 64))
      else if kind = 2 then
        (if len = 0 || 128 < len || 15 < tgt || 3 < f 23 16 then h.noWrite .invalid
         else .ok (h.setHkey tgt (some ⟨len, f 23 16, p.take len⟩), .ok))
      else if kind = 3 then (if len ≠ 0 || 15 < tgt then h.noWrite .invalid else .ok (h.setHkey tgt none, .ok))
      else h.noWrite .invalid

/-- KEYIMP_POOL_KEY (R436). -/
def execKeyimpPoolKey (c : Caller) (v : Word) (s : State) : Host.Outcome State Fault Refusal :=
  s.write (fun h => h.writeInstaller c Reg.KEYIMP.row 0 v (fun h => h.doKeyimp c v))

/-- KEYIMP_HMAC_KEY (R436). -/
def execKeyimpHmacKey (c : Caller) (v : Word) (s : State) : Host.Outcome State Fault Refusal :=
  s.write (fun h => h.writeInstaller c Reg.KEYIMP.row 0 v (fun h => Head.doKeyimp h c v))

/-- KEYIMP_ERASE (R436). -/
def execKeyimpErase (c : Caller) (v : Word) (s : State) : Host.Outcome State Fault Refusal :=
  s.write (fun h => Head.writeInstaller h c Reg.KEYIMP.row 0 v (fun h => h.doKeyimp c v))

/-! ## Digest contexts (R429-R434) -/

/-- A context that nothing has initialised. -/
def DgCtx.blank : DgCtx := ⟨[], 0, 0, 255, 0, []⟩

/-- A digest context. -/
def Head.dgctx (h : Head) (c : Nat) : DgCtx := look DgCtx.blank h.keys.dg c

/-- The head with a digest context replaced. -/
def Head.setDgctx (h : Head) (c : Nat) (x : DgCtx) : Head :=
  { h with keys := { h.keys with dg := place DgCtx.blank h.keys.dg c x } }

/-- The algorithm of a context's running state: a write of DGCTX without an operation changes ALG, not the state. -/
def DgCtx.sha (x : DgCtx) : Nat := if x.st.isEmpty then x.alg else if x.st.length = 32 then 0 else 1

/-- Block bytes of an algorithm (R430). -/
def blockOf (alg : Nat) : Nat := if alg = 0 then 64 else 128

/-- The initial hash value of an algorithm (Table 14-6). -/
def hashInit (alg : Nat) : List Byte := if alg = 0 then Sha.out256 Sha.h256 else Sha.out512 Sha.h512

/-- Whole blocks of a message run over a state. -/
def hashRun (alg : Nat) (st b : List Byte) : List Byte :=
  if alg = 0 then Sha.out256 (Sha.run256 (b.length / 64) (Sha.in256 st) b) else Sha.out512 (Sha.run512 (b.length / 128) (Sha.in512 st) b)

/-- The state after the key block of an HMAC (Table 14-6): the key padded with zeros to a block, XORed with ipad or opad. -/
def hmacInit (alg : Nat) (pad : Byte) (key : List Byte) : List Byte :=
  hashRun alg (hashInit alg) ((fit 0 (blockOf alg) key).map (fun x => x ^^^ pad))

/-- The context belongs to another live session (R429). -/
def Head.dgOwned (h : Head) (i slot : Nat) : Bool :=
  let o := (h.dgctx i).owner
  o ≠ 255 && o ≠ slot && (h.net.conns.any (fun c => c.slot = some o) ||
    (match h.sys.smb.sess with | some x => x.slot = o | none => false))

/-- A write of DGCTX that passed the general checks (R429). -/
def Head.doDgctx (h : Head) (c : Caller) (i : Nat) (v : Word) : WriteResult :=
  let op := bits v.toNat 63 62
  let alg := bits v.toNat 61 60
  let ks := bits v.toNat 59 56
  if 1 < alg then h.noWrite .invalid
  else
    let x := h.dgctx i
    if op = 0 then .ok (h.setDgctx i { x with alg := alg, kslot := ks }, .ok)
    else if h.dgOwned i c.slot then h.noWrite .tier
    else
      let start := fun (h : Head) (st : List Byte) =>
        h.setDgctx i { x with st := st, alg := alg, kslot := ks, owner := c.slot, bytes := 0 }
      if op = 1 then .ok (start h (hashInit alg), .ok)
      else
        match look none h.keys.hkeys ks with
        | none => h.noWrite .invalid
        | some k =>
          if c.tier.num < k.use then h.noWrite .tier
          else if blockOf alg < k.len then
            let r := h.random (if alg = 0 then 32 else 64)
            .ok (start r.1 r.2, .ok)
          else .ok (start h (hmacInit alg (if op = 2 then 0x36 else 0x5C) k.key), .ok)

/-- DGCTX_HASH_INIT (R429). -/
def execDgctxHashInit (c : Caller) (i : Nat) (v : Word) (s : State) : Host.Outcome State Fault Refusal :=
  s.write (fun h => h.writeWith c Reg.DGCTX.row i v (fun h => h.doDgctx c i v))

/-- DGCTX_HMAC_INNER (R429). -/
def execDgctxHmacInner (c : Caller) (i : Nat) (v : Word) (s : State) : Host.Outcome State Fault Refusal :=
  s.write (fun h => h.writeWith c Reg.DGCTX.row i v (fun h => Head.doDgctx h c i v))

/-- DGCTX_HMAC_OUTER (R429). -/
def execDgctxHmacOuter (c : Caller) (i : Nat) (v : Word) (s : State) : Host.Outcome State Fault Refusal :=
  s.write (fun h => Head.writeWith h c Reg.DGCTX.row i v (fun h => h.doDgctx c i v))

/-- Bytes gathered for a digest, with whether some of them are poisoned. -/
abbrev Gathered := Except Status (List Byte × Bool)

/-- The fragments of a list in order (R430); `one` gives the bytes of one. -/
def gather (one : Word → Nat → Gathered) : List Byte → Nat → Gathered
  | _, 0 => .ok ([], false)
  | b, n + 1 =>
    let f1 := dword b 1 63 0
    let len := f1 % 4294967296
    if f1 ≠ len then .error .invalid
    else
      match (if len = 0 then .ok ([], false) else one (BitVec.ofNat 64 (dword b 0 63 0)) len) with
      | .error s => .error s
      | .ok x =>
        match gather one (b.drop 16) n with
        | .error s => .error s
        | .ok y => .ok (x.1 ++ y.1, x.2 || y.2)

/-- DGRES as a fragment source (R430): KEY 0, GEN 0xFFFF, WOFF the context. -/
def Head.dgresBytes (h : Head) (r : Word) (len : Nat) : Option Gathered :=
  if refKey r = 0 && refGen r = 0xFFFF then
    some (if 15 < refOff r || 64 < len then .error .invalid
      else .ok ((fit 0 64 (h.dgctx (refOff r)).res).take len, false))
  else none

/-- The digest of gathered bytes into a context (R431): the context after it, or the status. -/
def Head.digestInto (h : Head) (c : Nat) (g : Gathered) : Except Status Head :=
  let x := h.dgctx c
  match g with
  | .error s => .error s
  | .ok (b, bad) =>
    if b.isEmpty then .error .empty
    else if b.length % blockOf x.sha ≠ 0 then .error .invalid
    else if bad then .error .poison
    else
      let r := if x.st.isEmpty then h.random (if x.sha = 0 then 32 else 64) else (h, x.st)
      let st := hashRun x.sha r.2 b
      .ok (r.1.setDgctx c { x with st := st, bytes := (x.bytes + b.length) % 281474976710656, res := st })

/-- A window that a reference names is named as a source (R139). -/
def Head.nameRef (h : Head) (v : HVerb) (r : Word) : Head :=
  match h.ref (h.vside v) (h.vreplay v) r with
  | .ok w => h.named v w
  | .error _ => h

/-- The references of a fragment list. -/
def fragRefs : List Byte → Nat → List Word
  | _, 0 => []
  | b, n + 1 => BitVec.ofNat 64 (dword b 0 63 0) :: fragRefs (b.drop 16) n

/-- A fragment of DIGEST: inline data, DGRES, or a source window. -/
def Head.digestFrag (h : Head) (v : HVerb) (inline : Bool) (r : Word) (len : Nat) : Gathered :=
  if r = 0 then
    match h.caller v with
    | none => .error .invalid
    | some c => if inline || decide (c.inl.length < len) then .error .invalid else .ok (c.inl.take len, false)
  else
    match h.dgresBytes r len with
    | some g => g
    | none => h.source (h.vside v) (h.vreplay v) r len

/-- The fragment list of a DIGEST: inline data, or a source window. -/
def Head.digestList (h : Head) (v : HVerb) (n : Nat) : Gathered :=
  let r := nth 0 v.ops 0
  if r = 0 then
    match h.caller v with
    | none => .error .invalid
    | some c => if c.inl.length < n then .error .invalid else .ok (c.inl.take n, false)
  else h.source (h.vside v) (h.vreplay v) r n

/-- DIGEST (R430-R432). -/
def Head.doDigest (h : Head) (v : HVerb) : Head :=
  let c := v.imm % 16
  let n := v.arg 1
  let x := h.dgctx c
  if x.owner = 255 || x.owner ≠ h.vslot v then h.failVerb v .invalid
  else if n = 0 then h.pushC v .nothing (.fail .empty)
  else
    match h.digestList v (16 * n) with
    | .error s => h.failVerb v s
    | .ok (l, bad) =>
      if bad then h.failVerb v .poison
      else
        let inline := decide (nth 0 v.ops 0 = 0)
        match h.digestInto c (gather (h.digestFrag v inline) l n) with
        | .error .empty => h.pushC v .nothing (.fail .empty)
        | .error s => h.failVerb v s
        | .ok h' =>
          let h' := (nth 0 v.ops 0 :: fragRefs l n).foldl (fun h r => if r = 0 then h else h.nameRef v r) h'
          h'.pushC v .nothing (.ok (BitVec.ofNat 64 c))

/-- DIGEST (R430). -/
def execDigest (t : Nat) (w : VWord) (s : State) : Host.Outcome State Fault Refusal :=
  s.run (fun h => h.hostVerb t 0x12 15 [2] w Head.doDigest)

/-- A fragment of DGST: DGRES, or an HBM range. -/
def Head.dgstFrag (h : Head) (r : Word) (len : Nat) : Gathered :=
  match h.dgresBytes r len with
  | some g => g
  | none => if hbmOk r.toNat len then .ok (h.unitRead false r.toNat len) else .error .invalid

/-- DGST over HBM (R434). -/
def Head.doDgst (h : Head) (v : HVerb) : Head :=
  let c := v.imm % 16
  let n := v.arg 1
  if n = 0 then h.answerVerb v (.fail .empty)
  else if !(hbmOk (v.arg 0) (16 * n)) then h.failVerb v .invalid
  else
    let l := h.unitRead false (v.arg 0) (16 * n)
    if l.2 then h.answerVerb v (h.poisonAnswer v)
    else
      match h.digestInto c (gather h.dgstFrag l.1 n) with
      | .error .poison => h.answerVerb v (h.poisonAnswer v)
      | .error s => h.failVerb v s
      | .ok h' => h'.answerVerb v (.ok (BitVec.ofNat 64 c))

/-- DGST (R434). -/
def execDgst (t : Nat) (w : VWord) (s : State) : Host.Outcome State Fault Refusal :=
  s.run (fun h => h.unitVerb t 0x87 15 [2] w Head.doDgst)

/-! ## Signatures (Table 2-12, R427) -/

/-- SIGN: a0 the message in HBM, a1 its length, a2 the place of the 64-byte signature, made with the identity key. The spec
gives the unit, not the operands (DESIGN CHOICE, log entry 38). -/
def Head.doSign (h : Head) (v : HVerb) : Head :=
  let n := v.arg 1
  if !(hbmOk (v.arg 0) n) || !(hbmOk (v.arg 2) 64) then h.failVerb v .invalid
  else
    let m := h.unitRead false (v.arg 0) n
    if m.2 then h.answerVerb v (h.poisonAnswer v)
    else (h.unitWrite false (v.arg 2) (fit 0 64 (Config.edSign Config.idPrivate m.1)) (fun _ => false)).answerVerb v (.ok 0)

/-- SIGN (Table 2-12). -/
def execSign (t : Nat) (w : VWord) (s : State) : Host.Outcome State Fault Refusal :=
  s.run (fun h => h.unitVerb t 0x88 0 [3] w Head.doSign)

/-- VERIFY: a0 the message in HBM, a1 its length, a2 the public key, a3 the signature; CHECK_FAIL where it does not verify
(operands DESIGN CHOICE, log entry 38). -/
def Head.doVerify (h : Head) (v : HVerb) : Head :=
  let n := v.arg 1
  if !(hbmOk (v.arg 0) n) || !(hbmOk (v.arg 2) 32) || !(hbmOk (v.arg 3) 64) then h.failVerb v .invalid
  else
    let m := h.unitRead false (v.arg 0) n
    let k := h.unitRead false (v.arg 2) 32
    let g := h.unitRead false (v.arg 3) 64
    if m.2 || k.2 || g.2 then h.answerVerb v (h.poisonAnswer v)
    else h.answerVerb v (if Config.edVerify k.1 m.1 g.1 then .ok 0 else .fail .checkFail)

/-- VERIFY (Table 2-12). -/
def execVerify (t : Nat) (w : VWord) (s : State) : Host.Outcome State Fault Refusal :=
  s.run (fun h => h.unitVerb t 0x89 0 [4] w Head.doVerify)

/-! ## Attestation (R428) -/

/-- The plain text of an image (R437). -/
def imagePlain (b : List Byte) : List Byte :=
  (Config.aeadOpen Config.imageKey ((b.drop 64).take 12)
    ((b.drop 128).take (dword b 2 63 32) ++ (b.drop 80).take 16 ++ b.take 64)).getD []

/-- The attestation report (Table 14-5). -/
def Head.report (h : Head) (nonce : List Byte) : List Byte :=
  let f := h.keys.fw
  let version := f.ver
  let img := match f.image with | some x => x.bytes | none => []
  let flags := bnat f.conf + 2 * bnat h.makerClosed + 4 * bnat h.whole
  let head := leBytes 2 0x7C61 ++ [BitVec.ofNat 8 h.side, BitVec.ofNat 8 flags] ++ leBytes 4 version ++ leBytes 4 f.floor ++
    List.replicate 20 0 ++ fit 0 32 nonce
  let parts := Sha.sha512 (imagePlain img) ++ Sha.sha512 Config.trims ++ Sha.sha512 (Config.settingsBytes h.fresh)
  let body := head ++ parts ++ Sha.sha512 parts ++ fit 0 32 Config.idPublic
  body ++ fit 0 64 (Config.edSign Config.idPrivate body)

/-- ATTEST: a0 the nonce, a1 the destination (R428). -/
def Head.doAttest (h : Head) (v : HVerb) : Head :=
  let side := h.vside v
  let re := h.vreplay v
  match h.source side re (nth 0 v.ops 0) 32 with
  | .error s => h.failVerb v s
  | .ok (nonce, bad) =>
    if bad then h.failVerb v .poison
    else
      match h.deliver side re (nth 0 v.ops 1) (h.report nonce) with
      | .error s => h.failVerb v s
      | .ok (h', c, ps) =>
        (h'.nameRef v (nth 0 v.ops 0)).tick.pushC v (.deliver (ps.map (fun p => (c, p)))) (.ok 416)

/-- ATTEST (R428). -/
def execAttest (t : Nat) (w : VWord) (s : State) : Host.Outcome State Fault Refusal :=
  s.run (fun h => h.hostVerb t 0x13 0 [2] w Head.doAttest)

/-! ## Activation of firmware (R440-R442) -/

/-- Both heads hold, in their slots not in force, images of one VERSION that passed Table 14-10 (R440). -/
def Head.bothStaged (h : Head) : Bool :=
  let f := h.keys.fw
  match f.slot f.other with
  | some s => s.staged && f.peerStaged = some s.version
  | none => false

/-- UPDATE.ACTIVATE (R440). A re-run one attaches to the activation that runs; on side 0, to which the activation has come
back last, it has ended. -/
def Head.doActivate (h : Head) (v : HVerb) : Head :=
  let f := h.keys.fw
  let running := match h.pair.handoff with | some o => o.act | none => false
  if h.vreplay v && (running || h.side = 1) then h.pushA v .activation (.ok 0)
  else if h.vreplay v then h.pushA v .nothing (if f.conf then .fail .checkFail else .ok 0)
  else if !h.whole || !h.bothStaged || !f.conf || !f.peerConf then h.failVerb v .invalid
  else
    let h := h.pushA v .activation (.ok 0)
    if h.side = 0 then h.beginHandoff 1 true else (h.enterHandoff true).sendCtl (.control .handoffBegin 3)

/-- UPDATE_ACTIVATE (R440). -/
def execUpdateActivate (t : Nat) (w : VWord) (s : State) : Host.Outcome State Fault Refusal :=
  s.run (fun h => h.hostVerb t 0x1B 0 [0] w Head.doActivate)

/-- HWIN_EXPIRE: the health window of an unconfirmed image expires and the watchdog resets the head (R442); the window does
not run while the head serves alone or its peer rejoins (R441). -/
def execHwinExpire (s : State) : Host.Outcome State Fault Refusal :=
  s.run (fun h =>
    let f := h.keys.fw
    if f.conf || f.hleft = 0 || h.pair.solo || h.pair.fence.peer = .rejoining then h else h.pulseReset .watchdog)

end Sys2Proof.Machine
end

