-- ==== Sys2Proof/Machine/Bringup.lean ====
section
/-! DEFINITION. Bringing a head up and watching it (R209, R210, R294, R454-R476): reset pins and the watchdog, trims,
islands in their order, the die inventory, the boot image, quiesced island resets, temperature, reference clocks, the
core regulator. -/

namespace Sys2Proof.Machine

/-! ## Reset pins and sources (R461, R464, R465, R513) -/

/-- The head with its pins replaced. -/
def Head.setPins (h : Head) (p : Pins) : Head := { h with sys := { h.sys with pins := p } }

/-- Whether a low pulse of `low` ns acts: never below `least`, always from `acts`, a free choice between (R513). -/
def Head.pulseActs (h : Head) (low least acts : Nat) : Bool :=
  decide (acts ≤ low) || (decide (least ≤ low) && Config.freeBool h.fresh)

/-- PWR_OK_FALL (R461, R513). -/
def execPwrOkFall (low : Nat) (s : State) : Host.Outcome State Fault Refusal :=
  s.run (fun h =>
    let act := h.pulseActs low 100 1000
    let h := h.tick
    if act then (h.setPins { h.sys.pins with pwrOk := false }).assertReset .power else h)

/-- PWR_OK_RISE (R105, R452, R461): head time starts at 0. -/
def execPwrOkRise (s : State) : Host.Outcome State Fault Refusal :=
  s.run (fun h =>
    if h.sys.pins.pwrOk then h
    else
      let h := h.setPins { h.sys.pins with pwrOk := true, pfailL := true }
      let h := { h with now := 0, tset := false }
      (h.setRst { h.sys.rst with pwrAt := 0 }).releaseReset .power)

/-- RST_L_FALL (R461, R513). -/
def execRstLFall (low : Nat) (s : State) : Host.Outcome State Fault Refusal :=
  s.run (fun h =>
    let act := h.pulseActs low 100 2000
    let h := h.tick
    if act then (h.setPins { h.sys.pins with rstL := false }).assertReset .rstL else h)

/-- RST_L_RISE (R461). -/
def execRstLRise (s : State) : Host.Outcome State Fault Refusal :=
  s.run (fun h => (h.setPins { h.sys.pins with rstL := true }).releaseReset .rstL)

/-- WATCHDOG_EXPIRE (R465). -/
def execWatchdogExpire (s : State) : Host.Outcome State Fault Refusal :=
  s.run (fun h =>
    let r := h.sys.rst
    if r.tflt || r.bflt || h.cfg .WDCFG 0 47 47 = 0 || !r.active.isEmpty then h else h.pulseReset .watchdog)

/-- What a write of WDKICK does. -/
def Head.doWdkick (h : Head) (_c : Caller) (_v : Word) : WriteResult :=
  .ok (h.setRst { h.sys.rst with kicked := true }, .ok)

/-- WDKICK (R465). -/
def execWdkick (c : Caller) (v : Word) (s : State) : Host.Outcome State Fault Refusal :=
  s.write (fun h => h.writeWith c Reg.WDKICK.row 0 v (fun h => h.doWdkick c v))

/-! ## Release of islands (R454, R463) -/

/-- Islands in the order of their release (Table 16-1), with the CLKSTAT.LOCK bit of their group. -/
def releaseOrder : List (List Nat × BitVec 8) :=
  [([0], 0x80), ([1], 0x40), ([2], 0x20), ([3, 4, 5, 6, 7, 8, 9, 10, 11, 12, 13, 14], 0x10), ([15], 0x08), ([16], 0x04),
   ([17, 18, 19, 20], 0x02), ([21], 0x01)]

/-- The first group of islands that does not yet run is released where everything before it does. -/
def releaseIn (l : List (List Nat × BitVec 8)) (h : Head) : Head :=
  match l with
  | [] => h
  | g :: r =>
    if g.1.all (fun i => h.runs i) then releaseIn r h
    else
      let h := g.1.foldl (fun h i => h.updIsland i (fun x => if x.st = .inReset then { x with st := .releasing } else x)) h
      h.setPower { h.sys.power with lock := h.sys.power.lock ||| g.2 }

/-- The next islands are released: PI only once TRIM_VALID is 1; in BOOT_FAULT none after PI, in boundary scan none at
all. -/
def Head.releaseNext (h : Head) : Head :=
  let r := h.sys.rst
  if !r.active.isEmpty || !r.trimv || h.sys.smb.bscan then h
  else if r.bflt then releaseIn (releaseOrder.take 2) h
  else releaseIn releaseOrder h

/-- TRIM_LOAD_DONE (R466, R467). -/
def execTrimLoadDone (crcOk : Bool) (s : State) : Host.Outcome State Fault Refusal :=
  s.run (fun h =>
    let r := h.sys.rst
    if !r.trimLd || !r.active.isEmpty then h
    else if crcOk then (h.setRst { r with trimLd := false, trimv := true, fails := 0 }).releaseNext
    else
      let n := min 3 (r.fails + 1)
      if n < 3 then h.setRst { r with fails := n }
      else (h.setRst { r with fails := n, trimLd := false, tflt := true }).headEvent 0x0304 3 n 0)

/-! ## Die inventory (R209, R210, R260, R460) -/

/-- Blocks that pools and spills may use: block 0 of the dies of the boot band is kept (R460). -/
def freshBlocks (die blocks : Nat) : List Nat :=
  (upto blocks).filter (fun b => b ≠ 0 || die % 512 ≠ 0)

/-- A die that the family table and the LDPC selection table support (R209, R221): its family's index. -/
def Head.supports (h : Head) (r : DieReport) : Option Nat :=
  match famIndex h.fl.fams r.id with
  | none => none
  | some k =>
    let cerise : Bool := match h.fl.fams[k]? with | some f => f.flags.getLsbD 0 | none => false
    if 512 ≤ r.gbit ∧ r.gbit ≤ 4096 ∧ r.page = 16384 ∧ 2 ≤ r.planes ∧ r.planes ≤ 6 ∧ cerise = true ∧ (ldpcSel h.fl.ldpc r.spare).isSome = true
    then some k else none

/-- A new or changed die enters the inventory (R209, R210 step 3). -/
def Head.newDie (h : Head) (r : DieReport) : Head :=
  let fam := h.supports r
  let d : Die := ⟨r.die, r.id, fam.getD 0, r.planes, r.blocks, r.rows, r.spare,
    if fam.isSome then .inService else .unsupported, [], if fam.isSome then freshBlocks r.die r.blocks else [], [], 0, false⟩
  let h := h.setFl { h.fl with dies := place none h.fl.dies r.die (some d) }
  if fam.isSome then h else h.event 0x0603 1 255 4 r.die 0 0 0

/-- The blocks of a die that are neither free nor retired nor those of a band, and are not being erased. -/
def Head.strayBlocks (h : Head) (r : DieReport) : List Nat :=
  match h.die r.die with
  | none => []
  | some d => (freshBlocks r.die r.blocks).filter (fun b =>
      !(d.free.contains b) && !(d.bad.contains b) && !(h.fl.bands.any (fun x => x.held.contains (r.die, b))) &&
        !((h.pair.spill.at (dieSide r.die)).blocks.bands.s0.any (fun x => x.contains (r.die, b))) &&
        !((h.pair.spill.at (dieSide r.die)).blocks.bands.s1.any (fun x => x.contains (r.die, b))) &&
        !((h.fl.ops ++ h.fl.waits.map (fun w => w.1)).any (fun o => match o with | .erase e k _ => e = r.die && k = b | _ => false)))

/-- A die taken up again: none of its blocks is free before it has been erased (R260); what a reset left of that is done after it. -/
def Head.clean (h : Head) (r : DieReport) : Head :=
  if (h.die r.die).any (fun d => d.state = .inService) then (h.strayBlocks r).foldl (fun h b => h.nand (.erase r.die b none) false) h else h

/-- One die that answered Read ID on an owned port. A failed one is taken up as a new die (R260); one whose Read ID no
longer matches the inventory is declared failed, and what now stands there is new. -/
def Head.foundDie (h : Head) (r : DieReport) : Head :=
  match h.die r.die with
  | none => h.newDie r
  | some d =>
    if d.id = r.id ∧ d.state ≠ .failed then h.clean r
    else (((h.dieFailed r.die 3).newDie r).updDie r.die (fun d => { d with free := [] })).clean r

/-- The dies of an island that this head's ports own at its release: its own side's, where nobody fences it, and every side
it serves. -/
def Head.ownsSide (h : Head) (side : Nat) : Bool :=
  !h.dark && h.sys.pins.fenceIn && (h.serves side || (side = h.side && h.pair.fence.peer ≠ .inService) ||
    (side = h.side && !h.pair.rejoin))

/-- The NAND islands of a side. -/
def sideIslands (side : Nat) : List Nat := [17 + 2 * side, 18 + 2 * side]

/-- The rates of a side's ports that hold dies in service, in MT/s of an 8-bit bus: of each the least of its dies' families. -/
def Head.portRates (h : Head) (side : Nat) : List Nat :=
  let ds := (h.sideDies side).map (fun d => (diePort d.num, match h.fl.fams[d.fam]? with | some f => f.rate | none => 0))
  ((upto 64).map (fun k => 64 * side + k)).filterMap (fun p =>
    match (ds.filter (fun x => x.1 = p)).map (fun x => x.2) with
    | [] => none
    | a :: r => some (r.foldl min a))

/-- TSPILL of the size in force (R294), in units of 0.1 ms, from the ports of the head's side in service: 1 ms plus the share × 32 / 31
at their rates. With no port in service it reads its reset value until both NAND islands of the side run (Table 10-10);
then there is no time that is enough: the field's highest value. -/
def Head.tspill (h : Head) : Nat :=
  let n := 100 * sum (h.portRates h.side)
  if n = 0 then (if (sideIslands h.side).all (fun i => h.runs i) then 65535 else 0)
  else min 65535 (10 + (h.lehrSize * 536870912 * 32 / 31 + n - 1) / n)

/-- The bound and the hold-up time of Table 10-5, in ms; free for a size that has no row there. -/
def spillBound (size : Nat) : Nat × Nat :=
  if size = 24 then (60, 90) else if size = 28 then (70, 100) else if size = 32 then (80, 110) else Config.spillBetween size

/-- LEHRSTAT.HOLDUP in ms (R294). -/
def Head.holdup (h : Head) : Nat := max (spillBound h.lehrSize).2 ((h.tspill + 9) / 10 + 30)

/-- Both islands of the own side run: its ports and spill sets are ready, the keys of the pools are loaded in the ports (R210, R291, R294,
R435). -/
def Head.portsReady (h : Head) : Head :=
  if (sideIslands h.side).all (fun i => h.runs i) then
    let h := h.buildSets h.side
    let h := h.setSpill h.side { h.spillOf h.side with ready := decide (32 ≤ h.portsOf h.side) }
    let h := h.setFl { h.fl with pools := h.fl.pools.map (fun (p : Pool) => { p with plain := p.key.bind (h.poolKey p.num) }) }
    if (spillBound h.lehrSize).1 * 10 < h.tspill then h.headEvent 0x0707 2 h.holdup 0 else h
  else h

/-- The interface mode and rate of a die's family, as Set Features gives them: at feature address 01h, as ONFI has its timing mode
(PRESUMED, log entry 95). -/
def Head.modeFeature (h : Head) (d : Nat) : NandOp :=
  match h.family d with
  | some f => .setFeature 1 (leBytes 4 (f.mode + (f.rate <<< 8)))
  | none => .setFeature 1 (leBytes 4 0)

/-- The dies of an island that are in service. -/
def Head.islandDies (h : Head) (i : Nat) : List Nat :=
  ((h.sideDies ((i - 17) / 2)).filter (fun d => d.num / 512 + 17 = i)).map (fun d => d.num)

/-- Port initialisation of a NAND island (R210), and its groups back with this head where it serves their side. A die of the inventory that
does not answer Read ID no longer matches it (R260). FFh ends a program that was in progress: its fill is DISCARD (DESIGN CHOICE, log
entry 67). -/
def Head.initPorts (h : Head) (i : Nat) (dies : List DieReport) : Head :=
  let side := (i - 17) / 2
  if !h.ownsSide side then h
  else
    let here := dies.filter (fun r => r.die / 512 + 17 = i)
    let old := h.islandDies i
    let silent := old.filter (fun d => !(here.any (fun r => r.die = d)))
    let fresh := (here.filter (fun r => (h.die r.die).all (fun d => d.id ≠ r.id || d.state = .failed))).map (fun r => r.die)
    let every := here.map (fun r => r.die) ++ silent
    let h := ((h.emitAll every .reset).emitAll every .readId).emitAll fresh .readParams
    let h := silent.foldl (fun h d => h.dieFailed d 3) h
    let h := here.foldl (fun h r => h.foundDie r) h
    let up := h.islandDies i
    let h := up.foldl (fun h d => h.emit (.nand d (h.modeFeature d))) h
    let h := (h.emitAll up .zqLong).emitAll up .train
    let h := if h.serves side then
      ((upto 8).map (fun k => (i - 17) * 8 + k)).foldl (fun h g =>
        if (h.group g).own then h
        else (h.setGroup g { Group.blank with own := true, lastOp := h.now }).emitAll (h.groupDies g) .select) h
      else h
    let h := (h.fl.ops.filter (fun o => o.die / 512 + 17 = i)).foldl (fun (h : Head) o => match o with
      | .program d n _ => (h.nandEnd o).memberDone n d false
      | _ => h) h
    h.portsReady.pump

/-- ISLAND_READY (R210, R463, R469 step 6). -/
def execIslandReady (i : Nat) (dies : List DieReport) (s : State) : Host.Outcome State Fault Refusal :=
  s.run (fun h =>
    match h.island i with
    | .releasing =>
      let h := h.updIsland i (fun x => { x with st := .running })
      let h := if 17 ≤ i ∧ i ≤ 20 then h.initPorts i dies else h
      let h := if i = 1 && h.core.psFail then h.recorderVolatile 1 else h
      let h := if i = 21 then (h.tryTrain 0).tryTrain 1 else h
      (h.releaseNext.takeUp).settle
    | _ => h)

/-! ## The boot image (R438, R441, R442, R459) -/

/-- The sources that the sampled straps allow (Table 16-2): 0 a PSTORE slot, 1 the peer, 2 the NAND boot band, 3 SMBus, which
BOOT_FAULT allows whatever they say. -/
def Head.bootSource (h : Head) (src : Nat) : Bool :=
  match h.sys.rst.straps / 8 % 4 with
  | 3 => decide (src ≤ 2) || (src = 3 && h.sys.rst.bflt)
  | 2 => src = 2 || (src = 3 && h.sys.rst.bflt)
  | 1 => src = 1 || (src = 3 && h.sys.rst.bflt)
  | _ => src = 3

/-- A head whose unconfirmed image was already started takes the previous slot (R442): the rejected one is marked, an event
is written, and the settings records in the new format go (R443). -/
def Head.fallBack (h : Head) : Head :=
  let f := h.keys.fw
  match f.inForce with
  | none => h
  | some k =>
    if f.conf || f.hleft = 0 then h
    else
      let bad := f.slot k
      let g := f.setSlot k (bad.map (fun x => { x with rejected := true, staged := false }))
      (h.setFw { g with inForce := some (1 - k), conf := true, hleft := 0, twoFmt := false }).headEvent 0x0303 2
        (match bad with | some x => x.version | none => 0) k

/-- An image that passed its checks is in force and firmware is dispatched; the health window of an unconfirmed one begins
(R441). -/
def Head.imageUp (h : Head) (src : Nat) (im : BootImage) : Head :=
  let f := h.keys.fw
  let f := if src = 0 then { f with inForce := some (im.slot % 2) } else f
  let f := { f with ver := im.version, hleft := if f.conf then 0 else max 1 (h.cfg .FWCFG 0 63 48) }
  let h := (h.setFw f).setRst { h.sys.rst with image := true, bflt := false, bsrc := src % 4 }
  (h.releaseNext.takeUp).settle

/-- Every step of the selected source has failed: MI and PI alone stay out of reset (R459). -/
def Head.bootFault (h : Head) : Head :=
  let h := h.setRst { h.sys.rst with bflt := true, image := false }
  (upto 20).foldl (fun h k => h.updIsland (k + 2) (fun x => { x with st := .inReset })) h

/-- BOOT_IMAGE_READY (R459): the source that supplied an image, or that every step of the sequence has failed. -/
def execBootImageReady (src : Nat) (im : BootImage) (s : State) : Host.Outcome State Fault Refusal :=
  s.run (fun h =>
    let r := h.sys.rst
    if !r.active.isEmpty || r.image || r.tflt || !h.runs 1 || !h.bootSource src || (!r.bflt && !h.runs 2) then h
    else
      let h := if r.straps / 8 % 4 = 3 then h.fallBack else h
      if im.pass then h.imageUp src im else h.bootFault)

/-- PAIRWAIT_EXPIRE (R446, R471): the pair link has not trained in time; the head fences its peer and serves alone, its
recorder without a reservation. -/
def execPairwaitExpire (s : State) : Host.Outcome State Fault Refusal :=
  s.run (fun h =>
    let r := h.sys.rst
    if !r.active.isEmpty || r.tflt || r.bflt || h.pair.link.state ≠ .down || !h.sys.pins.fenceOut || h.pair.rejoin ||
        h.pair.fence.peer = .inService then h
    else
      let h := if h.runs 1 then h.recorderStart 0 else h
      h.assertFence)

/-! ## Island resets (R391, R469) -/

/-- What a write of ISRST does (R469). -/
def Head.doIsrst (h : Head) (_c : Caller) (v : Word) : WriteResult :=
  let i := bits v.toNat 4 0
  if bits v.toNat 63 62 = 0 then h.noWrite .ok
  else if h.islandRefused i then h.noWrite .invalid
  else match bits v.toNat 63 62 with
    | 1 => .ok (h.quiesce i false, .ok)
    | 2 => .ok (h.islandReset i, .ok)
    | _ => .ok (match h.island i with
      | .quiesced => h.islandReset i
      | _ => h.quiesce i true, .ok)

/-- ISRST_QUIESCE: OP 0b01. -/
def execIsrstQuiesce (c : Caller) (v : Word) (s : State) : Host.Outcome State Fault Refusal :=
  s.write (fun h => h.writeWith c Reg.ISRST.row 0 v (fun h => h.doIsrst c v))

/-- ISRST_RESET: OP 0b10. -/
def execIsrstReset (c : Caller) (v : Word) (s : State) : Host.Outcome State Fault Refusal :=
  s.write (fun h => h.writeWith c Reg.ISRST.row 0 v (fun h => h.doIsrst c v))

/-- ISRST_QUIESCE_RESET: OP 0b11. -/
def execIsrstQuiesceReset (c : Caller) (v : Word) (s : State) : Host.Outcome State Fault Refusal :=
  s.write (fun h => h.writeWith c Reg.ISRST.row 0 v (fun h => h.doIsrst c v))

/-- The work of the Quiesce column of Table 16-1 is finished. -/
def Head.islandQuiet (h : Head) (i : Nat) : Bool :=
  if 3 ≤ i ∧ i ≤ 14 then
    (islandThreads i).all (fun t => match (h.thread t).run with | .free => true | .halted => true | _ => false)
  else if 17 ≤ i ∧ i ≤ 20 then
    h.fl.ops.all (fun o => match o with
      | .erase d _ _ => d / 512 + 17 ≠ i || h.canSuspend d
      | o => o.die / 512 + 17 ≠ i)
  else true

/-- Erases in progress on an island's dies are suspended, or go on (R218 step 2). -/
def Head.suspendIsland (h : Head) (i : Nat) (on : Bool) : Head :=
  h.fl.ops.foldl (fun h o => match o with
    | .erase d _ _ => if d / 512 + 17 = i then h.suspend d on else h
    | _ => h) h

/-- QUIESCE_DONE (R469 steps 4 and 5). -/
def execQuiesceDone (i : Nat) (s : State) : Host.Outcome State Fault Refusal :=
  s.run (fun h =>
    match h.island i with
    | .quiescing =>
      if h.crossingBusy i || !h.islandQuiet i then h
      else
        let after := match h.sys.islands[i]? with | some x => x.rstAfter | none => false
        let h := if 17 ≤ i ∧ i ≤ 20 then h.suspendIsland i true else h
        if after then (h.suspendIsland i false).islandReset i
        else h.updIsland i (fun x => { x with st := .quiesced })
    | _ => h)

/-- QUIESCE_TIMEOUT: ISCFG.QTMO has passed without step 4 (R469): the quiesce ends without a reset. -/
def execQuiesceTimeout (i : Nat) (s : State) : Host.Outcome State Fault Refusal :=
  s.run (fun h =>
    match h.island i with
    | .quiescing =>
      let h := h.updIsland i (fun x => { x with st := .running, qto := true, rstAfter := false })
      (if i = 21 then (h.tryTrain 0).tryTrain 1 else h).settle
    | _ => h)

/-! ## Temperature (R475, R476, R509) -/

/-- At CRIT: a whole pair hands this head's side over and the head holds itself in reset at the end of step 5; a head
serving alone spills first. -/
def Head.critical (h : Head) : Head :=
  if h.pair.solo then
    if h.spilling then h else ((h.setRst { h.sys.rst with after := some .thermal }).beginSpill).spillStep
  else if h.whole then (h.enterHandoff false).sendCtl (.control .handoffBegin h.side)
  else h

/-- THERMAL_SAMPLE: the hottest junction sensor and the hottest HBM sensor, every 100 µs. A held head is released below
THROT − 10 °C. -/
def execThermalSample (tj hbm : Nat) (s : State) : Host.Outcome State Fault Refusal :=
  s.run (fun h =>
    let p := h.sys.power
    let t := min 255 (max tj hbm)
    let throt := h.cfg .THERMCFG 0 63 56
    if p.held then
      if t + 10 < throt then (h.setPower { p with held := false, tj := t }).releaseReset .thermal else h
    else if !h.sys.rst.active.isEmpty then h
    else
      let h := h.setPower { p with
        tj := t, tjpeak := max p.tjpeak t, thr := decide (throt ≤ t) || decide (95 ≤ hbm), dblRef := decide (85 < hbm) }
      if h.cfg .THERMCFG 0 55 48 ≤ t || decide (100 ≤ hbm) then h.critical else h)

/-- THERMAL_TRIP: TJ has reached 125 °C. -/
def execThermalTrip (s : State) : Host.Outcome State Fault Refusal :=
  s.run (fun h =>
    let h := h.assertReset .thermal
    h.setPower { h.sys.power with trip := true })

/-- THERMAL_TRIP_RELEASE: the temperature has fallen below 95 °C. A head that holds itself in reset for R475 stays so. -/
def execThermalTripRelease (s : State) : Host.Outcome State Fault Refusal :=
  s.run (fun h => if h.sys.power.held then h else h.releaseReset .thermal)

/-! ## Reference clocks (R455-R457) -/

/-- The links of host ports 0 to 3 or 4 to 7 go down. -/
def Head.hostLinksDown (h : Head) (n : Nat) (links : Nat → Bool) : Head :=
  (upto n).foldl (fun h l =>
    if links l && h.net.up.getLsbD l then
      ({ h with net := { h.net with up := h.net.up &&& ~~~(1#32 <<< l) } } : Head).deviceEvent 0x0100 l 0
    else h) h

/-- The pair link has width 0 (R288, R457). -/
def Head.pairLinkDown (h : Head) : Head :=
  let l := h.pair.link
  match l.state with
  | .down => h
  | _ =>
    let h := { h with pair := { h.pair with link := { l with state := .down, txw := 0, rxw := 0 } } }
    (h.event 0x0706 1 0xFF 8 0 0 0 0).event 0x0706 1 0xFF 8 0 1 0 0

/-- CLOCK_LOSS: `refs` are the references found absent, in the order of CLKSTAT.LOSS. The loss of the reference that the core
PLLs take is head-fatal; ARG0 of its event is not stated, a free value (DESIGN CHOICE, log entry 57). -/
def execClockLoss (refs : BitVec 5) (s : State) : Host.Outcome State Fault Refusal :=
  s.run (fun h =>
    let ser0 := h.sys.rst.straps / 2 % 4 = 1
    let h := h.setPower { h.sys.power with loss := h.sys.power.loss ||| refs }
    let h := if refs.getLsbD 0 then h.hostLinksDown 32 (fun l => decide (l < 16)) else h
    let h := if refs.getLsbD 1 then h.hostLinksDown 32 (fun l => decide (16 ≤ l)) else h
    let h := if refs.getLsbD 2 then h.pairLinkDown else h
    let h := if refs.getLsbD 3 then (h.linkDown 0).linkDown 1 else h
    if !h.sys.rst.active.isEmpty then h
    else if if ser0 then refs.getLsbD 0 else refs.getLsbD 4 then h.tick.headFatal 0 0 (Config.freeNat h.fresh)
    else h)

/-! ## The core regulator (R473, R474) -/

/-- One request transfer: nothing is requested once FAULT is set; three failed in a row set it. -/
def Head.cvr (h : Head) (code arg : Nat) (acks : Bool) (done : Power → Power) : Head :=
  let p := h.sys.power
  if p.fault then h
  else
    let h := h.emit (.cvr code arg)
    if acks then h.setPower (done { p with fails := 0 })
    else h.setPower { p with fails := min 3 (p.fails + 1), fault := decide (3 ≤ p.fails + 1) }

/-- CVR_ALERT: GETSTAT and then CLRALERT. -/
def execCvrAlert (acks : Bool) (stat : Nat) (s : State) : Host.Outcome State Fault Refusal :=
  s.run (fun h =>
    if !h.runs 0 then h
    else
      let h := h.setPins { h.sys.pins with cvrAlertL := false }
      let h := h.cvr 5 0 acks (fun p => { p with rstat := stat % 8 })
      let sent := !h.sys.power.fault
      let h := h.cvr 7 0 acks id
      if sent && acks then h.setPins { h.sys.pins with cvrAlertL := true } else h)

/-- The VID that the loop requests: VFIX in MODE 1; else the monitors' wish within one step per 1 ms, or up to four steps up
where margin is below the floor; always 140 to 170. -/
def Head.nextVid (h : Head) (vid : Nat) (below : Bool) : Nat :=
  let p := h.sys.power
  if h.cfg .CVRCFG 0 63 63 = 1 then h.cfg .CVRCFG 0 55 48
  else if below then min 170 (max p.vid (min vid (p.vid + 4)))
  else if h.now < p.vidAt + 1000000 then p.vid
  else min 170 (max 140 (if p.vid < vid then p.vid + 1 else if vid < p.vid then p.vid - 1 else p.vid))

/-- CVR_VID_STEP: a change of VID is requested as SETSLEW and SETVID and read back as GETVID and GETIOUT (DESIGN CHOICE, log
entry 58); a margin below the floor while FAULT is set is head-fatal. -/
def execCvrVidStep (vid : Nat) (below : Bool) (acks : Bool) (iout : Nat) (s : State) : Host.Outcome State Fault Refusal :=
  s.run (fun h =>
    if !h.runs 0 then h
    else if h.sys.power.fault then (if below then h.tick.headFatal 0 0 (Config.freeNat h.fresh) else h)
    else
      let v := h.nextVid vid below
      let at' := h.now
      let h := if v = h.sys.power.vid then h
        else
          let h := h.cvr 2 (h.cfg .CVRCFG 0 47 40) acks id
          let h := h.cvr 1 v acks (fun p => { p with vid := v, vidAt := at' })
          h.cvr 3 0 acks id
      h.cvr 4 0 acks (fun p => { p with iout := iout % 65536 }))

end Sys2Proof.Machine
end

