-- ==== Sys2Proof/Machine/Pins.lean ====
section
/-! DEFINITION. Host-port configuration, tell-tales, head time (R452, R458, R488, R490). -/

namespace Sys2Proof.Machine

/-! ## Host ports (R488) -/

/-- What a write of HPCFG does: each port whose MODE or EN changes goes down; it comes up again when its links have trained
(HOST_PORT_UP). -/
def Head.doHpcfg (h : Head) (c : Caller) (v : Word) : WriteResult :=
  let old := (h.stored 0 .HPCFG 0).toNat
  let hit := fun (p : Nat) => decide (bit old p ≠ bit v.toNat p) || decide (bit old (8 + p) ≠ bit v.toNat (8 + p))
  .ok (((h.setReg c Reg.HPCFG.row 0 v).hostLinksDown 32 (fun l => hit (l / 4))), .ok)

/-- HPCFG_WRITE (R488). -/
def execHpcfgWrite (c : Caller) (v : Word) (s : State) : Host.Outcome State Fault Refusal :=
  s.write (fun h => h.writeWith c Reg.HPCFG.row 0 v (fun h => h.doHpcfg c v))

/-- What a write of HPOL does: the inversion is stored for the next training of the lanes. -/
def Head.doHpol (h : Head) (c : Caller) (v : Word) : WriteResult := .ok (h.setReg c Reg.HPOL.row 0 v, .ok)

/-- HPOL_WRITE (R488). -/
def execHpolWrite (c : Caller) (v : Word) (s : State) : Host.Outcome State Fault Refusal :=
  s.write (fun h => h.writeWith c Reg.HPOL.row 0 v (fun h => h.doHpol c v))

/-! ## Head time (R452) -/

/-- What a write of EVTIME does. -/
def Head.doEvtime (h : Head) (_c : Caller) (v : Word) : WriteResult := .ok ({ h with now := v.toNat, tset := true }, .ok)

/-- EVTIME_WRITE (R452). -/
def execEvtimeWrite (c : Caller) (v : Word) (s : State) : Host.Outcome State Fault Refusal :=
  s.write (fun h => h.writeWith c Reg.EVTIME.row 0 v (fun h => h.doEvtime c v))

/-! ## Tell-tales (R458, R490) -/

/-- The head serves nothing, and will not of itself. -/
def Head.stopped (h : Head) : Bool :=
  h.pair.fence.fenced || h.sys.rst.tflt || h.sys.rst.bflt || h.pair.fence.fatal || h.sys.power.held

/-- STATE of Table 17-9. -/
def Head.tellState (h : Head) : Nat :=
  if h.stopped then 3 else if !(h.serves 0 || h.serves 1) then 0 else if h.pair.solo then 2 else 1

/-- DEGR of Table 17-9. -/
def Head.degraded (h : Head) : Bool :=
  h.fl.pools.any (fun p => p.worn.s0 || p.worn.s1) || h.fl.bands.any (fun b => b.rebuild) ||
    (h.pair.link.state = .up && decide (h.pair.link.txw < 32 ∨ h.pair.link.rxw < 32)) || h.core.psFail || h.core.psPeer

/-- TT[4:0] as driven; none while the balls are straps. -/
def Head.tells (h : Head) : Option (BitVec 5) :=
  if h.sys.rst.ttOn then
    some (BitVec.ofNat 5 (h.tellState * 8 + bnat h.work.readMostly * 4 + bnat h.degraded * 2 + bnat h.sys.rst.beat))
  else none

/-- The tell-tales as they now stand, sent where they are driven. -/
def Head.showTells (h : Head) : Head := match h.tells with | some v => h.emit (.tells v) | none => h

/-- TELLTALE_ENABLE: 1.0 ms after the release of MI. -/
def execTelltaleEnable (s : State) : Host.Outcome State Fault Refusal :=
  s.run (fun h =>
    if h.sys.rst.active.isEmpty && h.runs 0 then (h.setRst { h.sys.rst with ttOn := true }).showTells else h)

/-- TELLTALE_BEAT: every 500 ms. BEAT changes level where firmware has restarted the watchdog since the last time, and holds
still in FENCED, TRIM_FAULT and BOOT_FAULT. -/
def execTelltaleBeat (s : State) : Host.Outcome State Fault Refusal :=
  s.run (fun h =>
    let r := h.sys.rst
    if r.ttOn && r.kicked && !h.pair.fence.fenced && !r.tflt && !r.bflt then
      (h.setRst { r with beat := !r.beat, kicked := false }).showTells
    else h)

end Sys2Proof.Machine
end

