-- ==== Sys2Proof/Machine/Access.lean ====
section
/-! DEFINITION. The state space (R40, R498-R505): what each register reads as, what a write of any register does, and the
instructions STATE.GET and STATE.SET. Registers whose write is an action stand with their chapters; a register that only
stores takes its fields here. -/

namespace Sys2Proof.Machine

/-! ## What a register reads as -/

/-- Word `k` of a list of bytes, little-endian. -/
def wordOf (b : List Byte) (k : Nat) : Word := BitVec.ofNat 64 (leNat ((b.drop (8 * k)).take 8))

/-- A signed value in 16 bits. -/
def word16 (x : Int) : Nat := (BitVec.ofInt 16 x).toNat

/-- A session under slot n is live (KEYINFO.SESS). -/
def Head.sessionLive (h : Head) (n : Nat) : Bool :=
  h.net.conns.any (fun c => c.slot = some n) || h.sys.smb.sess.any (fun x => x.slot = n)

/-- STSTAT.SRC (R258): the local PSTORE, the peer's mirror, or neither. -/
def Head.stripeSrc (h : Head) : Nat :=
  if !h.core.psFail then 0 else if h.mirroring && !h.core.psPeer then 1 else 2

/-- The largest and the smallest erase count of the blocks in service of a die (Table 8-19). -/
def Die.ecRange (d : Die) : Nat × Nat :=
  let live := d.ec.filter (fun e => !(d.bad.contains e.1))
  let top := live.foldl (fun m e => max m e.2) 0
  let low := if live.length + d.bad.length < d.blocks then 0 else live.foldl (fun m e => min m e.2) top
  (top, low)

/-- SHK of TPSERVO (Table 12-20): the pin is low, or it or the TFE's SHK was active within the last 10 ms. -/
def Head.shockSeen (h : Head) (p : Nat) : Bool :=
  let x := (h.tape.ports.at p).servo
  !(h.sys.pins.shock.at p) || (x.shkAt ≠ 0 && decide (h.now < x.shkAt + 10000000))

/-- Registers of chapters 2 to 6. -/
def Head.viewWork (h : Head) (c : Caller) (d : RegDef) (i side : Nat) : Word :=
  match d.reg with
  | .SSINFO => pack [(48, 0x6416), (44, 1), (40, 1), (32, bnat (h.serves 0)), (33, bnat (h.serves 1)), (31, h.side),
      (30, c.side), (24, c.tier.num)]
  | .QSTAT =>
    let q := h.queue side i
    pack [(62, q.doze), (61, bnat (h.bound side i)), (60, bnat q.rst), (0, (h.inflight side i).length)]
  | .QTRAPS => BitVec.ofNat 64 ((h.queue side i).traps % 2 ^ 32)
  | .ADMSTAT => pack [(63, bnat h.work.readMostly), (62, bnat h.whole), (61, bnat (h.ledger && (h.serves 0 || h.serves 1))), (32, h.work.cost.version),
      (0, h.openContracts.length)]
  | .RUSE => pack [(32, if i = 1 then nth 0 h.work.cost.caps 1 else h.capOf i), (0, committed (h.openContracts.map (fun k => k.2)) h.side i)]
  | .CSTAT => (match h.contract i with
    | some k => pack [(62, k.state.ctorIdx + 1), (61, k.side), (32, k.queue), (16, k.volume)]
    | none => 0)
  | .CREM => (match h.contract i with | some k => BitVec.ofNat 64 k.rem | none => 0)
  | .CCNT => (match h.contract i with | some k => pack [(32, k.overs), (16, k.allow), (0, k.miss)] | none => 0)
  | .CBKT => (match h.contract i with | some k => BitVec.ofNat 64 k.level | none => 0)
  | .CPTSTAT => pack [(24, h.net.windows.countP (fun w => h.serves w.side)), (0, h.net.conns.length)]
  | _ => 0

/-- Registers of chapters 7 to 10. -/
def Head.viewMedia (h : Head) (d : RegDef) (i side : Nat) : Word :=
  match d.reg with
  | .DRSTAT => pack [(63, bnat (!h.red.unread.isEmpty)), (32, h.red.hot.length), (0, h.red.gslots.countP (fun e => (h.gslot e.1).any (fun g => g.live)))]
  | .DRVER => pack [(48, h.red.gear.version), (0, sum ((upto 15).map (fun s => bnat (h.huff (s + 1)).isSome <<< s)))]
  | .DRCFG => h.stored 0 .DRCFG i ||| (match h.pool i with | some p => pack [(32, p.cidxk)] | none => 0)
  | .NFSTAT => pack [(32, sum ((upto 32).map (fun g => bnat (h.fl.groups.any (fun e => e.1 = g && e.2.own)) <<< g))),
      (31, bnat (h.fl.groups.any (fun e => !e.2.resync.isEmpty))), (0, h.vols.fines.length)]
  | .NFVER => pack [(48, h.fl.famV), (32, h.fl.ldpcV)]
  | .POOLSP => (match h.pool (i / 2) with
    | some p =>
      let s := i % 2
      pack [(62, if p.worn.at s then 2 else if h.tight p s then 1 else 0), (40, h.spareBands p s),
        (20, (h.freeSpace p s / 1073741824).toNat), (0, h.reservedSpace s / 1073741824)]
    | none => 0)
  | .POOLENC => (match h.pool i with | some p => pack [(63, bnat p.enc), (62, bnat p.plain.isSome), (61, 1)] | none => 0)
  | .DIE => (match h.die i with
    | some x => pack [(59, x.fam), (56, x.state.ctorIdx), (32, x.bad.length), (16, x.ecRange.1), (0, x.ecRange.2)]
    | none => 0)
  | .STSTAT =>
    let again : Bool := h.fl.unsync.any (fun n => (h.band n).any (fun b => b.side = side))
    pack [(62, h.stripeSrc), (61, bnat again), (20, if again then 524288 else (h.fl.bitmap.at side).length),
      (0, h.fl.jour.countP (fun r => r.side = side))]
  | .RBSTAT => pack [(40, h.fl.bands.countP (fun b => b.side = side && b.rebuild)), (0, h.fl.rbPoison.at side)]
  | .POOLGEO => (match h.pool i with
    | some p => pack [(63, bnat p.built), (8, p.w), (0, p.p)]
    | none => h.stored 0 .POOLGEO i)
  | .FNCSTAT =>
    let f := h.pair.fence
    pack [(63, bnat f.fenced), (62, bnat (!h.sys.pins.fenceOut)), (61, bnat (!h.sys.pins.fenceIn)), (60, bnat f.tie), (58, f.peer.ctorIdx)]
  | .LEHRSTAT => pack [(63, bnat (h.pair.solo && (h.serves 0 || h.serves 1))), (62, bnat h.pair.remir), (48, h.vols.atoms.length), (32, h.holdup), (16, h.tspill)]
  | .LEHRUSE => pack [(32, h.primaries / 16), (16, h.mirrors / 16)]
  | .SPILLSTAT =>
    let x := h.spillOf side
    pack [(63, bnat (x.ready && x.clean)), (62, bnat x.nextB), (60, x.last), (0, x.pages)]
  | .PLSTAT =>
    let l := h.pair.link
    pack [(58, l.txw), (52, l.rxw), (50, l.state.ctorIdx), (0, l.rxGood.toNat)]
  | .VCG => (match h.vol i with
    | some v => pack [(40, v.vepoch), (39, 1), (38, v.home), (30, v.pool), (16, v.liveSnaps), (0, v.group)]
    | none => 0)
  | .REPSTAT => (match h.rep i with
    | some r => pack [(62, r.state), (61, bnat r.group), (40, r.subj), (24, r.cycles), (0, r.base)]
    | none => 0)
  | _ => 0

/-- Registers of chapters 12 and 13. -/
def Head.viewUnits (h : Head) (d : RegDef) (i : Nat) : Word :=
  match d.reg with
  | .TLSTAT =>
    let l := (h.tape.ports.at i).link
    pack [(61, l.state.ctorIdx), (58, l.txw), (54, l.rxw), (46, l.rxGood.toNat), (42, l.txGood.toNat), (34, l.tries), (0, l.tlid)]
  | .TLREG => (h.tape.ports.at i).link.rsp
  | .TPSTAT =>
    let x := h.tape.ports.at i
    pack [(60, x.state.ctorIdx), (56, x.step), (48, x.wrap), (24, x.servo.lpos % 2 ^ 24), (16, x.lvl), (12, x.splice)]
  | .TPSERVO =>
    let x := (h.tape.ports.at i).servo
    pack [(48, word16 x.pes0), (32, word16 x.pes1), (31, bnat x.inh), (30, bnat x.off), (29, bnat (h.shockSeen i))]
  | .TPVER => pack [(48, h.tape.ladder.version), (32, h.tape.eq.version), (16, h.tape.linkT.version)]
  | .TPWEAK => pack [(32, h.tape.weak.length),
      (0, sum (h.tape.weak.map (fun w => sum (w.recs.map (fun r => r.2.2.length)))) / 1048576)]
  | .L2STAT =>
    let x := h.l2 i
    pack [(48, x.unc), (0, sum ((upto 16).map (fun w =>
      (if h.now ≤ look 0 x.wstart w + 600000000000 then look 0 x.werr w else 0) <<< (3 * w))))]
  | .ECCSTAT =>
    let e := look (0, 0, 0, 0, 0) h.core.ecc i
    pack [(40, e.1), (16, e.2.1), (0, e.2.2.1)]
  | .ECCLAST =>
    let e := look (0, 0, 0, 0, 0) h.core.ecc i
    pack [(62, e.2.2.2.1), (0, e.2.2.2.2)]
  | .PSSTAT => pack [(63, bnat h.core.psFail), (62, bnat h.core.psPeer)]
  | .POOLSTAT =>
    let x := h.bpool i
    pack [(62, x.level), (32, x.dfree), (0, h.bufFree i)]
  | _ => 0

/-- Registers of chapters 14 to 16. -/
def Head.viewSys (h : Head) (d : RegDef) (i : Nat) : Word :=
  let r := h.sys.rst
  let p := h.sys.power
  let f := h.keys.fw
  match d.reg with
  | .KEYSTAT =>
    let mk := h.liveKeys 72 73
    pack [(63, bnat (decide (0 < mk))), (48, h.liveKeys 0 63), (40, h.liveKeys 64 71), (32, mk), (0, h.cfg .KEYSTAT 0 31 0)]
  | .FWSTAT =>
    let o := f.slot f.other
    pack [(63, bnat (f.inForce = some 1)), (62, bnat f.conf), (61, bnat (o.any (fun x => x.staged && !x.rejected))),
      (60, bnat (o.any (fun x => x.rejected))), (32, f.hleft), (0, f.ver)]
  | .FWSEC => pack [(32, f.floor), (0, match f.slot f.other with | some x => x.version | none => 0)]
  | .IDKEY => wordOf Config.idPublic i
  | .HKSTAT => (match look none h.keys.hkeys i with
    | some k => pack [(63, 1), (48, k.len), (46, k.use)]
    | none => 0)
  | .KEYINFO => (match h.keyOf i with
    | some k => pack [(63, 1), (62, bnat (h.sessionLive i)), (48, k.by_)]
    | none => pack [(62, bnat (h.sessionLive i))])
  | .KEYPUB => (match h.keyOf (i / 4) with | some k => wordOf k.key (i % 4) | none => 0)
  | .DGCTX =>
    let x := h.dgctx i
    pack [(60, x.alg), (56, x.kslot), (48, x.owner), (0, x.bytes)]
  | .DGRES => wordOf (h.dgctx (i / 8)).res (i % 8)
  | .EVNEW => BitVec.ofNat 64 h.newestEvent
  | .EVFLOOR => BitVec.ofNat 64 h.rcd.floor
  | .EVSTAT => pack [(63, bnat h.rcd.vol), (0, h.rcd.drop)]
  | .EVTIME => BitVec.ofNat 64 h.now
  | .RSTSTAT => pack [(60, r.cause), (58, r.bsrc), (57, bnat r.trimv), (56, bnat r.tflt), (55, bnat r.bflt), (48, r.straps), (0, r.bootn)]
  | .TRIMSTAT => pack [(62, r.fails)]
  | .CLKSTAT => pack [(56, p.lock.toNat), (51, p.loss.toNat), (50, bnat p.badsel)]
  | .CVRSTAT => pack [(56, p.vid), (40, p.iout), (39, bnat p.fault), (36, p.rstat)]
  | .THERMSTAT => pack [(56, p.tj), (48, p.tjpeak), (47, bnat p.thr), (46, bnat p.trip)]
  | .ISTAT =>
    let x := nth Island.blank h.sys.islands i
    pack [(61, x.st.ctorIdx), (60, bnat (h.crossingBusy i)), (59, bnat x.qto), (0, x.rstn)]
  | _ => 0

/-- Fields of a register that nothing but the register file holds. -/
def inFile (r : Reg) : Bool :=
  [Reg.QCFG, .QIDLE, .ALIM, .CPTCFG, .CPTTIM, .CLASS, .HADDR4, .HADDR6H, .HADDR6L, .HADDRV, .CPTCNT, .HPCFG, .HPOL, .DRLIM, .DRCNT,
   .NFCFG, .NFGC, .NFIDLE, .NFCNT, .STCFG, .STCNT, .FNCCFG, .LEHRCFG, .TLCFG, .TPCFG, .TPCNT, .ENGCFG, .L2CFG, .SCRUB, .PSCFG,
   .ECCTA, .ECCTD, .ECCTC, .POOLCFG, .POOLBASE, .POOLTHR, .MKACC, .FWCFG, .ISCFG, .WDCFG, .BOOTCFG, .CVRCFG, .THERMCFG].contains r

/-- What a register that is not of scope T reads as, in a side copy where it is of scope S; a write-only register reads 0 (R6). -/
def Head.view (h : Head) (c : Caller) (d : RegDef) (i side : Nat) : Word :=
  if inFile d.reg then h.stored (d.copy side) d.reg i
  else h.viewWork c d i side ||| h.viewMedia d i side ||| h.viewUnits d i ||| h.viewSys d i

/-- What a T register reads as to its thread (R49, Table 13-8); TVEC, TPC and TADDR are free until written (R7). -/
def Head.viewThread (h : Head) (x : Thread) (r : Reg) : Word :=
  let open' := Config.freeWord h.fresh
  match r with
  | .TVEC => if x.xw.getLsbD 0 then x.tvec else open'
  | .TPC => if x.xw.getLsbD 1 then x.tpc else open'
  | .TADDR => if x.xw.getLsbD 2 then x.taddr else open'
  | .TCAUSE => x.tcause
  | .VS => BitVec.ofNat 64 x.vs
  | .ICOUNT => BitVec.ofNat 64 x.icount
  | _ => x.charge

/-- A register access of a maker is recorded (R418). -/
def Head.auditAccess (h : Head) (c : Caller) (a : Nat) (s : Status) : Head :=
  if c.tier = .M then h.audit c.slot c.queue (a % 2 ^ 32 + 2 ^ 32) s.code false else h

/-- STATE.GET of an address (R40, R499, R500, R503), for a thread or, where that is none, over SMBus: the head, the status and
the value. A read that a tier stops leaves a free value. -/
def Head.readState (h : Head) (c : Caller) (t : Option Nat) (a : Nat) : Head × Status × Word :=
  let answer := fun (h : Head) (s : Status) (v : Word) => (h.auditAccess c a s, s, v)
  if 4294967295 < a then answer h .invalid 0
  else
    match regOf (a % 2147483648) with
    | none => answer h .invalid 0
    | some (d, i) =>
      let far := bit a 31
      if (far && d.scope ≠ .S) || !h.served d i then answer h .invalid 0
      else
        match d.scope with
        | .T =>
          (match t with
          | none => answer h .invalid 0
          | some t =>
            if c.tier ≠ .F && d.reg ≠ .CHARGE then answer h.tick .tier (Config.freeWord h.fresh)
            else answer h.tick .ok (h.viewThread (h.thread t) d.reg))
        | .S =>
          let side := if far then 1 - c.side else c.side
          let v := h.view c d i side
          answer h .ok (if h.serves side then v else v &&& BitVec.ofNat 64 (keepMask d true))
        | _ =>
          if d.reg = .KEYX then
            let x := h.drawKeyx c.conn
            answer x.1 .ok (wordOf x.2 i)
          else answer h .ok (h.view c d i 0)

/-! ## What a write does -/

/-- QCFG (R83). -/
def Head.doQcfg (h : Head) (c : Caller) (q : Nat) (v : Word) : WriteResult :=
  let n := v.toNat
  let change := bits n 63 63 ≠ h.cfgS c.side .QCFG q 63 63 || bits n 43 40 ≠ h.cfgS c.side .QCFG q 43 40
  if change && !(h.inflight c.side q).isEmpty then h.noWrite .invalid
  else .ok (h.setReg c Reg.QCFG.row q v, .ok)

/-- ALIM (Table 4-7, R277): not below what contracts have reserved, LEHR not above 1,024 × SIZE − 2,048. -/
def Head.doAlim (h : Head) (c : Caller) (v : Word) : WriteResult :=
  let ks := h.openContracts.map (fun k => k.2)
  let lehr := bits v.toNat 47 32
  if lehr < committed ks h.side 6 || bits v.toNat 15 0 < committed ks h.side 5 || 1024 * h.cfg .LEHRCFG 0 7 0 < lehr + 2048 then
    h.noWrite .invalid
  else .ok (h.setReg c Reg.ALIM.row 0 v, .ok)

/-- LEHRCFG (R275, R277). -/
def Head.doLehrcfg (h : Head) (c : Caller) (v : Word) : WriteResult :=
  if 1024 * bits v.toNat 7 0 < h.cfg .ALIM 0 47 32 + 2048 then h.noWrite .invalid
  else .ok (h.setReg c Reg.LEHRCFG.row 0 v, .ok)

/-- DRCFG (Table 7-13): a static table that CMODE 0b10 names must be loaded. -/
def Head.doDrcfg (h : Head) (c : Caller) (p : Nat) (v : Word) : WriteResult :=
  if bits v.toNat 61 60 = 2 && (h.huff (bits v.toNat 59 56)).isNone then h.noWrite .invalid
  else .ok (h.setReg c Reg.DRCFG.row p v, .ok)

/-- POOLGEO (R245). -/
def Head.doPoolgeo (h : Head) (c : Caller) (n : Nat) (v : Word) : WriteResult :=
  let w := bits v.toNat 12 8
  let p := bits v.toNat 1 0
  if !h.geoOk w p then h.noWrite .invalid
  else
    let h := h.setReg c Reg.POOLGEO.row n v
    match h.pool n with
    | none => .ok (h, .ok)
    | some x =>
      let h := h.setFl { h.fl with pools := mapFirst (fun (y : Pool) => y.num = n) (fun y => { y with w := w, p := p }) h.fl.pools }
      .ok (h.record' (.pool n (some ⟨x.enc, w, p, x.cidxk, x.key⟩)), .ok)

/-- VCG (R308): the volume exists, and neither it nor its old or new group is under REPLICATE. -/
def Head.doVcg (h : Head) (_c : Caller) (n : Nat) (v : Word) : WriteResult :=
  let g := bits v.toNat 9 0
  match h.vol n with
  | none => h.noWrite .invalid
  | some x =>
    if h.volReplicating x || (g ≠ 0 && h.replicating true g) then h.noWrite .invalid
    else .ok ((h.updVol n (fun x => { x with group := g })).1, .ok)

/-- Bytes of a pool's region. -/
def Head.regionBytes (h : Head) (p : Nat) : Nat := h.bufCount p * h.bufBytes p

/-- The limits of R409 and R414 on pool `p` as it stands after a write, `h` being the head with the new fields stored. A pool of
no buffers has no region. -/
def Head.poolFits (h : Head) (p : Nat) : Bool :=
  let base := h.bufBase p
  let size := h.regionBytes p
  let all := upto 16
  let place' :=
    if h.bufScratch p then decide (h.cfg .POOLCFG p 63 59 ≤ 16) && decide (base + size ≤ scrLimit) &&
      decide (sum ((all.filter (fun k => h.bufScratch k)).map h.regionBytes) ≤ 8388608)
    else decide (Config.firmwareBase ≤ base) && decide (base + size ≤ Config.firmwareBase + 1744830464)
  let clear := all.all (fun k => k = p || h.bufScratch k ≠ h.bufScratch p || !(meets (base, size) (h.bufBase k, h.regionBytes k)))
  size = 0 || (decide (sum (all.map h.bufCount) ≤ 4194304) && base % h.bufBytes p = 0 && place' && clear)

/-- POOLCFG and POOLBASE (R409, R414): refused while a buffer is allocated or where a limit breaks. -/
def Head.doPoolReg (h : Head) (c : Caller) (d : RegDef) (p : Nat) (v : Word) : WriteResult :=
  let k := h.setReg c d p v
  if !(h.bpool p).held.isEmpty || !(k.poolFits p) then h.noWrite .invalid else .ok (k, .ok)

/-- POOLTHR (Table 13-16). -/
def Head.doPoolthr (h : Head) (c : Caller) (p : Nat) (v : Word) : WriteResult :=
  let f := bits v.toNat
  if f 55 48 < f 63 56 && f 47 40 < f 55 48 && decide (1 ≤ f 47 40) then .ok (h.setReg c Reg.POOLTHR.row p v, .ok)
  else h.noWrite .invalid

/-- THERMCFG (Table 16-12). -/
def Head.doThermcfg (h : Head) (c : Caller) (v : Word) : WriteResult :=
  let f := bits v.toNat
  if f 63 56 + 5 ≤ f 55 48 && decide (f 55 48 ≤ 118) then .ok (h.setReg c Reg.THERMCFG.row 0 v, .ok) else h.noWrite .invalid

/-- ECCTA (Table 13-14): the address is a multiple of 8. -/
def Head.doEccta (h : Head) (c : Caller) (v : Word) : WriteResult :=
  if bits v.toNat 47 0 % 8 ≠ 0 then h.noWrite .invalid else .ok (h.setReg c Reg.ECCTA.row 0 v, .ok)

/-- A field with the bits that are written as 1 cleared (R6). -/
def clearOnes (w old v : Nat) : Nat := ((BitVec.ofNat w old) &&& ~~~(BitVec.ofNat w v)).toNat

/-- ECCSTAT (Table 13-12). -/
def Head.doEccstat (h : Head) (m : Nat) (v : Word) : WriteResult :=
  let e := look (0, 0, 0, 0, 0) h.core.ecc m
  let f := bits v.toNat
  let e' := (clearOnes 24 e.1 (f 63 40), clearOnes 24 e.2.1 (f 39 16), clearOnes 16 e.2.2.1 (f 15 0), e.2.2.2)
  .ok (h.setCore { h.core with ecc := place (0, 0, 0, 0, 0) h.core.ecc m e' }, .ok)

/-- The RWS fields that the head keeps beside the register file (R467, R456, R475, R476): they take the value written. -/
def Head.doKept (h : Head) (r : Reg) (v : Word) : WriteResult :=
  let f := bits v.toNat
  let p := h.sys.power
  .ok (match r with
    | .TRIMSTAT => h.setRst { h.sys.rst with fails := f 63 62 }
    | .CLKSTAT => h.setPower { p with loss := BitVec.ofNat 5 (f 55 51) }
    | _ => h.setPower { p with tjpeak := f 55 48, trip := bit v.toNat 46 }, .ok)

/-- T registers (R49, Table 13-8). TVEC takes multiples of 0x400 alone (DEDUCED, log entry 59). -/
def Head.doThreadReg (h : Head) (t : Nat) (r : Reg) (v : Word) : WriteResult :=
  let x := h.thread t
  let put := fun (x : Thread) => (Except.ok (h.setThread t x, .ok) : WriteResult)
  match r with
  | .TVEC => if v.toNat % 1024 ≠ 0 then h.noWrite .invalid else put { x with tvec := v, xw := x.xw ||| 1#3 }
  | .TPC => put { x with tpc := v, xw := x.xw ||| 2#3 }
  | .TADDR => put { x with taddr := v, xw := x.xw ||| 4#3 }
  | .TCAUSE => put { x with tcause := (x.tcause &&& ~~~0x20000#64) ||| (v &&& 0x20000#64) }
  | .VS => put { x with vs := v.toNat % 65536 }
  | .ICOUNT => put { x with icount := v.toNat }
  | _ => put { x with charge := v &&& 0x3FFFF#64 }

/-- The effect of a write that has passed the checks of R40. A register of which no field is writable keeps its value (R6). -/
def Head.writeEffect (h : Head) (c : Caller) (d : RegDef) (i : Nat) (v : Word) : WriteResult :=
  match d.reg with
  | .QCFG => h.doQcfg c i v
  | .ALIM => h.doAlim c v
  | .ADMTAB => h.doAdmtab c v
  | .HPCFG => h.doHpcfg c v
  | .HPOL => h.doHpol c v
  | .DRGEAR => h.doTable c .DRGEAR v
  | .DRHUF => h.doTable c .DRHUF v
  | .NFFAM => h.doTable c .NFFAM v
  | .NFLDPC => h.doTable c .NFLDPC v
  | .DRCFG => h.doDrcfg c i v
  | .POOLCTL => h.doPoolctl c v
  | .VOLCTL => h.doVolctl c v
  | .POOLGEO => h.doPoolgeo c i v
  | .FNCCTL => h.doFncctl c v
  | .LEHRCFG => h.doLehrcfg c v
  | .VCG => h.doVcg c i v
  | .TLCFG => h.doTlcfg c i v
  | .TLREG => h.doTlreg i v
  | .TPLAD => h.doTapeTable c .TPLAD v
  | .TPEQ => h.doTapeTable c .TPEQ v
  | .TPLNK => h.doTapeTable c .TPLNK v
  | .ENGCFG => h.doEngcfg c i v
  | .L2CFG => h.doL2cfg c i v
  | .ECCSTAT => h.doEccstat i v
  | .ECCTA => h.doEccta c v
  | .ECCTCTL => h.doEcct v
  | .POOLCFG => h.doPoolReg c Reg.POOLCFG.row i v
  | .POOLBASE => h.doPoolReg c Reg.POOLBASE.row i v
  | .POOLTHR => h.doPoolthr c i v
  | .DGCTX => h.doDgctx c i v
  | .KEYIMP => h.doKeyimp c v
  | .EVTIME => h.doEvtime c v
  | .ISRST => h.doIsrst c v
  | .WDKICK => h.doWdkick c v
  | .TRIMSTAT => h.doKept .TRIMSTAT v
  | .CLKSTAT => h.doKept .CLKSTAT v
  | .THERMSTAT => h.doKept .THERMSTAT v
  | .THERMCFG => h.doThermcfg c v
  | .ISTAT => .ok (if bit v.toNat 59 then h.updIsland i (fun x => { x with qto := false }) else h, .ok)
  | _ =>
    if d.flds.any (fun f => f.acc = .rw1c) then .ok (h.store 0 d.reg i (h.stored 0 d.reg i &&& ~~~v), .ok)
    else if inFile d.reg then .ok (h.setReg c d i v, .ok)
    else h.noWrite .ok

/-- The general checks on a write of a T register, its present value being that of the thread. -/
def Head.threadCheck (h : Head) (c : Caller) (t : Nat) (d : RegDef) (v : Word) : Option Status :=
  (h.store 0 d.reg 0 (h.viewThread (h.thread t) d.reg)).writeCheck c d 0 v

/-- A write of register (d, i) with its checks, for a thread or over SMBus. -/
def Head.writeReg (h : Head) (c : Caller) (t : Option Nat) (d : RegDef) (i : Nat) (v : Word) : WriteResult :=
  match d.reg with
  | .KEYENR => h.doKeyenr c v
  | .MKACC => h.writeMkacc c v
  | .KEYIMP => h.writeInstaller c d i v (fun h => h.writeEffect c d i v)
  | .FWCFG => h.writeInstaller c d i v (fun h => h.writeEffect c d i v)
  | _ =>
    match d.scope, t with
    | .T, none => h.noWrite .invalid
    | .T, some t =>
      (match h.threadCheck c t d v with
      | some s => .ok (h.auditReg c d i s false, s)
      | none =>
        match (if c.tier = .F then h.doThreadReg t d.reg v else h.noWrite .ok) with
        | .error e => .error e
        | .ok (h, s) => .ok (h.auditReg c d i s false, s))
    | _, _ => h.writeWith c d i v (fun h => h.writeEffect c d i v)

/-- STATE.SET of an address (R40, R499, R500): the side that an S register is reached in is the caller's or, with bit 31, the
other. -/
def Head.writeState (h : Head) (c : Caller) (t : Option Nat) (a : Nat) (v : Word) : WriteResult :=
  let refuse := (Except.ok (h.auditAccess c a .invalid, .invalid) : WriteResult)
  if 4294967295 < a then refuse
  else
    match regOf (a % 2147483648) with
    | none => refuse
    | some (d, i) =>
      let far := bit a 31
      if far && d.scope ≠ .S then refuse
      else h.writeReg { c with side := if far then 1 - c.side else c.side } t d i v

/-! ## STATE.GET and STATE.SET -/

/-- The caller that a thread's accesses count for (R500): its command's slot, queue and connection, or firmware. -/
def Head.threadCaller (h : Head) (x : Thread) : Caller :=
  match x.cmd.bind h.cmd with
  | some c => ⟨x.tier, c.cred, c.side, some c.queue, c.seq, c.conn⟩
  | none => ⟨x.tier, 255, h.side, none, 0, 0⟩

/-- The address of an access. -/
def stateAddr (x : Thread) (w : GWord) : Nat := (x.reg w.ra.toNat + sext32 w.imm).toNat

/-- What an access leaves in its thread (R41): the result where it has one, p7, and VS. -/
def Head.accessDone (h : Head) (t : Nat) (rd : Option Nat) (s : Status) (v : Word) : Head :=
  let x := h.thread t
  let x := match rd with | some r => x.setReg r v | none => x
  h.setThread t (x.statusOf s)

/-- The entry of the verb log that a re-run access takes its answer from (R163, R164), and the head without it. -/
def Head.loggedAccess (h : Head) (x : Thread) (vc : Nat) : Option (Head × LogEntry) :=
  match x.cmd.bind h.cmd with
  | none => none
  | some c =>
    match c.replay.find? (fun e => e.vc = vc) with
    | none => none
    | some e => some (h.updCmd (c.side, c.seq) (fun c => { c with replay := c.replay.erase e }), e)

/-- An access is appended to the verb log of its command (R163). -/
def Head.logAccess (h : Head) (x : Thread) (vc : Nat) (s : Status) (v : Word) : Head :=
  match x.cmd with
  | some k => h.logVerb k vc ⟨s, v, 0, false⟩
  | none => h

/-- STATE.GET (R40, R41). Like a verb it waits where the verb log has no room for its entry (log entry 89). -/
def Head.stateGet (h : Head) (t : Nat) (w : GWord) (x : Thread) : Iss :=
  match h.loggedAccess x 0x20 with
  | some e => .act (e.1.accessDone t (some w.rd.toNat) e.2.status e.2.result)
  | none =>
    if h.logWaits x.cmd x.outs then .wait
    else
      let r := (h.logGrown x.cmd x.outs).readState (h.threadCaller x) (some t) (stateAddr x w)
      .act ((r.1.logAccess x 0x20 r.2.1 r.2.2).accessDone t (some w.rd.toNat) r.2.1 r.2.2)

/-- STATE_GET. -/
def execStateGet (t : Nat) (w : GWord) (s : State) : Host.Outcome State Fault Refusal :=
  s.run (fun h => h.issue t (w.common 0x20) (w.rb = 0 && w.fn = 0) .O [w.rd.toNat, w.ra.toNat] (fun h x => h.stateGet t w x))

/-- A command under contract may write only VCG of its contract's volume (R98). -/
def Head.setForbidden (h : Head) (x : Thread) (a : Nat) : Bool :=
  match x.cmd.bind h.cmd with
  | none => false
  | some c =>
    if !c.con then false
    else
      match h.contract c.contract, regOf a with
      | some k, some (d, i) => !(d.reg = .VCG && i = k.volume)
      | _, _ => true

/-- The deletion that a write of POOLCTL or VOLCTL has begun and that must end before the write completes (R225, R226, R502). -/
def Head.deletion (h : Head) (c : Caller) (a : Nat) (v : Word) : Option Await :=
  match regOf a with
  | none => none
  | some (d, _) =>
    let b := (h.tabref c v 32).getD []
    if dword b 0 63 56 ≠ 2 then none
    else if d.reg = .POOLCTL then some (.pool (dword b 0 55 48))
    else if d.reg = .VOLCTL then some (.volume (dword b 0 15 0))
    else none

/-- A write that waits for a deletion, or for its setting to be in both PSTOREs: the thread stops as for a verb issued with wait
(R40, R44, R501). -/
def Head.awaitWrite (h : Head) (t : Nat) (x : Thread) (aw : Await) (tag : Option Nat) : Head :=
  let vid := h.work.vid
  let v : HVerb :=
    { vid := vid, vc := 0x21, t := t, cmd := x.cmd, ops := [], imm := 0, ans := none, tag := tag, aw := .nothing, past := false
      codeC := false, op := none, res := .ok 0, k := 0 }
  let h := h.nextVerb
  let h := h.setThread t { x with verbs := x.verbs ++ [⟨vid, 0x21, 0, none, false⟩], run := .waitVerb vid }
  h.pushC v aw (.ok 0)

/-- STATE.SET (R40, R41, R98, R501). A thread whose own island the write has reset is no longer there to go on. -/
def Head.stateSet (h : Head) (t : Nat) (w : GWord) (x : Thread) : Except Fault Iss :=
  let a := stateAddr x w
  let v := x.reg w.rb.toNat
  match h.loggedAccess x 0x21 with
  | some e => .ok (.act (e.1.accessDone t none e.2.status 0))
  | none =>
    if h.logWaits x.cmd x.outs then .ok .wait
    else
      let h := h.logGrown x.cmd x.outs
      if h.setForbidden x a then .ok (.act ((h.logAccess x 0x21 .invalid 0).accessDone t none .invalid 0))
      else
        let c := h.threadCaller x
        match h.writeState c (some t) a v with
        | .error e => .error e
        | .ok (k, s) =>
          if !k.runs (islandOf t) then .ok (.stop k.settle)
          else
            match (if s = .ok then h.deletion c a v else none) with
            | some aw => .ok (.act (k.awaitWrite t x aw none))
            | none =>
              if k.landed (h.sentSince k) then .ok (.act ((k.logAccess x 0x21 s 0).accessDone t none s 0))
              else .ok (.act (k.awaitWrite t x .nothing (h.sentSince k)))

/-- STATE_SET. -/
def execStateSet (t : Nat) (w : GWord) (s : State) : Host.Outcome State Fault Refusal :=
  s.runE (fun h => h.issueE t (w.common 0x21) (w.rd = 0 && w.fn = 0) .O [w.ra.toNat, w.rb.toNat] (fun h x => h.stateSet t w x))

end Sys2Proof.Machine
end

