-- ==== Sys2Proof/Machine/Replicate.lean ====
section
/-! DEFINITION. Replication (R145, R309-R311): the head as a client of its target, the cycles of a replication slot, and the
packets that only a client receives. -/

namespace Sys2Proof.Machine

/-- A slot's cycle fails (R311): RETRYING, its connection closed. -/
def Head.repFail (h : Head) (r : Nat) (x : Rep) : Head := h.repHangUp r { x with state := 2, phase := 0, left := 0, win := 0, todo := [] }

/-- A cycle is complete (R310 step 4): its snapshot is the base, the head's old one and target snapshots older than the
cycle before are dropped. -/
def Head.repEnd (h : Head) (r : Nat) (x : Rep) (c : Conn) (handle : Word) : Head :=
  let h := if x.base = 0 then h else (h.sdrop (h.handle (mkHandle x.subj x.group x.base))).1
  let old := (handle :: x.handles).drop 2
  let y : Rep := { x with
    base := x.cur.getD 0, cur := none, cycles := min 65535 (x.cycles + 1), phase := 0, left := 0, todo := []
    handles := (handle :: x.handles).take 2 }
  let z := old.foldl (fun (acc : Head × Rep) s => acc.1.repSubmitFree r acc.2 c.num 0x07 [s]) (h, y)
  z.1.putRep r z.2

/-- The awaited command of a slot is final at the target, with a status and a result. -/
def Head.repDone (h : Head) (r : Nat) (x : Rep) (c : Conn) (st : Nat) (result : Word) : Head :=
  let x := { x with left := 0 }
  if x.state = 3 then h.repHangUp r { x with phase := 0 }
  else if (statusOf st).final ≠ .completed then h.repFail r x
  else if x.phase = 4 then h.repNext r { x with win := result } c
  else if x.phase = 5 then
    let win := match x.todo with
      | (_, _, false) :: _ => mkRef (refKey x.win) ((refGen x.win + 1) % 65536)
      | _ => x.win
    h.repNext r { x with todo := x.todo.drop 1, win := win } c
  else if x.phase = 6 then h.repEnd r x c result
  else h.putRep r x

/-- The slot that uses a connection. -/
def Head.repOn (h : Head) (n : Nat) : Option (Nat × Rep) := h.repList.find? (fun e => e.2.conn = some n)

/-- A COMPLETE of the target: QNEXT answers the attachment, records end awaited commands. -/
def Head.repComplete (h : Head) (n qnext : Nat) (recs : List CRec) : Head :=
  match h.repOn n, h.conn n with
  | some (r, x), some c =>
    if x.phase = 3 then
      if x.state = 3 then h.repHangUp r { x with phase := 0, left := 0 }
      else h.repSubmit r { x with slot := qnext, phase := 4 } n 0x0B [BitVec.ofNat 64 repUnit, 0] 0
    else
      match recs.find? (fun k => bits k.c0.toNat 63 32 = x.tag) with
      | some k => if 0 < x.left then h.repDone r x c (bits k.c0.toNat 15 0) k.c2 else h
      | none => h
  | _, _ => h

/-- CPT_COMPLETE_RX: records of a target of which the head is a client (R145, R310). -/
def execCptCompleteRx (k : Rx) (queue qnext recs : List Byte) (s : State) : Host.Outcome State Fault Refusal :=
  s.run (fun h =>
    let k := (k.join [queue, qnext, recs]).pkt
    h.rx k (k.typ = 3) takesAll (fun _ => true) (fun h c =>
      (h.rxReliable k c false (fun h => h.withSession c 3 0 (fun h =>
        match h.repOn c.num with
        | some (r, _) =>
          if c.init && k.th 0 2 = Config.targetQueue r % 65536 then
            h.repComplete c.num (k.th 4 4) ((partsOf 32 (k.th 2 1) k.pay).map crecOf)
          else h
        | none => h))).settle))

/-- A connection to the target is opened (R116, R145). -/
def Head.repConnect (h : Head) (r : Nat) (x : Rep) (side : Nat) : Head :=
  if 262144 ≤ h.net.conns.length then h.putRep r { x with state := 2, phase := 0 }
  else
    let y := h.newConnNum
    let isn := Config.freeNat y.1.fresh % 4294967296
    let port := dword x.descr 2 63 48
    let cls := dword x.descr 2 21 19
    let c := newConn y.2 side (beNat (x.descr.take 16)) 0 isn 0 (if port = 0 then 6416 else port) 8192
      (if cls = 0 then 7 else cls) h.now .opening true false
    let h := y.1.tick
    (((h.setConns (h.net.conns ++ [c])).noteUse c.num).putRep r { x with conn := some y.2, phase := 1, left := 0 }).sendConnect c

/-- A cycle begins (R310 step 1): the snapshot, what is to be sent, the connection. A cut that R303 refuses leaves the cycle
unbegun. -/
def Head.repCycle (h : Head) (r : Nat) (x : Rep) : Head :=
  let h := h.dropCut x
  let x : Rep := { x with state := 1, cur := none, phase := 0, left := 0, todo := [] }
  let ms := h.repMembers x
  if ms.isEmpty || h.snapFull (ms.filterMap h.vol) then h.putRep r x
  else
    let e := if x.group then look 0 h.vols.cuts x.subj + 1 else (match h.vol x.subj with | some v => v.vepoch | none => 0)
    let base := x.base
    let los := ms.map (fun m => h.repEpochOf x m base)
    let h := (h.snapCut x.subj x.group ms none).1
    let todo := ((upto ms.length).flatMap (fun k =>
      let m := nth 0 ms k
      (h.repTodo m (if base = 0 then 0 else nth 0 los k) (h.repEpochOf x m e)).map (fun u => (k, u.1, u.2))))
    let x : Rep := { x with cur := some e, todo := todo, startAt := h.now }
    match x.conn.bind h.conn with
    | some c => if c.slot.isSome && x.win ≠ 0 then h.repNext r x c else h.repConnect r x (h.repSide x)
    | none => h.repConnect r x (h.repSide x)

/-- REPLICATE_CYCLE: the next cycle of a running slot is due (R310). -/
def execReplicateCycle (slot : Nat) (s : State) : Host.Outcome State Fault Refusal :=
  s.run (fun h => match h.rep slot with
    | some x => if x.state = 1 && x.phase = 0 && h.serves (h.repSide x) then (h.repCycle slot x).settle else h
    | none => h)

/-- REPLICATE_RETRY: 1 s after a connection or a target command failed the cycle restarts from the base (R311). -/
def execReplicateRetry (slot : Nat) (s : State) : Host.Outcome State Fault Refusal :=
  s.run (fun h => match h.rep slot with
    | some x => if x.state = 2 && h.serves (h.repSide x) then (h.repCycle slot x).settle else h
    | none => h)

/-! ## Set-up of the client's connection and session (R116, R145, R422) -/

/-- What takes the reply to a CONNECT. -/
def takesReply (c : Conn) : Bool := c.state = .opening || c.state = .opened

/-- The HELLO of a client (R422, Table 14-4). -/
def Head.sendHello (h : Head) (n slot : Nat) (nc : List Byte) : Head :=
  h.reliable' n (.session 1 ([BitVec.ofNat 8 slot, 0, 0, 0, 0, 0, 0, 0] ++ nc))

/-- The reply to a CONNECT of the head (R116): the connection is open, with srtt and base from the exchange (Table 5-8), and the head's
HELLO follows; a refusal ends the connection. -/
def Head.onReply (h : Head) (c : Conn) (k : Pkt) : Head :=
  if !c.init || c.state ≠ .opening then h
  else if bit (k.th 14 1) 6 then (h.connClosed c.num).settle
  else
    let rtt := (k.arr + 4294967296 - k.th 8 4) % 4294967296
    let isn := k.th 4 4
    let h := h.updConn c.num (fun c => { c with
      state := .opened, far := k.th 0 4, isnFar := isn, cum := isn, maxpay := min (k.th 12 2) 8192, openAt := h.now
      rate := { c.rate with rtts := [(h.now, rtt)], srtt := rtt, step := h.now } })
    match h.repOn c.num with
    | none => h
    | some (r, x) =>
      let slot := Config.targetSlot r
      let nc := h.random 32
      ((nc.1.setHello c.num (some ⟨some c.num, c.addr, slot, nc.2, []⟩)).putRep r { x with phase := 2 }).sendHello c.num slot nc.2

/-- CPT_CONNECT_REPLY_RX (R116). -/
def execCptConnectReplyRx (k : Rx) (scon isn tse maxpay refuse reason : List Byte) (s : State) : Host.Outcome State Fault Refusal :=
  s.run (fun h =>
    let k := (k.join [scon, isn, tse, maxpay, refuse, reason]).pkt
    h.rx k (k.typ = 5 && bit (k.th 14 1) 7) takesReply (fun _ => bit (k.th 14 1) 6 || maxpayOk (k.th 12 2)) (fun h c => h.onReply c k))

/-- The set-up of a client session failed: the connection is closed, the cycle is RETRYING. -/
def Head.repSessionFail (h : Head) (n : Nat) : Head :=
  match h.repOn n with
  | some (r, x) => (h.putRep r { x with state := if x.state = 1 then 2 else x.state, conn := none, phase := 0, left := 0, win := 0 }).closeConn n 6
  | none => h.closeConn n 6

/-- A CHALLENGE (R422): the target's signature is checked, and a PROOF under the identity key follows. -/
def Head.onChallenge (h : Head) (c : Conn) (nh idkey sig : List Byte) : Head :=
  match (if c.init then h.net.hellos.find? (fun x => x.conn = some c.num) else none) with
  | none => h
  | some x =>
    let t := transcript x.addr c.far c.num x.slot x.nc nh
    if Config.edVerify idkey (2 :: t) sig then
      (h.setHello c.num (some { x with nh := nh })).reliable' c.num (.session 3 (Config.edSign Config.idPrivate (3 :: t)))
    else h.repSessionFail c.num

/-- SESSION_CHALLENGE_RX (R145, R422). -/
def execSessionChallengeRx (k : Rx) (nh idkey sg : List Byte) (s : State) : Host.Outcome State Fault Refusal :=
  s.run (fun h =>
    let k := (k.join [nh, idkey, sg]).pkt
    h.rx k (k.sessionStep = 2) takesAll (fun _ => true) (fun h c =>
      (h.rxReliable k c false (fun h =>
        h.onChallenge c (k.pay.take 32) ((k.pay.drop 32).take 32) (k.pay.drop 64))).settle))

/-- What a client session is bound as: no slot of this head. -/
def clientSlot : Nat := 256

/-- A RESULT (R422, R423): with OK the session is bound and the head attaches to the target queue. -/
def Head.onResult (h : Head) (c : Conn) (status : Nat) : Head :=
  if !c.init || c.slot.isSome then h
  else if status ≠ 0 then h.repSessionFail c.num
  else
    let h := (h.setHello c.num none).updConn c.num (fun c => { c with slot := some clientSlot })
    match h.repOn c.num with
    | none => h
    | some (r, x) =>
      let h := h.reliable' c.num (.submit (Config.targetQueue r % 65536) 0 [])
      h.putRep r { x with phase := 3, left := 1 }

/-- SESSION_RESULT_RX (R422). -/
def execSessionResultRx (k : Rx) (status tier : List Byte) (s : State) : Host.Outcome State Fault Refusal :=
  s.run (fun h =>
    let k := (k.join [status, tier]).pkt
    h.rx k (k.sessionStep = 4) takesAll (fun _ => true) (fun h c =>
      (h.rxReliable k c false (fun h => h.onResult c (beAt k.pay 0 2))).settle))

end Sys2Proof.Machine
end

