-- ==== Sys2Proof/Machine/Smb.lean ====
section
/-! DEFINITION. The SMBus port (R420, R422-R425, R491-R496, Table 17-11): sessions, state access, reading and clearing the
recorder, resets, images, the claim, boundary scan, the alert. Each command answers with its read part: a status of two bytes,
then its data. -/

namespace Sys2Proof.Machine

/-- What an SMBus command comes to: the head, its status and its data, or an undefined outcome. -/
abbrev SmbResult := Except Fault (Head × Status × List Byte)

/-- The head with its SMBus state replaced. -/
def Head.setSmb (h : Head) (x : Smb) : Head := { h with sys := { h.sys with smb := x } }

/-- The read part sent. -/
def Head.readPart (h : Head) (s : Status) (b : List Byte) : Head :=
  (h.emit (.smb (leBytes 2 s.code ++ b))).answer s (wordOf b 0) b

/-- A transaction (R491): no acknowledge while MI is in reset; a write part whose PEC fails is discarded. `after` is what begins
once the read part has been given. -/
def Head.smbus (h : Head) (pec : Bool) (after : Head → Head) (f : Head → SmbResult) : Except Fault Head :=
  if !h.runs 0 then .ok (h.emit .smbNak)
  else if !pec then .ok (h.readPart .checkFail [])
  else
    match f h with
    | .error e => .error e
    | .ok x =>
      let h := x.1.readPart x.2.1 x.2.2
      .ok (if x.2.1 = .ok then after h else h)

/-- A transaction as a command of its own; commands move on. -/
def State.smbus (s : State) (pec : Bool) (after : Head → Head) (f : Head → SmbResult) : Host.Outcome State Fault Refusal :=
  s.runE (fun h => match h.smbus pec after f with
    | .error e => .error e
    | .ok h => .ok h.settle)

/-- The slot of the port's session. -/
def Head.smbSlot (h : Head) : Option Nat := h.sys.smb.sess.map (fun x => x.slot)

/-- The caller that accesses over SMBus count for (R500, R505): the session's slot, tier O without one. -/
def Head.smbCaller (h : Head) : Caller :=
  match h.smbSlot with
  | some n => ⟨slotTier n, n, h.side, none, 0, smbConn⟩
  | none => ⟨.O, 255, h.side, none, 0, smbConn⟩

/-- A maker session is live. -/
def Head.smbMaker (h : Head) : Bool := h.smbSlot.any (fun n => decide (72 ≤ n))

/-- A session of tier I or above is live. -/
def Head.smbInstaller (h : Head) : Bool := h.smbSlot.any (fun n => decide (64 ≤ n))

/-- No maker slot is live. -/
def Head.noMaker (h : Head) : Bool := h.liveKeys 72 73 = 0

/-- In TRIM_FAULT every command but SESSION needs a maker session (R467, R492). -/
def Head.trimLocked (h : Head) : Bool := h.sys.rst.tflt && !h.smbMaker

/-- An SMBus command of a session recorded (R418): its own code, its verb's code, or a register. -/
def Head.smbAudit (h : Head) (action : Nat) (s : Status) (refused : Bool) : Head :=
  match h.smbSlot with
  | some n => h.audit n none action s.code refused
  | none => h

/-- A command that is recorded where a maker session gives it (R418). -/
def Head.makerAudit (h : Head) (code : Nat) (s : Status) : Head :=
  if h.smbMaker then h.smbAudit (code + 2 ^ 40) s false else h

/-- Bytes from offset `o` on replaced; what lies between the end and the offset was never written. -/
def padOver (base : List Byte) (o : Nat) (b : List Byte) : List Byte := overlay (fit 0 (max o base.length) base) o b

/-! ## Sessions (R422-R424) -/

/-- The payload of a RESULT (Table 14-4). -/
def resultPay (s : Status) (tier : Nat) : List Byte := Sha.beBytes 2 s.code ++ [BitVec.ofNat 8 tier] ++ List.replicate 5 0

/-- A session step that ends in a RESULT. -/
def Head.smbSaid (h : Head) (s : Status) (tier : Nat) : SmbResult := .ok (h, s, resultPay s tier)

/-- HELLO on the port (R422-R424). Beyond the proofs of R423 there is no CHALLENGE; the status is a free value (log entry 60). -/
def Head.smbHello (h : Head) (pay : List Byte) : SmbResult :=
  let slot := (pay.headD 0).toNat
  let nc := pay.drop 8
  if pay.length ≠ 40 || ((pay.drop 1).take 7).any (fun b => b ≠ 0) then h.smbSaid .invalid 0
  else if h.sys.smb.sess.isSome then h.smbSaid .invalid 0
  else if h.proofsFull then
    h.tick.smbSaid (nth .tier [Status.tier, .checkFail, .invalid] (Config.freeNat h.fresh % 3)) 0
  else if h.helloRefused slot then (h.setSmb { h.sys.smb with hello := none }).smbSaid .tier 0
  else
    let x := h.random 32
    let h := x.1.setSmb { x.1.sys.smb with hello := some ⟨none, 0, slot, nc, x.2⟩ }
    .ok (h, .ok, x.2 ++ Config.idPublic ++ Config.edSign Config.idPrivate (2 :: transcript 0 0 0 slot nc x.2))

/-- PROOF on the port (R422-R424). A session begins with a KEYX key of its own. -/
def Head.smbProof (h : Head) (sig : List Byte) : SmbResult :=
  let h := h.countProof
  if sig.length ≠ 64 then h.smbSaid .invalid 0
  else
    match h.sys.smb.hello with
    | none => h.smbSaid .invalid 0
    | some x =>
      let h := h.setSmb { h.sys.smb with hello := none }
      if h.proofOk x 0 0 sig then
        let h := h.setSmb { h.sys.smb with sess := some ⟨x.slot⟩ }
        let h := { h with keys := { h.keys with keyx := place [] h.keys.keyx smbConn [] } }
        (h.sessionNoted x.slot 0).smbSaid .ok (slotTier x.slot).num
      else (h.proofFailed x.slot 0).smbSaid .checkFail 0

/-- SMB_SESSION (R424). -/
def execSmbSession (pec : Bool) (step : Nat) (pay : List Byte) (s : State) : Host.Outcome State Fault Refusal :=
  s.smbus pec id (fun h =>
    if step = 1 then h.smbHello pay else if step = 3 then h.smbProof pay else h.smbSaid .invalid 0)

/-- SMB_SESSION_TIMEOUT (R424): the session ends, and with it its KEYX key (R436). -/
def execSmbSessionTimeout (s : State) : Host.Outcome State Fault Refusal :=
  s.run (fun h =>
    let h := h.setSmb { h.sys.smb with sess := none, hello := none }
    { h with keys := { h.keys with keyx := place [] h.keys.keyx smbConn [] } })

/-! ## Registers (R491, R492) -/

/-- The registers that need no session (R492). -/
def openRead (a : Nat) : Bool :=
  match regOf (a % 2147483648) with
  | some (d, _) => miCopy d.reg
  | none => false

/-- SMB_STATE_GET (R491, R492). -/
def execSmbStateGet (pec : Bool) (addr : Nat) (s : State) : Host.Outcome State Fault Refusal :=
  s.smbus pec id (fun h =>
    if h.trimLocked || (h.smbSlot.isNone && !(openRead addr)) then .ok (h, .tier, leBytes 8 0)
    else
      let r := h.readState h.smbCaller none addr
      .ok (r.1, r.2.1, leBytes 8 r.2.2.toNat))

/-- The one write that R425 leaves an installer in TRIM_FAULT: MKACC.CLOSED = 0 where maker access is closed. -/
def Head.reopens (h : Head) (addr : Nat) (v : Word) : Bool :=
  h.smbInstaller && h.makerClosed && addr = 0x0B000010 && v = h.stored 0 .MKACC 0 &&& ~~~(1#64 <<< 63)

/-- SMB_STATE_SET (R491, R425). -/
def execSmbStateSet (pec : Bool) (addr : Nat) (v : Word) (s : State) : Host.Outcome State Fault Refusal :=
  s.smbus pec id (fun h =>
    if h.smbSlot.isNone || (h.trimLocked && !(h.reopens addr v)) then .ok (h, .tier, [])
    else
      match h.writeState h.smbCaller none addr v with
      | .error e => .error e
      | .ok x => .ok (x.1, x.2, []))

/-! ## The recorder (R450, R451, R494) -/

/-- SMB_EVENT_PART (R450, R492, R494). -/
def execSmbEventPart (pec : Bool) (seq part : Nat) (s : State) : Host.Outcome State Fault Refusal :=
  s.smbus pec id (fun h =>
    if h.trimLocked then .ok (h, .tier, List.replicate 32 0)
    else if 1 < part then .ok (h.makerAudit 4 .invalid, .invalid, List.replicate 32 0)
    else
      match h.eventAt seq with
      | none => .ok (h.makerAudit 4 .partially, .partially, List.replicate 32 0)
      | some e =>
        let b := (e.bytes.drop (32 * part)).take 32
        .ok ((h.setSmb { h.sys.smb with read := max h.sys.smb.read seq }).makerAudit 4 .ok, .ok, b))

/-- SMB_EVENT_CLEAR (R417, R418, R451). -/
def execSmbEventClear (pec : Bool) (s : State) : Host.Outcome State Fault Refusal :=
  s.smbus pec id (fun h =>
    if h.trimLocked then .ok (h.smbAudit 0x16 .tier false, .tier, leBytes 8 0)
    else if !h.smbInstaller || h.smbMaker then .ok (h.smbAudit 0x16 .tier h.smbMaker, .tier, leBytes 8 0)
    else
      let x := h.clearEvents (h.smbSlot.getD 255)
      .ok (x.1.smbAudit 0x16 .ok false, .ok, leBytes 8 x.2))

/-- Records that hold SMB_ALERT_L low (R494). -/
def Head.severeNew (h : Head) : List Event :=
  (if h.rcd.vol then h.rcd.volRing else h.rcd.ring.map (fun e => e.2)).filter (fun e =>
    decide (2 ≤ e.sev) && decide (h.sys.smb.read < e.seq) && decide (h.rcd.floor ≤ e.seq))

/-- SMB_ALERT_L is held low (R494). -/
def Head.alert (h : Head) : Bool := h.runs 0 && !h.severeNew.isEmpty

/-- The 7-bit address of the port (R491). -/
def Head.smbAddress (h : Head) : Nat := 0x5A + h.side

/-- SMB_ALERT_RESPONSE (R494): a head that holds the line low answers with its address and releases the line. -/
def execSmbAlertResponse (s : State) : Host.Outcome State Fault Refusal :=
  s.run (fun h =>
    if !h.alert then h.emit .smbNak
    else
      let top := h.severeNew.foldl (fun m e => max m e.seq) 0
      (h.setSmb { h.sys.smb with read := top }).emit (.smb [BitVec.ofNat 8 (2 * h.smbAddress)]))

/-! ## Resets (R68, R161, R162, R491) -/

/-- What RESET answers (Table 3-5). -/
def Head.smbResetCheck (h : Head) (scope n : Nat) : Status :=
  if scope = 0 then (if h.pair.handoff.isSome then .busyActivation else .ok)
  else if scope = 1 then (if h.islandRefused n then .invalid else .ok)
  else if scope = 2 then (if 65535 < n || !h.serves h.side then .invalid else .ok)
  else .invalid

/-- The reset of a RESET command begins. -/
def Head.smbResetGo (h : Head) (scope n : Nat) : Head :=
  if scope = 2 then (h.updQueue h.side n (fun x => { x with rst := true, slots := [] })).sayQueue h.side n
  else h.startReset scope n .smbReset

/-- SMB_RESET. -/
def execSmbReset (pec : Bool) (scope n : Nat) (s : State) : Host.Outcome State Fault Refusal :=
  s.smbus pec (fun h => h.smbResetGo scope n) (fun h =>
    let st := if h.trimLocked || !h.smbInstaller then .tier else h.smbResetCheck scope n
    .ok (h.smbAudit 0x18 st false, st, []))

/-! ## Images (R493) -/

/-- IMAGE_WRITE and IMAGE_END are accepted. -/
def Head.mayImage (h : Head) : Bool := !h.trimLocked && (h.smbMaker || (h.smbSlot.isNone && h.noMaker))

/-- An image slot with bytes as written: not staged; its VERSION and the rest are what its header says. -/
def slotOf (b : List Byte) (staged : Bool) : FwSlot :=
  ⟨dword b 1 63 32, dword b 1 31 0, dword b 2 31 16, dword b 2 15 0, b, staged, false⟩

/-- SMB_IMAGE_WRITE. -/
def execSmbImageWrite (pec : Bool) (off : Nat) (bytes : List Byte) (s : State) : Host.Outcome State Fault Refusal :=
  s.smbus pec id (fun h =>
    if !h.mayImage then .ok (h.makerAudit 7 .tier, .tier, [])
    else if bytes.isEmpty || 240 < bytes.length || 33554432 < off + bytes.length then .ok (h.makerAudit 7 .invalid, .invalid, [])
    else
      let f := h.keys.fw
      let old := match f.slot f.other with | some x => x.bytes | none => []
      .ok ((h.setFw (f.setSlot f.other (some (slotOf (padOver old off bytes) false)))).makerAudit 7 .ok, .ok, []))

/-- The image passes R438: its form, its signature, its tag. -/
def Head.imagePasses (h : Head) (b : List Byte) : Bool := imageFormOk b b.length && h.imageSigned b && imageOpens b

/-- The checks of IMAGE_END on the bytes written, in their order; none where all pass. -/
def Head.imageCheck (h : Head) (b : List Byte) (len : Nat) : Option Status :=
  if !imageFormOk b len then some .invalid
  else if !h.imageSigned b then some .checkFail
  else if dword b 1 31 0 < h.keys.fw.floor then some .invalid
  else if !imageOpens b then some .checkFail
  else none

/-- SMB_IMAGE_END: a head reset of watchdog reach; the written slot becomes the slot in force. -/
def execSmbImageEnd (pec : Bool) (len : Nat) (s : State) : Host.Outcome State Fault Refusal :=
  s.smbus pec (fun h => h.pulseReset .watchdog) (fun h =>
    if !h.mayImage then .ok (h.makerAudit 8 .tier, .tier, [])
    else
      let f := h.keys.fw
      let i := f.other
      let b := fit 0 (min len 33554432) (match f.slot i with | some x => x.bytes | none => [])
      match h.imageCheck b len with
      | some st => .ok (h.makerAudit 8 st, st, [])
      | none =>
        let conf := !((f.slot (1 - i)).any (fun x => h.imagePasses x.bytes))
        let f := f.setSlot i (some (slotOf b true))
        .ok ((h.setFw { f with inForce := some i, conf := conf, hleft := 0, twoFmt := !conf }).makerAudit 8 .ok, .ok, []))

/-! ## The claim (R420) -/

/-- Checks of the record of a claim: it enrols slot 72; else as R419. -/
def Head.claimCheck (h : Head) (b : List Byte) : Option Status :=
  let op := dword b 0 63 56
  let slot := dword b 0 55 48
  if b.length ≠ 64 then some .invalid
  else if (op = 1 || op = 2) && decide (slot ≤ 73) && !(op = 1 && slot = 72) then some .tier
  else h.keyCheck .M b

/-- CLAIM. KEYINFO.BY of the slot reads 0xFF. -/
def execClaim (pec : Bool) (rcd : List Byte) (s : State) : Host.Outcome State Fault Refusal :=
  s.smbus pec id (fun h =>
    if h.trimLocked || !h.noMaker then .ok (h.makerAudit 9 .tier, .tier, [])
    else
      match h.claimCheck rcd with
      | some st => .ok (h, st, [])
      | none => .ok (h.applyKey rcd 255, .ok, []))

/-! ## Boundary scan (R495, R496) -/

/-- SMB_BSCAN_ENTER: a head reset of watchdog reach, after which every island but MI stays in reset. -/
def execSmbBscanEnter (pec : Bool) (s : State) : Host.Outcome State Fault Refusal :=
  s.smbus pec (fun h => let h := h.pulseReset .watchdog; h.setSmb { h.sys.smb with bscan := true }) (fun h =>
    if !h.smbMaker then .ok (h, .tier, []) else .ok (h.makerAudit 10 .ok, .ok, []))

/-- SMB_BSCAN_LEAVE: another head reset of watchdog reach. -/
def execSmbBscanLeave (pec : Bool) (s : State) : Host.Outcome State Fault Refusal :=
  s.smbus pec (fun h => h.pulseReset .watchdog) (fun h =>
    if !h.smbMaker then .ok (h, .tier, []) else .ok (Head.makerAudit h 10 .ok, .ok, []))

/-- The next state of the test access port's controller (IEEE 1149.1): 0 Test-Logic-Reset, 1 Run-Test/Idle, 2 Select-DR,
3 Capture-DR, 4 Shift-DR, 5 Exit1-DR, 6 Pause-DR, 7 Exit2-DR, 8 Update-DR, 9 Select-IR, 10 Capture-IR, 11 Shift-IR,
12 Exit1-IR, 13 Pause-IR, 14 Exit2-IR, 15 Update-IR. -/
def tapNext (s : Nat) (tms : Bool) : Nat :=
  let go := fun (hi lo : Nat) => if tms then hi else lo
  match s with
  | 0 => go 0 1
  | 1 => go 2 1
  | 2 => go 9 3
  | 3 => go 5 4
  | 4 => go 5 4
  | 5 => go 8 6
  | 6 => go 7 6
  | 7 => go 8 4
  | 8 => go 2 1
  | 9 => go 0 10
  | 10 => go 12 11
  | 11 => go 12 11
  | 12 => go 15 13
  | 13 => go 14 13
  | 14 => go 15 11
  | _ => go 2 1

/-- `n` free bits (cells of the chain as captured, and levels of a pin that is not driven). -/
def freeBits (f n : Nat) : List Bool := (upto n).map (fun k => (Config.freeWord (f + k)).getLsbD 0)

/-- What the selected data register captures: a 0 for the bypass register, the IDCODE, the pins. -/
def tapCapture (ir f : Nat) : List Bool :=
  if ir = 1 then (upto 32).map (fun k => (0x1641656B : Nat).testBit k)
  else if ir = 2 ∨ ir = 3 then freeBits f Config.chainLength
  else [false]

/-- One clock of the port with TMS and TDI: what TDO gives (none where it is not driven), and the port after it. -/
def Smb.clock (x : Smb) (f : Nat) (tms tdi : Bool) : Smb × Option Bool :=
  let y : Smb × Option Bool := match x.tapSt with
    | 3 => ({ x with tapDr := tapCapture x.tapIr f }, none)
    | 10 => ({ x with tapDr := [true, false] ++ freeBits f (Config.irLength - 2) }, none)
    | 4 => ({ x with tapDr := x.tapDr.drop 1 ++ [tdi] }, some (x.tapDr.headD false))
    | 11 => ({ x with tapDr := x.tapDr.drop 1 ++ [tdi] }, some (x.tapDr.headD false))
    | _ => (x, none)
  let n := tapNext x.tapSt tms
  let z : Smb := { y.1 with tapSt := n }
  let z : Smb := match n with
    | 0 => { z with tapIr := 1 }
    | 8 => { z with tapUpd := if z.tapIr = 2 ∨ z.tapIr = 3 then z.tapDr else z.tapUpd }
    | 15 => { z with tapIr := Config.irDecode z.tapDr }
    | _ => z
  (z, y.2)

/-- Clocks in order: the head, TDO of each. -/
def Head.tapClocks (h : Head) : List (Bool × Bool) → Head × List Bool
  | [] => (h, [])
  | b :: r =>
    let x := h.sys.smb.clock h.fresh b.1 b.2
    let used := 1 + Config.chainLength + Config.irLength
    let o := match x.2 with | some v => v | none => Config.freeBool h.fresh
    let y := Head.tapClocks ({ h with fresh := h.fresh + used }.setSmb x.1) r
    (y.1, o :: y.2)

/-- SMB_TAP. -/
def execSmbTap (pec : Bool) (n : Nat) (tms tdi : List Bool) (s : State) : Host.Outcome State Fault Refusal :=
  s.smbus pec id (fun h =>
    if !h.smbMaker then .ok (h, .tier, [])
    else if !h.sys.smb.bscan || n = 0 || 1000 < n || tms.length ≠ n || tdi.length ≠ n then .ok (h.makerAudit 11 .invalid, .invalid, [])
    else
      let x := h.tapClocks (List.zip tms tdi)
      .ok (x.1.makerAudit 11 .ok, .ok, packBits x.2))

end Sys2Proof.Machine
end

