-- ==== Sys2Proof/Machine/Dispatch.lean ====
section
/-! DEFINITION. The meaning of each command: one arm per constructor of Instr, each one direct call. -/

namespace Sys2Proof.Machine

/-- The effect of a command on everything but the queue of waiting commands. -/
def exec (i : Instr) (s : State) : Host.Outcome State Fault Refusal :=
  match i with
  | .aluReg t w => Sys2Proof.Machine.execAluReg t w s
  | .aluImm t w => Sys2Proof.Machine.execAluImm t w s
  | .li t w => Sys2Proof.Machine.execLi t w s
  | .lih t w => Sys2Proof.Machine.execLih t w s
  | .cmpReg t w => Sys2Proof.Machine.execCmpReg t w s
  | .cmpImm t w => Sys2Proof.Machine.execCmpImm t w s
  | .ld t w c => Sys2Proof.Machine.execLd t w c s
  | .st t w => Sys2Proof.Machine.execSt t w s
  | .amo t w => Sys2Proof.Machine.execAmo t w s
  | .fence t w => Sys2Proof.Machine.execFence t w s
  | .br t w => Sys2Proof.Machine.execBr t w s
  | .call t w => Sys2Proof.Machine.execCall t w s
  | .jr t w => Sys2Proof.Machine.execJr t w s
  | .endp t w => Sys2Proof.Machine.execEndp t w s
  | .waitv t w => Sys2Proof.Machine.execWaitv t w s
  | .trap t w => Sys2Proof.Machine.execTrap t w s
  | .nop t w => Sys2Proof.Machine.execNop t w s
  | .clrvs t w => Sys2Proof.Machine.execClrvs t w s
  | .qput t w => Sys2Proof.Machine.execQput t w s
  | .qget t w => Sys2Proof.Machine.execQget t w s
  | .qtry t w => Sys2Proof.Machine.execQtry t w s
  | .sig t w => Sys2Proof.Machine.execSig t w s
  | .waits t w => Sys2Proof.Machine.execWaits t w s
  | .eret t w => Sys2Proof.Machine.execEret t w s
  | .cinv t w => Sys2Proof.Machine.execCinv t w s
  | .cwb t w => Sys2Proof.Machine.execCwb t w s
  | .cwbi t w => Sys2Proof.Machine.execCwbi t w s
  | .iinv t w => Sys2Proof.Machine.execIinv t w s
  | .lockfill t w => Sys2Proof.Machine.execLockfill t w s
  | .idle t w => Sys2Proof.Machine.execIdle t w s
  | .halt t w => Sys2Proof.Machine.execHalt t w s
  | .dispatch t w => Sys2Proof.Machine.execDispatch t w s
  | .stateGet t w => Sys2Proof.Machine.execStateGet t w s
  | .stateSet t w => Sys2Proof.Machine.execStateSet t w s
  | .verbComplete t i0 => Sys2Proof.Machine.execVerbComplete t i0 s
  | .put t w => Sys2Proof.Machine.execPut t w s
  | .puta t w => Sys2Proof.Machine.execPuta t w s
  | .get t w => Sys2Proof.Machine.execGet t w s
  | .flush t w => Sys2Proof.Machine.execFlush t w s
  | .mark t w => Sys2Proof.Machine.execMark t w s
  | .drop t w => Sys2Proof.Machine.execDrop t w s
  | .sdrop t w => Sys2Proof.Machine.execSdrop t w s
  | .snap t w => Sys2Proof.Machine.execSnap t w s
  | .clone t w => Sys2Proof.Machine.execClone t w s
  | .replicateStart t w => Sys2Proof.Machine.execReplicateStart t w s
  | .replicateStop t w => Sys2Proof.Machine.execReplicateStop t w s
  | .replicateReport t w => Sys2Proof.Machine.execReplicateReport t w s
  | .windowOpen t w => Sys2Proof.Machine.execWindowOpen t w s
  | .windowRevoke t w => Sys2Proof.Machine.execWindowRevoke t w s
  | .arm t w => Sys2Proof.Machine.execArm t w s
  | .contractOpen t w => Sys2Proof.Machine.execContractOpen t w s
  | .contractClose t w => Sys2Proof.Machine.execContractClose t w s
  | .archive t w => Sys2Proof.Machine.execArchive t w s
  | .restore t w => Sys2Proof.Machine.execRestore t w s
  | .digest t w => Sys2Proof.Machine.execDigest t w s
  | .attest t w => Sys2Proof.Machine.execAttest t w s
  | .journalRead t w => Sys2Proof.Machine.execJournalRead t w s
  | .eventRead t w => Sys2Proof.Machine.execEventRead t w s
  | .eventClear t w => Sys2Proof.Machine.execEventClear t w s
  | .qreset t w => Sys2Proof.Machine.execQreset t w s
  | .resetHead t w => Sys2Proof.Machine.execResetHead t w s
  | .resetIsland t w => Sys2Proof.Machine.execResetIsland t w s
  | .resetQueue t w => Sys2Proof.Machine.execResetQueue t w s
  | .dozeEnter t w => Sys2Proof.Machine.execDozeEnter t w s
  | .dozeLeave t w => Sys2Proof.Machine.execDozeLeave t w s
  | .updateStage t w => Sys2Proof.Machine.execUpdateStage t w s
  | .updateActivate t w => Sys2Proof.Machine.execUpdateActivate t w s
  | .confirm t w => Sys2Proof.Machine.execConfirm t w s
  | .chunk t w => Sys2Proof.Machine.execChunk t w s
  | .fprint t w => Sys2Proof.Machine.execFprint t w s
  | .cmpr t w => Sys2Proof.Machine.execCmpr t w s
  | .dcmp t w => Sys2Proof.Machine.execDcmp t w s
  | .ecenc t w => Sys2Proof.Machine.execEcenc t w s
  | .ecdec t w => Sys2Proof.Machine.execEcdec t w s
  | .ldpcs t w => Sys2Proof.Machine.execLdpcs t w s
  | .dgst t w => Sys2Proof.Machine.execDgst t w s
  | .sign t w => Sys2Proof.Machine.execSign t w s
  | .verify t w => Sys2Proof.Machine.execVerify t w s
  | .nfop t w => Sys2Proof.Machine.execNfop t w s
  | .tfmt t w => Sys2Proof.Machine.execTfmt t w s
  | .xfer t w => Sys2Proof.Machine.execXfer t w s
  | .entryAccept side q => Sys2Proof.Machine.execEntryAccept side q s
  | .lastFlagWaitExpire vid => Sys2Proof.Machine.execLastFlagWaitExpire vid s
  | .qresetFence side q => Sys2Proof.Machine.execQresetFence side q s
  | .mgmtQueueIdle side q => Sys2Proof.Machine.execMgmtQueueIdle side q s
  | .cadenceEpoch => Sys2Proof.Machine.execCadenceEpoch s
  | .admtabLoad c v => Sys2Proof.Machine.execAdmtabLoad c v s
  | .cptWriteRx k key gen off pay => Sys2Proof.Machine.execCptWriteRx k key gen off pay s
  | .cptSubmitRx k queue slot entries => Sys2Proof.Machine.execCptSubmitRx k queue slot entries s
  | .cptCompleteRx k queue qnext recs => Sys2Proof.Machine.execCptCompleteRx k queue qnext recs s
  | .cptAckRx k cum tse adly ranges => Sys2Proof.Machine.execCptAckRx k cum tse adly ranges s
  | .cptConnectRx k scon isn maxpay tclass evsub => Sys2Proof.Machine.execCptConnectRx k scon isn maxpay tclass evsub s
  | .cptConnectReplyRx k scon isn tse maxpay refuse reason => Sys2Proof.Machine.execCptConnectReplyRx k scon isn tse maxpay refuse reason s
  | .cptCloseRx k reason => Sys2Proof.Machine.execCptCloseRx k reason s
  | .cptCloseUnknownRx r => Sys2Proof.Machine.execCptCloseUnknownRx r s
  | .cptEventRx k code detail arg => Sys2Proof.Machine.execCptEventRx k code detail arg s
  | .cptKeepaliveRx r => Sys2Proof.Machine.execCptKeepaliveRx r s
  | .sessionHello k slot nc => Sys2Proof.Machine.execSessionHello k slot nc s
  | .sessionProof k sg => Sys2Proof.Machine.execSessionProof k sg s
  | .arpNdRx dst v6 => Sys2Proof.Machine.execArpNdRx dst v6 s
  | .icmpEchoRx dst src arr => Sys2Proof.Machine.execIcmpEchoRx dst src arr s
  | .pauseRx link quanta => Sys2Proof.Machine.execPauseRx link quanta s
  | .cptAckTimer conn => Sys2Proof.Machine.execCptAckTimer conn s
  | .cptRtoExpire conn psn => Sys2Proof.Machine.execCptRtoExpire conn psn s
  | .connectRetry conn => Sys2Proof.Machine.execConnectRetry conn s
  | .keepaliveTimer conn => Sys2Proof.Machine.execKeepaliveTimer conn s
  | .connLostTimer conn => Sys2Proof.Machine.execConnLostTimer conn s
  | .drainTimeout conn => Sys2Proof.Machine.execDrainTimeout conn s
  | .sessionSetupTimeout conn => Sys2Proof.Machine.execSessionSetupTimeout conn s
  | .qnextTimer side q => Sys2Proof.Machine.execQnextTimer side q s
  | .windowLingerExpire side idx => Sys2Proof.Machine.execWindowLingerExpire side idx s
  | .pathResume conn path => Sys2Proof.Machine.execPathResume conn path s
  | .lastFlagPlace conn psn => Sys2Proof.Machine.execLastFlagPlace conn psn s
  | .strictPlace conn psn => Sys2Proof.Machine.execStrictPlace conn psn s
  | .genAdvance side idx => Sys2Proof.Machine.execGenAdvance side idx s
  | .revokeDrainDone side idx => Sys2Proof.Machine.execRevokeDrainDone side idx s
  | .hostPortDown link => Sys2Proof.Machine.execHostPortDown link s
  | .hostPortUp link => Sys2Proof.Machine.execHostPortUp link s
  | .hpcfgWrite c v => Sys2Proof.Machine.execHpcfgWrite c v s
  | .hpolWrite c v => Sys2Proof.Machine.execHpolWrite c v s
  | .destageExtent vol off len => Sys2Proof.Machine.execDestageExtent vol off len s
  | .coldLookupDone ext chunk => Sys2Proof.Machine.execColdLookupDone ext chunk s
  | .coldLookupTimeout ext chunk => Sys2Proof.Machine.execColdLookupTimeout ext chunk s
  | .coldWriteTimeout i0 => Sys2Proof.Machine.execColdWriteTimeout i0 s
  | .filterPageRead pool side page => Sys2Proof.Machine.execFilterPageRead pool side page s
  | .unitSwitch u => Sys2Proof.Machine.execUnitSwitch u s
  | .drgearLoad c v => Sys2Proof.Machine.execDrgearLoad c v s
  | .drhufLoad c v => Sys2Proof.Machine.execDrhufLoad c v s
  | .tandemWindow g addrs ports => Sys2Proof.Machine.execTandemWindow g addrs ports s
  | .nandReadDone band stripe pos res => Sys2Proof.Machine.execNandReadDone band stripe pos res s
  | .nandProgramDone die st => Sys2Proof.Machine.execNandProgramDone die st s
  | .nandEraseDone die block st => Sys2Proof.Machine.execNandEraseDone die block st s
  | .memberTimeout band stripe pos cw => Sys2Proof.Machine.execMemberTimeout band stripe pos cw s
  | .zqShortCal g => Sys2Proof.Machine.execZqShortCal g s
  | .scrubBandTimer band => Sys2Proof.Machine.execScrubBandTimer band s
  | .gcStart band => Sys2Proof.Machine.execGcStart band s
  | .gcErase side idx => Sys2Proof.Machine.execGcErase side idx s
  | .groupIdle g => Sys2Proof.Machine.execGroupIdle g s
  | .vccqNfFault => Sys2Proof.Machine.execVccqNfFault s
  | .poolCreate c v => Sys2Proof.Machine.execPoolCreate c v s
  | .poolDelete c v => Sys2Proof.Machine.execPoolDelete c v s
  | .volumeCreate c v => Sys2Proof.Machine.execVolumeCreate c v s
  | .volumeDelete c v => Sys2Proof.Machine.execVolumeDelete c v s
  | .nffamLoad c v => Sys2Proof.Machine.execNffamLoad c v s
  | .nfldpcLoad c v => Sys2Proof.Machine.execNfldpcLoad c v s
  | .fullFill band => Sys2Proof.Machine.execFullFill band s
  | .partialFill band => Sys2Proof.Machine.execPartialFill band s
  | .stageAgeExpire band => Sys2Proof.Machine.execStageAgeExpire band s
  | .bitmapClearTimer => Sys2Proof.Machine.execBitmapClearTimer s
  | .bandResync band => Sys2Proof.Machine.execBandResync band s
  | .rebuildBand band => Sys2Proof.Machine.execRebuildBand band s
  | .fenceInFall low => Sys2Proof.Machine.execFenceInFall low s
  | .fenceInRise => Sys2Proof.Machine.execFenceInRise s
  | .fencedResetTimer => Sys2Proof.Machine.execFencedResetTimer s
  | .heartbeatLoss => Sys2Proof.Machine.execHeartbeatLoss s
  | .fncctlForce c v => Sys2Proof.Machine.execFncctlForce c v s
  | .takeoverSettle => Sys2Proof.Machine.execTakeoverSettle s
  | .remirrorDone => Sys2Proof.Machine.execRemirrorDone s
  | .handoffGiveUp => Sys2Proof.Machine.execHandoffGiveUp s
  | .tapeResumeTimeout p => Sys2Proof.Machine.execTapeResumeTimeout p s
  | .activateRejoinTimeout => Sys2Proof.Machine.execActivateRejoinTimeout s
  | .plTrainDone txGood rxGood peerSide peerNewest peerAlone => Sys2Proof.Machine.execPlTrainDone txGood rxGood peerSide peerNewest peerAlone s
  | .plHeartbeatRx h newest st => Sys2Proof.Machine.execPlHeartbeatRx h newest st s
  | .plHeartbeatTx => Sys2Proof.Machine.execPlHeartbeatTx s
  | .plAckRx h mir bulk => Sys2Proof.Machine.execPlAckRx h mir bulk s
  | .plNakRx h chan seq => Sys2Proof.Machine.execPlNakRx h chan seq s
  | .plCreditRx h mir bulk => Sys2Proof.Machine.execPlCreditRx h mir bulk s
  | .plPfailRx h => Sys2Proof.Machine.execPlPfailRx h s
  | .plControlRx h step arg => Sys2Proof.Machine.execPlControlRx h step arg s
  | .plPlaceRx h o p off bytes => Sys2Proof.Machine.execPlPlaceRx h o p off bytes s
  | .plLpageRx h o p use key => Sys2Proof.Machine.execPlLpageRx h o p use key s
  | .plPrecRx h r => Sys2Proof.Machine.execPlPrecRx h r s
  | .plCopypageRx h o p off bytes => Sys2Proof.Machine.execPlCopypageRx h o p off bytes s
  | .plCopyrecRx h r => Sys2Proof.Machine.execPlCopyrecRx h r s
  | .plLaneBad out good => Sys2Proof.Machine.execPlLaneBad out good s
  | .plRetrainDone out good => Sys2Proof.Machine.execPlRetrainDone out good s
  | .pfailFall low => Sys2Proof.Machine.execPfailFall low s
  | .spillExchangeTimeout => Sys2Proof.Machine.execSpillExchangeTimeout s
  | .spillResetTimer => Sys2Proof.Machine.execSpillResetTimer s
  | .replicateCycle slot => Sys2Proof.Machine.execReplicateCycle slot s
  | .replicateRetry slot => Sys2Proof.Machine.execReplicateRetry slot s
  | .pwrOkFall low => Sys2Proof.Machine.execPwrOkFall low s
  | .pwrOkRise => Sys2Proof.Machine.execPwrOkRise s
  | .rstLFall low => Sys2Proof.Machine.execRstLFall low s
  | .rstLRise => Sys2Proof.Machine.execRstLRise s
  | .watchdogExpire => Sys2Proof.Machine.execWatchdogExpire s
  | .wdkick c v => Sys2Proof.Machine.execWdkick c v s
  | .islandReady i0 dies => Sys2Proof.Machine.execIslandReady i0 dies s
  | .trimLoadDone crcOk => Sys2Proof.Machine.execTrimLoadDone crcOk s
  | .bootImageReady src im => Sys2Proof.Machine.execBootImageReady src im s
  | .telltaleEnable => Sys2Proof.Machine.execTelltaleEnable s
  | .pairwaitExpire => Sys2Proof.Machine.execPairwaitExpire s
  | .thermalSample tj hbm => Sys2Proof.Machine.execThermalSample tj hbm s
  | .thermalTrip => Sys2Proof.Machine.execThermalTrip s
  | .clockLoss refs => Sys2Proof.Machine.execClockLoss refs s
  | .cvrAlert acks stat => Sys2Proof.Machine.execCvrAlert acks stat s
  | .cvrVidStep vid below acks iout => Sys2Proof.Machine.execCvrVidStep vid below acks iout s
  | .isrstQuiesce c v => Sys2Proof.Machine.execIsrstQuiesce c v s
  | .isrstReset c v => Sys2Proof.Machine.execIsrstReset c v s
  | .isrstQuiesceReset c v => Sys2Proof.Machine.execIsrstQuiesceReset c v s
  | .quiesceDone i0 => Sys2Proof.Machine.execQuiesceDone i0 s
  | .quiesceTimeout i0 => Sys2Proof.Machine.execQuiesceTimeout i0 s
  | .tlSampleRx p f => Sys2Proof.Machine.execTlSampleRx p f s
  | .tlStatusRx p seq chkOk st => Sys2Proof.Machine.execTlStatusRx p seq chkOk st s
  | .tlRegrspRx p seq chkOk v => Sys2Proof.Machine.execTlRegrspRx p seq chkOk v s
  | .tlCtrlTimer p => Sys2Proof.Machine.execTlCtrlTimer p s
  | .servoPesUpdate p => Sys2Proof.Machine.execServoPesUpdate p s
  | .tlLinkLoss p => Sys2Proof.Machine.execTlLinkLoss p s
  | .tlLaneBad p rx tx => Sys2Proof.Machine.execTlLaneBad p rx tx s
  | .tlRetryWait p => Sys2Proof.Machine.execTlRetryWait p s
  | .tlTrainDone p rx tx => Sys2Proof.Machine.execTlTrainDone p rx tx s
  | .tlAlignDone p => Sys2Proof.Machine.execTlAlignDone p s
  | .tlStateTimeout p => Sys2Proof.Machine.execTlStateTimeout p s
  | .tlcfgEnWrite c p v => Sys2Proof.Machine.execTlcfgEnWrite c p v s
  | .tlregWrite c p v => Sys2Proof.Machine.execTlregWrite c p v s
  | .tpladLoad c v => Sys2Proof.Machine.execTpladLoad c v s
  | .tpeqLoad c v => Sys2Proof.Machine.execTpeqLoad c v s
  | .tplnkLoad c v => Sys2Proof.Machine.execTplnkLoad c v s
  | .shockInput p low => Sys2Proof.Machine.execShockInput p low s
  | .datasetStart p => Sys2Proof.Machine.execDatasetStart p s
  | .backhitchDone p => Sys2Proof.Machine.execBackhitchDone p s
  | .tapePortIdle p => Sys2Proof.Machine.execTapePortIdle p s
  | .writebackAck level n line => Sys2Proof.Machine.execWritebackAck level n line s
  | .wtBufferDrain e => Sys2Proof.Machine.execWtBufferDrain e s
  | .patrolScrub mem addr res => Sys2Proof.Machine.execPatrolScrub mem addr res s
  | .pstoreUncorrectable why mirrored => Sys2Proof.Machine.execPstoreUncorrectable why mirrored s
  | .vddPsLow => Sys2Proof.Machine.execVddPsLow s
  | .engcfgInvi c e v => Sys2Proof.Machine.execEngcfgInvi c e v s
  | .engcfgInvd c e v => Sys2Proof.Machine.execEngcfgInvd c e v s
  | .l2cfgInv c k v => Sys2Proof.Machine.execL2cfgInv c k v s
  | .l2cfgLockDisWrite c k v => Sys2Proof.Machine.execL2cfgLockDisWrite c k v s
  | .ecctRawWrite c v => Sys2Proof.Machine.execEcctRawWrite c v s
  | .ecctRawRead c v => Sys2Proof.Machine.execEcctRawRead c v s
  | .keyEnrol c v => Sys2Proof.Machine.execKeyEnrol c v s
  | .keyRemove c v => Sys2Proof.Machine.execKeyRemove c v s
  | .claim pec rcd => Sys2Proof.Machine.execClaim pec rcd s
  | .keyimpPoolKey c v => Sys2Proof.Machine.execKeyimpPoolKey c v s
  | .keyimpHmacKey c v => Sys2Proof.Machine.execKeyimpHmacKey c v s
  | .keyimpErase c v => Sys2Proof.Machine.execKeyimpErase c v s
  | .mkaccWrite c v => Sys2Proof.Machine.execMkaccWrite c v s
  | .dgctxHashInit c i0 v => Sys2Proof.Machine.execDgctxHashInit c i0 v s
  | .dgctxHmacInner c i0 v => Sys2Proof.Machine.execDgctxHmacInner c i0 v s
  | .dgctxHmacOuter c i0 v => Sys2Proof.Machine.execDgctxHmacOuter c i0 v s
  | .hwinExpire => Sys2Proof.Machine.execHwinExpire s
  | .evtimeWrite c v => Sys2Proof.Machine.execEvtimeWrite c v s
  | .smbSession pec step pay => Sys2Proof.Machine.execSmbSession pec step pay s
  | .smbStateGet pec addr => Sys2Proof.Machine.execSmbStateGet pec addr s
  | .smbStateSet pec addr v => Sys2Proof.Machine.execSmbStateSet pec addr v s
  | .smbEventPart pec seq part => Sys2Proof.Machine.execSmbEventPart pec seq part s
  | .smbEventClear pec => Sys2Proof.Machine.execSmbEventClear pec s
  | .smbReset pec scope n => Sys2Proof.Machine.execSmbReset pec scope n s
  | .smbImageWrite pec off bytes => Sys2Proof.Machine.execSmbImageWrite pec off bytes s
  | .smbImageEnd pec len => Sys2Proof.Machine.execSmbImageEnd pec len s
  | .smbBscanEnter pec => Sys2Proof.Machine.execSmbBscanEnter pec s
  | .smbBscanLeave pec => Sys2Proof.Machine.execSmbBscanLeave pec s
  | .smbTap pec n tms tdi => Sys2Proof.Machine.execSmbTap pec n tms tdi s
  | .smbAlertResponse => Sys2Proof.Machine.execSmbAlertResponse s
  | .smbSessionTimeout => Sys2Proof.Machine.execSmbSessionTimeout s
  | .telltaleBeat => Sys2Proof.Machine.execTelltaleBeat s
  | .sessionChallengeRx k nh idkey sg => Sys2Proof.Machine.execSessionChallengeRx k nh idkey sg s
  | .sessionResultRx k status tier => Sys2Proof.Machine.execSessionResultRx k status tier s
  | .dieBusyTimeout die => Sys2Proof.Machine.execDieBusyTimeout die s
  | .programTimeout die => Sys2Proof.Machine.execProgramTimeout die s
  | .vccqNfRecover => Sys2Proof.Machine.execVccqNfRecover s
  | .thermalTripRelease => Sys2Proof.Machine.execThermalTripRelease s

end Sys2Proof.Machine
end

