-- ==== Sys2Proof/Safety.lean ====
section
/-! DEFINITION. What counts as a sound state of the block, and the conditions and outcomes in which claims are stated: the
canonical form of its memories, the queue of waiting commands, when an instruction or a verb takes effect. -/

namespace Sys2Proof.Machine

/-- HBM and scratch are in canonical form. -/
def State.memOk (s : State) : Bool := Memory.wf s.head.core.hbm && Memory.wf s.head.core.scr

/-- Every command that waits has operands in the ranges that their places have. -/
def State.queueOk (s : State) : Bool := s.pending.all (fun i => i.wf)

/-- The commands that can stop in a fault: the writes that enable a cache, and the two general ways to write a register. -/
def mayFault : Instr → Bool
  | .engcfgInvi _ _ _ | .engcfgInvd _ _ _ | .l2cfgInv _ _ _ | .l2cfgLockDisWrite _ _ _
  | .stateSet _ _ | .smbStateSet _ _ _ => true
  | _ => false

/-- A step that stops nowhere: it answers a next state. -/
def State.runs (s : State) : Prop := ∃ t, step s = .next t

/-- The state with its head replaced: the queue of waiting commands stays. -/
def State.become (s : State) (h : Head) : State := { s with head := h }

/-- An instruction takes effect (R28, R29, R34, R38, R44, R47): its thread can issue, the word came without poison, its
encoding is legal, the tier allows it, the budget is not spent, its predicate selects it, no register it names is awaited. -/
def Head.takesEffect (h : Head) (t : Nat) (c : Common) (legal : Bool) (low : Tier) (uses : List Nat) : Bool :=
  let x := h.thread t
  h.canIssue t && !c.pois && (!c.stray && legal) && low.le x.tier && !(x.buf && decide (65536 ≤ x.icount)) && x.takes c.pn c.ps &&
    !(x.pending uses)

/-- A thread has a place for one more outstanding verb (R45), and the verb log of its command for its entry (log entry 89). -/
def Head.roomFor (h : Head) (x : Thread) : Bool := !(decide (8 ≤ x.outs) || h.logWaits x.cmd x.outs)

/-- A verb just issued does what its code says (R43, R62, R98, R164): its command's log holds no answer for it, no first run of it goes on,
the tier and the contract allow it, and it names a number of operands that Table 3-5 gives. -/
def Head.begins (h : Head) (v : HVerb) (tier : Tier) (counts : List Nat) : Bool :=
  (h.fromLog v).isNone && (h.resumeVerb v).isNone && !(h.tierFails v tier) && !(h.forbidden v) && counts.contains v.ops.length

/-- Only thread `t` differs between two heads. -/
def Head.onlyThread (h k : Head) (t : Nat) : Prop :=
  k = { h with core := { h.core with threads := k.core.threads } } ∧ ∀ n, n ≠ t → k.thread n = h.thread n

/-- An instruction of thread `t` completes with its thread changed by `f` and PC at `pc`, one more instruction counted; of
everything else, the waiting commands among it, only the L1 I of the engine may have changed, as the fetch leaves it. -/
def State.movesOn (s : State) (i : Instr) (t : Nat) (pc : Word) (f : Thread → Thread) : Prop :=
  ∃ u, exec i s = .next u ∧ u.pending = s.pending ∧
    u.head.thread t = { f (s.head.thread t) with pc := pc, icount := ((s.head.thread t).icount + 1) % 2 ^ 64 } ∧
    (s.head.fetched t).onlyThread u.head t

/-- As `movesOn`, to the next word. -/
def State.computes (s : State) (i : Instr) (t : Nat) (f : Thread → Thread) : Prop :=
  s.movesOn i t ((s.head.thread t).pc + 8) f

/-- An instruction takes effect and leaves its thread inside its program (R37): PC goes to `pc`. -/
def Head.goesOn (h : Head) (t : Nat) (c : Common) (legal : Bool) (low : Tier) (uses : List Nat) (pc : Word) : Bool :=
  h.takesEffect t c legal low uses && !((h.thread t).outside pc)

/-- An instruction takes effect and has a word after it. -/
def Head.steps (h : Head) (t : Nat) (c : Common) (legal : Bool) (low : Tier) (uses : List Nat) : Bool :=
  h.goesOn t c legal low uses ((h.thread t).pc + 8)

/-- The state after an instruction that took effect: PC, count, trap and the end of a bounded program follow its effect `i`. -/
def State.issued (s : State) (t : Nat) (c : Common) (i : Iss) : State :=
  s.become ((s.head.fetched t).finish t c (s.head.thread t) i)

/-- A host verb word of thread `t` takes effect and has a place among the outstanding verbs (R42 to R45). -/
def Head.verbIssues (h : Head) (t mask : Nat) (w : VWord) : Bool :=
  h.takesEffect t w.common (verbLegal mask w) .O (verbUses w) && (h.fetched t).roomFor (h.thread t)

/-- A host verb of thread `t` issues and passes the checks that every verb meets (R42 to R45, R62, R98): it does what its code
says. -/
def Head.verbStarts (h : Head) (t vc mask : Nat) (counts : List Nat) (w : VWord) : Bool :=
  let y := (h.fetched t).verbIssued (h.thread t) t vc w
  h.verbIssues t mask w && y.1.begins y.2 (h.thread t).tier counts

/-- A unit verb of thread `t` issues (R43, R45): it does what its code says. -/
def Head.unitStarts (h : Head) (t vc mask : Nat) (counts : List Nat) (w : VWord) : Bool :=
  let y := (h.fetched t).verbIssued (h.thread t) t vc w
  h.takesEffect t w.common (verbLegal mask w) .F (verbUses w) && (h.fetched t).roomFor (h.thread t) && counts.contains y.2.ops.length

/-- The head that holds a verb just issued, and the verb. -/
def State.verbHead (s : State) (t vc : Nat) (w : VWord) : Head := ((s.head.fetched t).verbIssued (s.head.thread t) t vc w).1
def State.verbNew (s : State) (t vc : Nat) (w : VWord) : HVerb := ((s.head.fetched t).verbIssued (s.head.thread t) t vc w).2

/-- The state after a verb that starts: its code's action falls on the head that holds it, the thread moves on or waits for it, and
what can move on does. -/
def State.verbRuns (s : State) (t vc : Nat) (w : VWord) (run : Head → HVerb → Head) : State :=
  s.issued t w.common (.act (run (s.verbHead t vc w) (s.verbNew t vc w)))

/-- A reference names a destination that takes `n` bytes now (R56, R144): a window of its generation with room for them; where it is outbound its
connection is open. -/
def Head.reaches (h : Head) (side : Nat) (replay : Bool) (r : Word) (n : Nat) : Bool :=
  match h.ref side replay r with
  | .error _ => false
  | .ok w => decide (refOff r + n ≤ w.size) && (!w.out || (match h.conn w.conn with | some c => c.state = .opened | none => false))

/-- A received packet passes the checks that every packet meets, up to the connection it is for (R115). -/
def Head.hears (h : Head) (k : Pkt) (c : Conn) : Prop :=
  h.listens = true ∧ (h.seen k.arr).frameFails k.frame = none ∧ (h.seen k.arr).connOf k = some c

/-- The head that has heard a packet on a connection. -/
def Head.heard (h : Head) (k : Pkt) (c : Conn) : Head :=
  ((h.seen k.arr).updConn c.num (fun c => { c with lastRx := (h.seen k.arr).now })).noteUse c.num

/-- A connection's number of a packet is new: within the span, and not received yet (R123). -/
def Conn.isNew (c : Conn) (k : Pkt) : Bool := decide (c.ahead k.psn < 65536) && !c.recv.contains k.psn

/-- The head with a new reliable packet marked as received (R123, R124). -/
def Head.marked (h : Head) (k : Pkt) (c : Conn) : Head :=
  let x := advanceCum (c.recv.length + 2) c.cum (k.psn :: c.recv)
  (h.noteRx k c.num).updConn c.num (fun c =>
    { c with cum := x.1, recv := x.2, ackCnt := c.ackCnt + 1, ackAt := if c.ackCnt = 0 then h.now else c.ackAt })

/-- After a reliable packet an ACK goes out at once where it is asked for, or where CPTCFG.ACKN packets wait for one (R124). -/
def Head.acksAfter (h : Head) (k : Pkt) (n : Nat) (now_ : Bool) : Head :=
  match h.conn n with
  | none => h
  | some c => if now_ || k.acknow || decide (h.cfg .CPTCFG 0 47 40 ≤ c.ackCnt) then h.sendAck c.num else h

/-- A register write that passes the checks of R40. -/
def Head.accepts (h : Head) (c : Caller) (d : RegDef) (i : Nat) (v : Word) : Bool := (h.writeCheck c d i v).isNone

/-- The state after a register write that answered `st` with head `h`: the access is recorded, the answer given or owed (R501), and commands move
on. -/
def State.wrote (s : State) (h : Head) (c : Caller) (d : RegDef) (i : Nat) (st : Status) : State :=
  s.become ((s.head.answered (h.auditReg c d i st false) st).settle)

end Sys2Proof.Machine
end

