-- ==== Sys2Proof/Laws/Memory.lean ====
section
/-! SUPPORT. Sparse tables and memory: what a read after a write gives, that a write leaves every other place alone, and that every
memory operation keeps the canonical form. -/

namespace Sys2Proof.Machine

variable {α : Type} [DecidableEq α]

/-! ## Sparse tables -/

/-- A table above a bound is above every lower bound. -/
theorem canonAbove_mono (d : α) {b c : Nat} (hb : b ≤ c) : ∀ m : Sparse α, canonAbove d c m = true → canonAbove d b m = true
  | [], _ => rfl
  | (k, v) :: r, h => by
    simp only [canonAbove, Bool.and_eq_true, decide_eq_true_eq] at h ⊢
    exact ⟨⟨by omega, h.1.2⟩, h.2⟩

/-- A table whose keys lie above a bound is in canonical form. -/
theorem canon_of_above (d : α) (b : Nat) : ∀ m : Sparse α, canonAbove d b m = true → canon d m = true
  | [], _ => rfl
  | (k, v) :: r, h => by
    simp only [canonAbove, canon, Bool.and_eq_true] at h ⊢
    exact ⟨h.1.2, h.2⟩

/-- A replaced entry keeps a table above its bound. -/
theorem canonAbove_place (d : α) : ∀ (m : Sparse α) (b k : Nat) (v : α),
    canonAbove d b m = true → b < k → canonAbove d b (place d m k v) = true
  | [], b, k, v, _, hk => by
    by_cases hv : v = d <;> simp [place, canonAbove, hv, hk]
  | (k', v') :: r, b, k, v, h, hk => by
    simp only [canonAbove, Bool.and_eq_true, decide_eq_true_eq] at h
    obtain ⟨⟨h1, h2⟩, h3⟩ := h
    unfold place
    split
    · split
      · simp [canonAbove, h1, h2, h3]
      · rename_i hlt hv
        simp [canonAbove, hk, hv, hlt, h2, h3]
    · split
      · split
        · rename_i hkk hv; subst hkk
          exact canonAbove_mono d (by omega) r h3
        · rename_i hkk hv; subst hkk
          simp [canonAbove, hk, hv, h3]
      · have := canonAbove_place d r k' k v h3 (by omega)
        simp [canonAbove, h1, h2, this]

/-- A replaced entry keeps the canonical form. -/
theorem canon_place (d : α) (m : Sparse α) (k : Nat) (v : α) (h : canon d m = true) : canon d (place d m k v) = true := by
  cases m with
  | nil => by_cases hv : v = d <;> simp [place, canon, canonAbove, hv]
  | cons e r =>
    obtain ⟨k', v'⟩ := e
    simp only [canon, Bool.and_eq_true] at h
    unfold place
    split
    · split
      · simp [canon, h]
      · rename_i hlt hv
        simp [canon, canonAbove, hv, hlt, h.1, h.2]
    · split
      · split
        · exact canon_of_above d k' r h.2
        · rename_i hkk hv; subst hkk
          simp [canon, hv, h.2]
      · have := canonAbove_place d r k' k v h.2 (by omega)
        simp only [canon, Bool.and_eq_true]
        exact ⟨h.1, this⟩

/-- No key at or below the bound is listed. -/
theorem look_above (d : α) : ∀ (m : Sparse α) (b k : Nat), canonAbove d b m = true → k ≤ b → look d m k = d
  | [], _, _, _, _ => rfl
  | (k', v') :: r, b, k, h, hk => by
    simp only [canonAbove, Bool.and_eq_true, decide_eq_true_eq] at h
    have : k' ≠ k := by omega
    simp only [look, this, if_false]
    exact look_above d r k' k h.2 (by omega)

/-- Reading the entry that was replaced gives the new one. -/
theorem look_place_same (d : α) : ∀ (m : Sparse α) (k : Nat) (v : α), canon d m = true → look d (place d m k v) k = v
  | [], k, v, _ => by by_cases hv : v = d <;> simp [place, look, hv]
  | (k', v') :: r, k, v, h => by
    simp only [canon, Bool.and_eq_true] at h
    unfold place
    split
    · rename_i hlt
      split
      · rename_i hv
        have : k' ≠ k := by omega
        simp only [look, this, if_false, hv]
        exact look_above d r k' k h.2 (by omega)
      · simp [look]
    · split
      · split
        · rename_i hkk hv; subst hkk
          rw [hv]; exact look_above d r k k h.2 (Nat.le_refl _)
        · simp [look]
      · rename_i h1 h2
        have : k' ≠ k := by omega
        simp only [look, this, if_false]
        exact look_place_same d r k v (canon_of_above d k' r h.2)

/-- Reading any other entry gives what it gave before. -/
theorem look_place_other (d : α) : ∀ (m : Sparse α) (k j : Nat) (v : α), j ≠ k → look d (place d m k v) j = look d m j
  | [], k, j, v, hj => by
    by_cases hv : v = d <;> simp [place, look, hv]
    intro h; omega
  | (k', v') :: r, k, j, v, hj => by
    have ih := look_place_other d r k j v hj
    have hk : k ≠ j := fun h => hj h.symm
    unfold place
    split
    · split
      · rfl
      · simp [look, hk]
    · split
      · rename_i hkk; subst hkk
        split <;> simp [look, hk]
      · simp [look, ih]

/-- Reading an entry other than the default that was just replaced gives it, whatever the table. -/
theorem look_place_new (d : α) : ∀ (m : Sparse α) (k : Nat) (v : α), v ≠ d →
    look d (place d m k v) k = v
  | [], k, v, hv => by simp [place, look, hv]
  | (k', v') :: r, k, v, hv => by
    unfold place
    split
    · simp only [look, if_true]
    · split
      · simp only [look, if_true]
      · rename_i h1 h2
        have : k' ≠ k := fun h => h2 h.symm
        simp only [look, this, if_false]
        exact look_place_new d r k v hv

/-! ## Memory -/

@[simp] theorem wf_nil : Memory.wf [] = true := rfl

/-- A written byte keeps a memory's canonical form. -/
theorem wf_writeByte (m : List Host.Cell) (a : Nat) (b : Byte) (h : Memory.wf m = true) : Memory.wf (writeByte m a b) = true :=
  canon_place _ m a b h

/-- Written bytes keep a memory's canonical form. -/
theorem wf_writeBytes : ∀ (l : List Byte) (m : List Host.Cell) (a : Nat), Memory.wf m = true → Memory.wf (writeBytes m a l) = true
  | [], _, _, h => h
  | b :: r, m, a, h => wf_writeBytes r (writeByte m a b) (a + 1) (wf_writeByte m a b h)

/-- Reading the byte that was written gives it. -/
theorem read_write_same (m : List Host.Cell) (a : Nat) (b : Byte) (h : Memory.wf m = true) : readByte (writeByte m a b) a = b :=
  look_place_same _ m a b h

/-- A written byte leaves every other byte. -/
theorem read_write_other (m : List Host.Cell) (a c : Nat) (b : Byte) (h : c ≠ a) : readByte (writeByte m a b) c = readByte m c :=
  look_place_other _ m a c b h

/-- Written bytes leave every byte outside them. -/
theorem read_writeBytes_other : ∀ (l : List Byte) (m : List Host.Cell) (a c : Nat), (c < a ∨ a + l.length ≤ c) →
    readByte (writeBytes m a l) c = readByte m c
  | [], _, _, _, _ => rfl
  | b :: r, m, a, c, h => by
    simp only [writeBytes, List.length_cons] at h ⊢
    rw [read_writeBytes_other r (writeByte m a b) (a + 1) c (by omega), read_write_other m a c b (by omega)]

/-- Reading the bytes that were written gives them. -/
theorem readBytes_writeBytes : ∀ (l : List Byte) (m : List Host.Cell) (a : Nat), Memory.wf m = true →
    readBytes (writeBytes m a l) a l.length = l
  | [], _, _, _ => rfl
  | b :: r, m, a, h => by
    simp only [writeBytes, List.length_cons, readBytes]
    rw [readBytes_writeBytes r (writeByte m a b) (a + 1) (wf_writeByte m a b h),
      read_writeBytes_other r (writeByte m a b) (a + 1) a (by omega), read_write_same m a b h]

/-- A head's memories are in canonical form. -/
def Head.memOk (h : Head) : Prop := Memory.wf h.core.hbm = true ∧ Memory.wf h.core.scr = true

/-- A step of a fold that keeps a property keeps it over the fold. -/
theorem foldl_keeps {β γ : Type} (P : β → Prop) (f : β → γ → β) (hf : ∀ b c, P b → P (f b c)) :
    ∀ (l : List γ) (b : β), P b → P (l.foldl f b)
  | [], _, h => h
  | c :: r, b, h => foldl_keeps P f hf r (f b c) (hf b c h)

/-- A word written through the checkers keeps them so. -/
theorem memOk_putWord (h : Head) (m w : Nat) (d : Word) (p : Bool) (hk : h.memOk) : (h.putWord m w d p).memOk := by
  by_cases hm : m = 1
  · subst hm
    exact ⟨hk.1, wf_writeBytes (leBytes 8 d.toNat) h.core.scr (8 * w) hk.2⟩
  · have : h.putWord m w d p = h.setCore { h.core with
        hbm := writeBytes h.core.hbm (8 * w) (leBytes 8 d.toNat), hbmP := place false h.core.hbmP w p
        chk := place 0 h.core.chk (chkKey m w) 0 } := by simp [Head.putWord, hm]
    rw [this]
    exact ⟨wf_writeBytes (leBytes 8 d.toNat) h.core.hbm (8 * w) hk.1, hk.2⟩

/-- A line written back to HBM keeps them so. -/
theorem memOk_putHbm (h : Head) (n : Nat) (l : Ln) (hk : h.memOk) : (h.putHbm n l).memOk := by
  unfold Head.putHbm
  exact foldl_keeps Head.memOk _ (fun h i hk => memOk_putWord h 4 (8 * n + i) (l.word i) (l.pois.getLsbD i) hk) _ h hk

/-- Bytes stored in scratch keep them so. -/
theorem memOk_storeScr (h : Head) (a : Nat) (b : List Byte) (hk : h.memOk) : (h.storeScr a b).memOk := by
  unfold Head.storeScr
  exact memOk_putWord h 1 (a / 8) _ _ hk

/-- Gather slots switched off in HBM keep it so. -/
theorem wf_slotsOff (h : Head) (hk : Memory.wf h.core.hbm = true) : Memory.wf h.slotsOff = true :=
  foldl_keeps (fun m => Memory.wf m = true) _ (fun _ _ hm => wf_writeByte _ _ _ hm) _ _ hk

/-- A head reset keeps them so. -/
theorem memOk_wipe (h : Head) (power : Bool) (hk : h.memOk) : (h.wipe power).memOk := by
  cases power
  · exact ⟨wf_slotsOff h hk.1, rfl⟩
  · exact ⟨rfl, rfl⟩

end Sys2Proof.Machine
end

