-- ==== Sys2Proof/Laws/State.lean ====
section
/-! SUPPORT. What each update of the state leaves as it was: one lemma per field and update, true by unfolding. -/

namespace Sys2Proof.Machine

/-! ## The state -/

@[simp] theorem become_pending (s : State) (h : Head) : (s.become h).pending = s.pending := rfl
@[simp] theorem become_head (s : State) (h : Head) : (s.become h).head = h := rfl
@[simp] theorem become_become (s : State) (h k : Head) : (s.become h).become k = s.become k := rfl
@[simp] theorem become_self (s : State) : s.become s.head = s := rfl
@[simp] theorem run_eq (s : State) (f : Head → Head) : s.run f = .next (s.become (f s.head)) := rfl

/-! ## Parts of the head -/

/-! ### setCore -/

@[simp] theorem setCore_core (h : Head) (x : Core) : (h.setCore x).core = x := rfl
@[simp] theorem setCore_regs (h : Head) (x : Core) : (h.setCore x).regs = h.regs := rfl
@[simp] theorem setCore_rcd (h : Head) (x : Core) : (h.setCore x).rcd = h.rcd := rfl
@[simp] theorem setCore_work (h : Head) (x : Core) : (h.setCore x).work = h.work := rfl
@[simp] theorem setCore_net (h : Head) (x : Core) : (h.setCore x).net = h.net := rfl
@[simp] theorem setCore_vols (h : Head) (x : Core) : (h.setCore x).vols = h.vols := rfl
@[simp] theorem setCore_pair (h : Head) (x : Core) : (h.setCore x).pair = h.pair := rfl
@[simp] theorem setCore_red (h : Head) (x : Core) : (h.setCore x).red = h.red := rfl
@[simp] theorem setCore_fl (h : Head) (x : Core) : (h.setCore x).fl = h.fl := rfl
@[simp] theorem setCore_tape (h : Head) (x : Core) : (h.setCore x).tape = h.tape := rfl
@[simp] theorem setCore_keys (h : Head) (x : Core) : (h.setCore x).keys = h.keys := rfl
@[simp] theorem setCore_sys (h : Head) (x : Core) : (h.setCore x).sys = h.sys := rfl
@[simp] theorem setCore_now (h : Head) (x : Core) : (h.setCore x).now = h.now := rfl
@[simp] theorem setCore_tset (h : Head) (x : Core) : (h.setCore x).tset = h.tset := rfl
@[simp] theorem setCore_reply (h : Head) (x : Core) : (h.setCore x).reply = h.reply := rfl
@[simp] theorem setCore_out (h : Head) (x : Core) : (h.setCore x).out = h.out := rfl
@[simp] theorem setCore_fresh (h : Head) (x : Core) : (h.setCore x).fresh = h.fresh := rfl

/-! ### setRcd -/

@[simp] theorem setRcd_rcd (h : Head) (x : Recorder) : (h.setRcd x).rcd = x := rfl
@[simp] theorem setRcd_core (h : Head) (x : Recorder) : (h.setRcd x).core = h.core := rfl
@[simp] theorem setRcd_regs (h : Head) (x : Recorder) : (h.setRcd x).regs = h.regs := rfl
@[simp] theorem setRcd_work (h : Head) (x : Recorder) : (h.setRcd x).work = h.work := rfl
@[simp] theorem setRcd_net (h : Head) (x : Recorder) : (h.setRcd x).net = h.net := rfl
@[simp] theorem setRcd_vols (h : Head) (x : Recorder) : (h.setRcd x).vols = h.vols := rfl
@[simp] theorem setRcd_pair (h : Head) (x : Recorder) : (h.setRcd x).pair = h.pair := rfl
@[simp] theorem setRcd_red (h : Head) (x : Recorder) : (h.setRcd x).red = h.red := rfl
@[simp] theorem setRcd_fl (h : Head) (x : Recorder) : (h.setRcd x).fl = h.fl := rfl
@[simp] theorem setRcd_tape (h : Head) (x : Recorder) : (h.setRcd x).tape = h.tape := rfl
@[simp] theorem setRcd_keys (h : Head) (x : Recorder) : (h.setRcd x).keys = h.keys := rfl
@[simp] theorem setRcd_sys (h : Head) (x : Recorder) : (h.setRcd x).sys = h.sys := rfl
@[simp] theorem setRcd_now (h : Head) (x : Recorder) : (h.setRcd x).now = h.now := rfl
@[simp] theorem setRcd_tset (h : Head) (x : Recorder) : (h.setRcd x).tset = h.tset := rfl
@[simp] theorem setRcd_reply (h : Head) (x : Recorder) : (h.setRcd x).reply = h.reply := rfl
@[simp] theorem setRcd_out (h : Head) (x : Recorder) : (h.setRcd x).out = h.out := rfl
@[simp] theorem setRcd_fresh (h : Head) (x : Recorder) : (h.setRcd x).fresh = h.fresh := rfl

/-! ### setRed -/

@[simp] theorem setRed_red (h : Head) (x : Reduce) : (h.setRed x).red = x := rfl
@[simp] theorem setRed_core (h : Head) (x : Reduce) : (h.setRed x).core = h.core := rfl
@[simp] theorem setRed_regs (h : Head) (x : Reduce) : (h.setRed x).regs = h.regs := rfl
@[simp] theorem setRed_rcd (h : Head) (x : Reduce) : (h.setRed x).rcd = h.rcd := rfl
@[simp] theorem setRed_work (h : Head) (x : Reduce) : (h.setRed x).work = h.work := rfl
@[simp] theorem setRed_net (h : Head) (x : Reduce) : (h.setRed x).net = h.net := rfl
@[simp] theorem setRed_vols (h : Head) (x : Reduce) : (h.setRed x).vols = h.vols := rfl
@[simp] theorem setRed_pair (h : Head) (x : Reduce) : (h.setRed x).pair = h.pair := rfl
@[simp] theorem setRed_fl (h : Head) (x : Reduce) : (h.setRed x).fl = h.fl := rfl
@[simp] theorem setRed_tape (h : Head) (x : Reduce) : (h.setRed x).tape = h.tape := rfl
@[simp] theorem setRed_keys (h : Head) (x : Reduce) : (h.setRed x).keys = h.keys := rfl
@[simp] theorem setRed_sys (h : Head) (x : Reduce) : (h.setRed x).sys = h.sys := rfl
@[simp] theorem setRed_now (h : Head) (x : Reduce) : (h.setRed x).now = h.now := rfl
@[simp] theorem setRed_tset (h : Head) (x : Reduce) : (h.setRed x).tset = h.tset := rfl
@[simp] theorem setRed_reply (h : Head) (x : Reduce) : (h.setRed x).reply = h.reply := rfl
@[simp] theorem setRed_out (h : Head) (x : Reduce) : (h.setRed x).out = h.out := rfl
@[simp] theorem setRed_fresh (h : Head) (x : Reduce) : (h.setRed x).fresh = h.fresh := rfl

/-! ### setFl -/

@[simp] theorem setFl_fl (h : Head) (x : Flash) : (h.setFl x).fl = x := rfl
@[simp] theorem setFl_core (h : Head) (x : Flash) : (h.setFl x).core = h.core := rfl
@[simp] theorem setFl_regs (h : Head) (x : Flash) : (h.setFl x).regs = h.regs := rfl
@[simp] theorem setFl_rcd (h : Head) (x : Flash) : (h.setFl x).rcd = h.rcd := rfl
@[simp] theorem setFl_work (h : Head) (x : Flash) : (h.setFl x).work = h.work := rfl
@[simp] theorem setFl_net (h : Head) (x : Flash) : (h.setFl x).net = h.net := rfl
@[simp] theorem setFl_vols (h : Head) (x : Flash) : (h.setFl x).vols = h.vols := rfl
@[simp] theorem setFl_pair (h : Head) (x : Flash) : (h.setFl x).pair = h.pair := rfl
@[simp] theorem setFl_red (h : Head) (x : Flash) : (h.setFl x).red = h.red := rfl
@[simp] theorem setFl_tape (h : Head) (x : Flash) : (h.setFl x).tape = h.tape := rfl
@[simp] theorem setFl_keys (h : Head) (x : Flash) : (h.setFl x).keys = h.keys := rfl
@[simp] theorem setFl_sys (h : Head) (x : Flash) : (h.setFl x).sys = h.sys := rfl
@[simp] theorem setFl_now (h : Head) (x : Flash) : (h.setFl x).now = h.now := rfl
@[simp] theorem setFl_tset (h : Head) (x : Flash) : (h.setFl x).tset = h.tset := rfl
@[simp] theorem setFl_reply (h : Head) (x : Flash) : (h.setFl x).reply = h.reply := rfl
@[simp] theorem setFl_out (h : Head) (x : Flash) : (h.setFl x).out = h.out := rfl
@[simp] theorem setFl_fresh (h : Head) (x : Flash) : (h.setFl x).fresh = h.fresh := rfl

/-! ### setPair -/

@[simp] theorem setPair_pair (h : Head) (x : Pair) : (h.setPair x).pair = x := rfl
@[simp] theorem setPair_core (h : Head) (x : Pair) : (h.setPair x).core = h.core := rfl
@[simp] theorem setPair_regs (h : Head) (x : Pair) : (h.setPair x).regs = h.regs := rfl
@[simp] theorem setPair_rcd (h : Head) (x : Pair) : (h.setPair x).rcd = h.rcd := rfl
@[simp] theorem setPair_work (h : Head) (x : Pair) : (h.setPair x).work = h.work := rfl
@[simp] theorem setPair_net (h : Head) (x : Pair) : (h.setPair x).net = h.net := rfl
@[simp] theorem setPair_vols (h : Head) (x : Pair) : (h.setPair x).vols = h.vols := rfl
@[simp] theorem setPair_red (h : Head) (x : Pair) : (h.setPair x).red = h.red := rfl
@[simp] theorem setPair_fl (h : Head) (x : Pair) : (h.setPair x).fl = h.fl := rfl
@[simp] theorem setPair_tape (h : Head) (x : Pair) : (h.setPair x).tape = h.tape := rfl
@[simp] theorem setPair_keys (h : Head) (x : Pair) : (h.setPair x).keys = h.keys := rfl
@[simp] theorem setPair_sys (h : Head) (x : Pair) : (h.setPair x).sys = h.sys := rfl
@[simp] theorem setPair_now (h : Head) (x : Pair) : (h.setPair x).now = h.now := rfl
@[simp] theorem setPair_tset (h : Head) (x : Pair) : (h.setPair x).tset = h.tset := rfl
@[simp] theorem setPair_reply (h : Head) (x : Pair) : (h.setPair x).reply = h.reply := rfl
@[simp] theorem setPair_out (h : Head) (x : Pair) : (h.setPair x).out = h.out := rfl
@[simp] theorem setPair_fresh (h : Head) (x : Pair) : (h.setPair x).fresh = h.fresh := rfl

/-! ### setRst -/

@[simp] theorem setRst_rst (h : Head) (x : Rst) : (h.setRst x).sys.rst = x := rfl
@[simp] theorem setRst_core (h : Head) (x : Rst) : (h.setRst x).core = h.core := rfl
@[simp] theorem setRst_regs (h : Head) (x : Rst) : (h.setRst x).regs = h.regs := rfl
@[simp] theorem setRst_rcd (h : Head) (x : Rst) : (h.setRst x).rcd = h.rcd := rfl
@[simp] theorem setRst_work (h : Head) (x : Rst) : (h.setRst x).work = h.work := rfl
@[simp] theorem setRst_net (h : Head) (x : Rst) : (h.setRst x).net = h.net := rfl
@[simp] theorem setRst_vols (h : Head) (x : Rst) : (h.setRst x).vols = h.vols := rfl
@[simp] theorem setRst_pair (h : Head) (x : Rst) : (h.setRst x).pair = h.pair := rfl
@[simp] theorem setRst_red (h : Head) (x : Rst) : (h.setRst x).red = h.red := rfl
@[simp] theorem setRst_fl (h : Head) (x : Rst) : (h.setRst x).fl = h.fl := rfl
@[simp] theorem setRst_tape (h : Head) (x : Rst) : (h.setRst x).tape = h.tape := rfl
@[simp] theorem setRst_keys (h : Head) (x : Rst) : (h.setRst x).keys = h.keys := rfl
@[simp] theorem setRst_now (h : Head) (x : Rst) : (h.setRst x).now = h.now := rfl
@[simp] theorem setRst_tset (h : Head) (x : Rst) : (h.setRst x).tset = h.tset := rfl
@[simp] theorem setRst_reply (h : Head) (x : Rst) : (h.setRst x).reply = h.reply := rfl
@[simp] theorem setRst_out (h : Head) (x : Rst) : (h.setRst x).out = h.out := rfl
@[simp] theorem setRst_fresh (h : Head) (x : Rst) : (h.setRst x).fresh = h.fresh := rfl
@[simp] theorem setRst_sys_islands (h : Head) (x : Rst) : (h.setRst x).sys.islands = h.sys.islands := rfl
@[simp] theorem setRst_sys_pins (h : Head) (x : Rst) : (h.setRst x).sys.pins = h.sys.pins := rfl
@[simp] theorem setRst_sys_power (h : Head) (x : Rst) : (h.setRst x).sys.power = h.sys.power := rfl
@[simp] theorem setRst_sys_smb (h : Head) (x : Rst) : (h.setRst x).sys.smb = h.sys.smb := rfl

/-! ### setPower -/

@[simp] theorem setPower_power (h : Head) (x : Power) : (h.setPower x).sys.power = x := rfl
@[simp] theorem setPower_core (h : Head) (x : Power) : (h.setPower x).core = h.core := rfl
@[simp] theorem setPower_regs (h : Head) (x : Power) : (h.setPower x).regs = h.regs := rfl
@[simp] theorem setPower_rcd (h : Head) (x : Power) : (h.setPower x).rcd = h.rcd := rfl
@[simp] theorem setPower_work (h : Head) (x : Power) : (h.setPower x).work = h.work := rfl
@[simp] theorem setPower_net (h : Head) (x : Power) : (h.setPower x).net = h.net := rfl
@[simp] theorem setPower_vols (h : Head) (x : Power) : (h.setPower x).vols = h.vols := rfl
@[simp] theorem setPower_pair (h : Head) (x : Power) : (h.setPower x).pair = h.pair := rfl
@[simp] theorem setPower_red (h : Head) (x : Power) : (h.setPower x).red = h.red := rfl
@[simp] theorem setPower_fl (h : Head) (x : Power) : (h.setPower x).fl = h.fl := rfl
@[simp] theorem setPower_tape (h : Head) (x : Power) : (h.setPower x).tape = h.tape := rfl
@[simp] theorem setPower_keys (h : Head) (x : Power) : (h.setPower x).keys = h.keys := rfl
@[simp] theorem setPower_now (h : Head) (x : Power) : (h.setPower x).now = h.now := rfl
@[simp] theorem setPower_tset (h : Head) (x : Power) : (h.setPower x).tset = h.tset := rfl
@[simp] theorem setPower_reply (h : Head) (x : Power) : (h.setPower x).reply = h.reply := rfl
@[simp] theorem setPower_out (h : Head) (x : Power) : (h.setPower x).out = h.out := rfl
@[simp] theorem setPower_fresh (h : Head) (x : Power) : (h.setPower x).fresh = h.fresh := rfl
@[simp] theorem setPower_sys_islands (h : Head) (x : Power) : (h.setPower x).sys.islands = h.sys.islands := rfl
@[simp] theorem setPower_sys_rst (h : Head) (x : Power) : (h.setPower x).sys.rst = h.sys.rst := rfl
@[simp] theorem setPower_sys_pins (h : Head) (x : Power) : (h.setPower x).sys.pins = h.sys.pins := rfl
@[simp] theorem setPower_sys_smb (h : Head) (x : Power) : (h.setPower x).sys.smb = h.sys.smb := rfl

/-! ### setSmb -/

@[simp] theorem setSmb_smb (h : Head) (x : Smb) : (h.setSmb x).sys.smb = x := rfl
@[simp] theorem setSmb_core (h : Head) (x : Smb) : (h.setSmb x).core = h.core := rfl
@[simp] theorem setSmb_regs (h : Head) (x : Smb) : (h.setSmb x).regs = h.regs := rfl
@[simp] theorem setSmb_rcd (h : Head) (x : Smb) : (h.setSmb x).rcd = h.rcd := rfl
@[simp] theorem setSmb_work (h : Head) (x : Smb) : (h.setSmb x).work = h.work := rfl
@[simp] theorem setSmb_net (h : Head) (x : Smb) : (h.setSmb x).net = h.net := rfl
@[simp] theorem setSmb_vols (h : Head) (x : Smb) : (h.setSmb x).vols = h.vols := rfl
@[simp] theorem setSmb_pair (h : Head) (x : Smb) : (h.setSmb x).pair = h.pair := rfl
@[simp] theorem setSmb_red (h : Head) (x : Smb) : (h.setSmb x).red = h.red := rfl
@[simp] theorem setSmb_fl (h : Head) (x : Smb) : (h.setSmb x).fl = h.fl := rfl
@[simp] theorem setSmb_tape (h : Head) (x : Smb) : (h.setSmb x).tape = h.tape := rfl
@[simp] theorem setSmb_keys (h : Head) (x : Smb) : (h.setSmb x).keys = h.keys := rfl
@[simp] theorem setSmb_now (h : Head) (x : Smb) : (h.setSmb x).now = h.now := rfl
@[simp] theorem setSmb_tset (h : Head) (x : Smb) : (h.setSmb x).tset = h.tset := rfl
@[simp] theorem setSmb_reply (h : Head) (x : Smb) : (h.setSmb x).reply = h.reply := rfl
@[simp] theorem setSmb_out (h : Head) (x : Smb) : (h.setSmb x).out = h.out := rfl
@[simp] theorem setSmb_fresh (h : Head) (x : Smb) : (h.setSmb x).fresh = h.fresh := rfl
@[simp] theorem setSmb_sys_islands (h : Head) (x : Smb) : (h.setSmb x).sys.islands = h.sys.islands := rfl
@[simp] theorem setSmb_sys_rst (h : Head) (x : Smb) : (h.setSmb x).sys.rst = h.sys.rst := rfl
@[simp] theorem setSmb_sys_pins (h : Head) (x : Smb) : (h.setSmb x).sys.pins = h.sys.pins := rfl
@[simp] theorem setSmb_sys_power (h : Head) (x : Smb) : (h.setSmb x).sys.power = h.sys.power := rfl

/-! ### setPins -/

@[simp] theorem setPins_pins (h : Head) (x : Pins) : (h.setPins x).sys.pins = x := rfl
@[simp] theorem setPins_core (h : Head) (x : Pins) : (h.setPins x).core = h.core := rfl
@[simp] theorem setPins_regs (h : Head) (x : Pins) : (h.setPins x).regs = h.regs := rfl
@[simp] theorem setPins_rcd (h : Head) (x : Pins) : (h.setPins x).rcd = h.rcd := rfl
@[simp] theorem setPins_work (h : Head) (x : Pins) : (h.setPins x).work = h.work := rfl
@[simp] theorem setPins_net (h : Head) (x : Pins) : (h.setPins x).net = h.net := rfl
@[simp] theorem setPins_vols (h : Head) (x : Pins) : (h.setPins x).vols = h.vols := rfl
@[simp] theorem setPins_pair (h : Head) (x : Pins) : (h.setPins x).pair = h.pair := rfl
@[simp] theorem setPins_red (h : Head) (x : Pins) : (h.setPins x).red = h.red := rfl
@[simp] theorem setPins_fl (h : Head) (x : Pins) : (h.setPins x).fl = h.fl := rfl
@[simp] theorem setPins_tape (h : Head) (x : Pins) : (h.setPins x).tape = h.tape := rfl
@[simp] theorem setPins_keys (h : Head) (x : Pins) : (h.setPins x).keys = h.keys := rfl
@[simp] theorem setPins_now (h : Head) (x : Pins) : (h.setPins x).now = h.now := rfl
@[simp] theorem setPins_tset (h : Head) (x : Pins) : (h.setPins x).tset = h.tset := rfl
@[simp] theorem setPins_reply (h : Head) (x : Pins) : (h.setPins x).reply = h.reply := rfl
@[simp] theorem setPins_out (h : Head) (x : Pins) : (h.setPins x).out = h.out := rfl
@[simp] theorem setPins_fresh (h : Head) (x : Pins) : (h.setPins x).fresh = h.fresh := rfl
@[simp] theorem setPins_sys_islands (h : Head) (x : Pins) : (h.setPins x).sys.islands = h.sys.islands := rfl
@[simp] theorem setPins_sys_rst (h : Head) (x : Pins) : (h.setPins x).sys.rst = h.sys.rst := rfl
@[simp] theorem setPins_sys_power (h : Head) (x : Pins) : (h.setPins x).sys.power = h.sys.power := rfl
@[simp] theorem setPins_sys_smb (h : Head) (x : Pins) : (h.setPins x).sys.smb = h.sys.smb := rfl

/-! ### setFw -/

@[simp] theorem setFw_fw (h : Head) (x : Fw) : (h.setFw x).keys.fw = x := rfl
@[simp] theorem setFw_core (h : Head) (x : Fw) : (h.setFw x).core = h.core := rfl
@[simp] theorem setFw_regs (h : Head) (x : Fw) : (h.setFw x).regs = h.regs := rfl
@[simp] theorem setFw_rcd (h : Head) (x : Fw) : (h.setFw x).rcd = h.rcd := rfl
@[simp] theorem setFw_work (h : Head) (x : Fw) : (h.setFw x).work = h.work := rfl
@[simp] theorem setFw_net (h : Head) (x : Fw) : (h.setFw x).net = h.net := rfl
@[simp] theorem setFw_vols (h : Head) (x : Fw) : (h.setFw x).vols = h.vols := rfl
@[simp] theorem setFw_pair (h : Head) (x : Fw) : (h.setFw x).pair = h.pair := rfl
@[simp] theorem setFw_red (h : Head) (x : Fw) : (h.setFw x).red = h.red := rfl
@[simp] theorem setFw_fl (h : Head) (x : Fw) : (h.setFw x).fl = h.fl := rfl
@[simp] theorem setFw_tape (h : Head) (x : Fw) : (h.setFw x).tape = h.tape := rfl
@[simp] theorem setFw_sys (h : Head) (x : Fw) : (h.setFw x).sys = h.sys := rfl
@[simp] theorem setFw_now (h : Head) (x : Fw) : (h.setFw x).now = h.now := rfl
@[simp] theorem setFw_tset (h : Head) (x : Fw) : (h.setFw x).tset = h.tset := rfl
@[simp] theorem setFw_reply (h : Head) (x : Fw) : (h.setFw x).reply = h.reply := rfl
@[simp] theorem setFw_out (h : Head) (x : Fw) : (h.setFw x).out = h.out := rfl
@[simp] theorem setFw_fresh (h : Head) (x : Fw) : (h.setFw x).fresh = h.fresh := rfl
@[simp] theorem setFw_keys_slots (h : Head) (x : Fw) : (h.setFw x).keys.slots = h.keys.slots := rfl
@[simp] theorem setFw_keys_hkeys (h : Head) (x : Fw) : (h.setFw x).keys.hkeys = h.keys.hkeys := rfl
@[simp] theorem setFw_keys_dg (h : Head) (x : Fw) : (h.setFw x).keys.dg = h.keys.dg := rfl
@[simp] theorem setFw_keys_pwk (h : Head) (x : Fw) : (h.setFw x).keys.pwk = h.keys.pwk := rfl
@[simp] theorem setFw_keys_keyx (h : Head) (x : Fw) : (h.setFw x).keys.keyx = h.keys.keyx := rfl

/-! ### setLink -/

@[simp] theorem setLink_link (h : Head) (x : Link) : (h.setLink x).pair.link = x := rfl
@[simp] theorem setLink_core (h : Head) (x : Link) : (h.setLink x).core = h.core := rfl
@[simp] theorem setLink_regs (h : Head) (x : Link) : (h.setLink x).regs = h.regs := rfl
@[simp] theorem setLink_rcd (h : Head) (x : Link) : (h.setLink x).rcd = h.rcd := rfl
@[simp] theorem setLink_work (h : Head) (x : Link) : (h.setLink x).work = h.work := rfl
@[simp] theorem setLink_net (h : Head) (x : Link) : (h.setLink x).net = h.net := rfl
@[simp] theorem setLink_vols (h : Head) (x : Link) : (h.setLink x).vols = h.vols := rfl
@[simp] theorem setLink_red (h : Head) (x : Link) : (h.setLink x).red = h.red := rfl
@[simp] theorem setLink_fl (h : Head) (x : Link) : (h.setLink x).fl = h.fl := rfl
@[simp] theorem setLink_tape (h : Head) (x : Link) : (h.setLink x).tape = h.tape := rfl
@[simp] theorem setLink_keys (h : Head) (x : Link) : (h.setLink x).keys = h.keys := rfl
@[simp] theorem setLink_sys (h : Head) (x : Link) : (h.setLink x).sys = h.sys := rfl
@[simp] theorem setLink_now (h : Head) (x : Link) : (h.setLink x).now = h.now := rfl
@[simp] theorem setLink_tset (h : Head) (x : Link) : (h.setLink x).tset = h.tset := rfl
@[simp] theorem setLink_reply (h : Head) (x : Link) : (h.setLink x).reply = h.reply := rfl
@[simp] theorem setLink_out (h : Head) (x : Link) : (h.setLink x).out = h.out := rfl
@[simp] theorem setLink_fresh (h : Head) (x : Link) : (h.setLink x).fresh = h.fresh := rfl
@[simp] theorem setLink_pair_size (h : Head) (x : Link) : (h.setLink x).pair.size = h.pair.size := rfl
@[simp] theorem setLink_pair_peerSize (h : Head) (x : Link) : (h.setLink x).pair.peerSize = h.pair.peerSize := rfl
@[simp] theorem setLink_pair_lehr (h : Head) (x : Link) : (h.setLink x).pair.lehr = h.pair.lehr := rfl
@[simp] theorem setLink_pair_drawn (h : Head) (x : Link) : (h.setLink x).pair.drawn = h.pair.drawn := rfl
@[simp] theorem setLink_pair_unm (h : Head) (x : Link) : (h.setLink x).pair.unm = h.pair.unm := rfl
@[simp] theorem setLink_pair_spill (h : Head) (x : Link) : (h.setLink x).pair.spill = h.pair.spill := rfl
@[simp] theorem setLink_pair_sphase (h : Head) (x : Link) : (h.setLink x).pair.sphase = h.pair.sphase := rfl
@[simp] theorem setLink_pair_spillAt (h : Head) (x : Link) : (h.setLink x).pair.spillAt = h.pair.spillAt := rfl
@[simp] theorem setLink_pair_peerLost (h : Head) (x : Link) : (h.setLink x).pair.peerLost = h.pair.peerLost := rfl
@[simp] theorem setLink_pair_solo (h : Head) (x : Link) : (h.setLink x).pair.solo = h.pair.solo := rfl
@[simp] theorem setLink_pair_remir (h : Head) (x : Link) : (h.setLink x).pair.remir = h.pair.remir := rfl
@[simp] theorem setLink_pair_remirLeft (h : Head) (x : Link) : (h.setLink x).pair.remirLeft = h.pair.remirLeft := rfl
@[simp] theorem setLink_pair_serve (h : Head) (x : Link) : (h.setLink x).pair.serve = h.pair.serve := rfl
@[simp] theorem setLink_pair_handoff (h : Head) (x : Link) : (h.setLink x).pair.handoff = h.pair.handoff := rfl
@[simp] theorem setLink_pair_takeover (h : Head) (x : Link) : (h.setLink x).pair.takeover = h.pair.takeover := rfl
@[simp] theorem setLink_pair_tkSide (h : Head) (x : Link) : (h.setLink x).pair.tkSide = h.pair.tkSide := rfl
@[simp] theorem setLink_pair_reps (h : Head) (x : Link) : (h.setLink x).pair.reps = h.pair.reps := rfl
@[simp] theorem setLink_pair_mark (h : Head) (x : Link) : (h.setLink x).pair.mark = h.pair.mark := rfl
@[simp] theorem setLink_pair_rejoin (h : Head) (x : Link) : (h.setLink x).pair.rejoin = h.pair.rejoin := rfl
@[simp] theorem setLink_pair_evres (h : Head) (x : Link) : (h.setLink x).pair.evres = h.pair.evres := rfl
@[simp] theorem setLink_pair_fence (h : Head) (x : Link) : (h.setLink x).pair.fence = h.pair.fence := rfl
@[simp] theorem setLink_pair_jobs (h : Head) (x : Link) : (h.setLink x).pair.jobs = h.pair.jobs := rfl
@[simp] theorem setLink_pair_room (h : Head) (x : Link) : (h.setLink x).pair.room = h.pair.room := rfl
@[simp] theorem setLink_pair_newer (h : Head) (x : Link) : (h.setLink x).pair.newer = h.pair.newer := rfl
@[simp] theorem setLink_pair_said (h : Head) (x : Link) : (h.setLink x).pair.said = h.pair.said := rfl

/-! ### setFence -/

@[simp] theorem setFence_fence (h : Head) (x : Fence) : (h.setFence x).pair.fence = x := rfl
@[simp] theorem setFence_core (h : Head) (x : Fence) : (h.setFence x).core = h.core := rfl
@[simp] theorem setFence_regs (h : Head) (x : Fence) : (h.setFence x).regs = h.regs := rfl
@[simp] theorem setFence_rcd (h : Head) (x : Fence) : (h.setFence x).rcd = h.rcd := rfl
@[simp] theorem setFence_work (h : Head) (x : Fence) : (h.setFence x).work = h.work := rfl
@[simp] theorem setFence_net (h : Head) (x : Fence) : (h.setFence x).net = h.net := rfl
@[simp] theorem setFence_vols (h : Head) (x : Fence) : (h.setFence x).vols = h.vols := rfl
@[simp] theorem setFence_red (h : Head) (x : Fence) : (h.setFence x).red = h.red := rfl
@[simp] theorem setFence_fl (h : Head) (x : Fence) : (h.setFence x).fl = h.fl := rfl
@[simp] theorem setFence_tape (h : Head) (x : Fence) : (h.setFence x).tape = h.tape := rfl
@[simp] theorem setFence_keys (h : Head) (x : Fence) : (h.setFence x).keys = h.keys := rfl
@[simp] theorem setFence_sys (h : Head) (x : Fence) : (h.setFence x).sys = h.sys := rfl
@[simp] theorem setFence_now (h : Head) (x : Fence) : (h.setFence x).now = h.now := rfl
@[simp] theorem setFence_tset (h : Head) (x : Fence) : (h.setFence x).tset = h.tset := rfl
@[simp] theorem setFence_reply (h : Head) (x : Fence) : (h.setFence x).reply = h.reply := rfl
@[simp] theorem setFence_out (h : Head) (x : Fence) : (h.setFence x).out = h.out := rfl
@[simp] theorem setFence_fresh (h : Head) (x : Fence) : (h.setFence x).fresh = h.fresh := rfl
@[simp] theorem setFence_pair_size (h : Head) (x : Fence) : (h.setFence x).pair.size = h.pair.size := rfl
@[simp] theorem setFence_pair_peerSize (h : Head) (x : Fence) : (h.setFence x).pair.peerSize = h.pair.peerSize := rfl
@[simp] theorem setFence_pair_lehr (h : Head) (x : Fence) : (h.setFence x).pair.lehr = h.pair.lehr := rfl
@[simp] theorem setFence_pair_drawn (h : Head) (x : Fence) : (h.setFence x).pair.drawn = h.pair.drawn := rfl
@[simp] theorem setFence_pair_unm (h : Head) (x : Fence) : (h.setFence x).pair.unm = h.pair.unm := rfl
@[simp] theorem setFence_pair_link (h : Head) (x : Fence) : (h.setFence x).pair.link = h.pair.link := rfl
@[simp] theorem setFence_pair_spill (h : Head) (x : Fence) : (h.setFence x).pair.spill = h.pair.spill := rfl
@[simp] theorem setFence_pair_sphase (h : Head) (x : Fence) : (h.setFence x).pair.sphase = h.pair.sphase := rfl
@[simp] theorem setFence_pair_spillAt (h : Head) (x : Fence) : (h.setFence x).pair.spillAt = h.pair.spillAt := rfl
@[simp] theorem setFence_pair_peerLost (h : Head) (x : Fence) : (h.setFence x).pair.peerLost = h.pair.peerLost := rfl
@[simp] theorem setFence_pair_solo (h : Head) (x : Fence) : (h.setFence x).pair.solo = h.pair.solo := rfl
@[simp] theorem setFence_pair_remir (h : Head) (x : Fence) : (h.setFence x).pair.remir = h.pair.remir := rfl
@[simp] theorem setFence_pair_remirLeft (h : Head) (x : Fence) : (h.setFence x).pair.remirLeft = h.pair.remirLeft := rfl
@[simp] theorem setFence_pair_serve (h : Head) (x : Fence) : (h.setFence x).pair.serve = h.pair.serve := rfl
@[simp] theorem setFence_pair_handoff (h : Head) (x : Fence) : (h.setFence x).pair.handoff = h.pair.handoff := rfl
@[simp] theorem setFence_pair_takeover (h : Head) (x : Fence) : (h.setFence x).pair.takeover = h.pair.takeover := rfl
@[simp] theorem setFence_pair_tkSide (h : Head) (x : Fence) : (h.setFence x).pair.tkSide = h.pair.tkSide := rfl
@[simp] theorem setFence_pair_reps (h : Head) (x : Fence) : (h.setFence x).pair.reps = h.pair.reps := rfl
@[simp] theorem setFence_pair_mark (h : Head) (x : Fence) : (h.setFence x).pair.mark = h.pair.mark := rfl
@[simp] theorem setFence_pair_rejoin (h : Head) (x : Fence) : (h.setFence x).pair.rejoin = h.pair.rejoin := rfl
@[simp] theorem setFence_pair_evres (h : Head) (x : Fence) : (h.setFence x).pair.evres = h.pair.evres := rfl
@[simp] theorem setFence_pair_jobs (h : Head) (x : Fence) : (h.setFence x).pair.jobs = h.pair.jobs := rfl
@[simp] theorem setFence_pair_room (h : Head) (x : Fence) : (h.setFence x).pair.room = h.pair.room := rfl
@[simp] theorem setFence_pair_newer (h : Head) (x : Fence) : (h.setFence x).pair.newer = h.pair.newer := rfl
@[simp] theorem setFence_pair_said (h : Head) (x : Fence) : (h.setFence x).pair.said = h.pair.said := rfl

/-! ### setVols -/

@[simp] theorem setVols_vols (h : Head) (x : List Volume) : (h.setVols x).vols.vols = x := rfl
@[simp] theorem setVols_core (h : Head) (x : List Volume) : (h.setVols x).core = h.core := rfl
@[simp] theorem setVols_regs (h : Head) (x : List Volume) : (h.setVols x).regs = h.regs := rfl
@[simp] theorem setVols_rcd (h : Head) (x : List Volume) : (h.setVols x).rcd = h.rcd := rfl
@[simp] theorem setVols_work (h : Head) (x : List Volume) : (h.setVols x).work = h.work := rfl
@[simp] theorem setVols_net (h : Head) (x : List Volume) : (h.setVols x).net = h.net := rfl
@[simp] theorem setVols_pair (h : Head) (x : List Volume) : (h.setVols x).pair = h.pair := rfl
@[simp] theorem setVols_red (h : Head) (x : List Volume) : (h.setVols x).red = h.red := rfl
@[simp] theorem setVols_fl (h : Head) (x : List Volume) : (h.setVols x).fl = h.fl := rfl
@[simp] theorem setVols_tape (h : Head) (x : List Volume) : (h.setVols x).tape = h.tape := rfl
@[simp] theorem setVols_keys (h : Head) (x : List Volume) : (h.setVols x).keys = h.keys := rfl
@[simp] theorem setVols_sys (h : Head) (x : List Volume) : (h.setVols x).sys = h.sys := rfl
@[simp] theorem setVols_now (h : Head) (x : List Volume) : (h.setVols x).now = h.now := rfl
@[simp] theorem setVols_tset (h : Head) (x : List Volume) : (h.setVols x).tset = h.tset := rfl
@[simp] theorem setVols_reply (h : Head) (x : List Volume) : (h.setVols x).reply = h.reply := rfl
@[simp] theorem setVols_out (h : Head) (x : List Volume) : (h.setVols x).out = h.out := rfl
@[simp] theorem setVols_fresh (h : Head) (x : List Volume) : (h.setVols x).fresh = h.fresh := rfl
@[simp] theorem setVols_vols_cuts (h : Head) (x : List Volume) : (h.setVols x).vols.cuts = h.vols.cuts := rfl
@[simp] theorem setVols_vols_atoms (h : Head) (x : List Volume) : (h.setVols x).vols.atoms = h.vols.atoms := rfl
@[simp] theorem setVols_vols_drops (h : Head) (x : List Volume) : (h.setVols x).vols.drops = h.vols.drops := rfl
@[simp] theorem setVols_vols_deltas (h : Head) (x : List Volume) : (h.setVols x).vols.deltas = h.vols.deltas := rfl
@[simp] theorem setVols_vols_ndelta (h : Head) (x : List Volume) : (h.setVols x).vols.ndelta = h.vols.ndelta := rfl
@[simp] theorem setVols_vols_dirs (h : Head) (x : List Volume) : (h.setVols x).vols.dirs = h.vols.dirs := rfl
@[simp] theorem setVols_vols_dirty (h : Head) (x : List Volume) : (h.setVols x).vols.dirty = h.vols.dirty := rfl
@[simp] theorem setVols_vols_copies (h : Head) (x : List Volume) : (h.setVols x).vols.copies = h.vols.copies := rfl
@[simp] theorem setVols_vols_fines (h : Head) (x : List Volume) : (h.setVols x).vols.fines = h.vols.fines := rfl
@[simp] theorem setVols_vols_small (h : Head) (x : List Volume) : (h.setVols x).vols.small = h.vols.small := rfl
@[simp] theorem setVols_vols_afresh (h : Head) (x : List Volume) : (h.setVols x).vols.afresh = h.vols.afresh := rfl
@[simp] theorem setVols_vols_ends (h : Head) (x : List Volume) : (h.setVols x).vols.ends = h.vols.ends := rfl

/-! ### setAtoms -/

@[simp] theorem setAtoms_atoms (h : Head) (x : List ASlot) : (h.setAtoms x).vols.atoms = x := rfl
@[simp] theorem setAtoms_core (h : Head) (x : List ASlot) : (h.setAtoms x).core = h.core := rfl
@[simp] theorem setAtoms_regs (h : Head) (x : List ASlot) : (h.setAtoms x).regs = h.regs := rfl
@[simp] theorem setAtoms_rcd (h : Head) (x : List ASlot) : (h.setAtoms x).rcd = h.rcd := rfl
@[simp] theorem setAtoms_work (h : Head) (x : List ASlot) : (h.setAtoms x).work = h.work := rfl
@[simp] theorem setAtoms_net (h : Head) (x : List ASlot) : (h.setAtoms x).net = h.net := rfl
@[simp] theorem setAtoms_pair (h : Head) (x : List ASlot) : (h.setAtoms x).pair = h.pair := rfl
@[simp] theorem setAtoms_red (h : Head) (x : List ASlot) : (h.setAtoms x).red = h.red := rfl
@[simp] theorem setAtoms_fl (h : Head) (x : List ASlot) : (h.setAtoms x).fl = h.fl := rfl
@[simp] theorem setAtoms_tape (h : Head) (x : List ASlot) : (h.setAtoms x).tape = h.tape := rfl
@[simp] theorem setAtoms_keys (h : Head) (x : List ASlot) : (h.setAtoms x).keys = h.keys := rfl
@[simp] theorem setAtoms_sys (h : Head) (x : List ASlot) : (h.setAtoms x).sys = h.sys := rfl
@[simp] theorem setAtoms_now (h : Head) (x : List ASlot) : (h.setAtoms x).now = h.now := rfl
@[simp] theorem setAtoms_tset (h : Head) (x : List ASlot) : (h.setAtoms x).tset = h.tset := rfl
@[simp] theorem setAtoms_reply (h : Head) (x : List ASlot) : (h.setAtoms x).reply = h.reply := rfl
@[simp] theorem setAtoms_out (h : Head) (x : List ASlot) : (h.setAtoms x).out = h.out := rfl
@[simp] theorem setAtoms_fresh (h : Head) (x : List ASlot) : (h.setAtoms x).fresh = h.fresh := rfl
@[simp] theorem setAtoms_vols_vols (h : Head) (x : List ASlot) : (h.setAtoms x).vols.vols = h.vols.vols := rfl
@[simp] theorem setAtoms_vols_cuts (h : Head) (x : List ASlot) : (h.setAtoms x).vols.cuts = h.vols.cuts := rfl
@[simp] theorem setAtoms_vols_drops (h : Head) (x : List ASlot) : (h.setAtoms x).vols.drops = h.vols.drops := rfl
@[simp] theorem setAtoms_vols_deltas (h : Head) (x : List ASlot) : (h.setAtoms x).vols.deltas = h.vols.deltas := rfl
@[simp] theorem setAtoms_vols_ndelta (h : Head) (x : List ASlot) : (h.setAtoms x).vols.ndelta = h.vols.ndelta := rfl
@[simp] theorem setAtoms_vols_dirs (h : Head) (x : List ASlot) : (h.setAtoms x).vols.dirs = h.vols.dirs := rfl
@[simp] theorem setAtoms_vols_dirty (h : Head) (x : List ASlot) : (h.setAtoms x).vols.dirty = h.vols.dirty := rfl
@[simp] theorem setAtoms_vols_copies (h : Head) (x : List ASlot) : (h.setAtoms x).vols.copies = h.vols.copies := rfl
@[simp] theorem setAtoms_vols_fines (h : Head) (x : List ASlot) : (h.setAtoms x).vols.fines = h.vols.fines := rfl
@[simp] theorem setAtoms_vols_small (h : Head) (x : List ASlot) : (h.setAtoms x).vols.small = h.vols.small := rfl
@[simp] theorem setAtoms_vols_afresh (h : Head) (x : List ASlot) : (h.setAtoms x).vols.afresh = h.vols.afresh := rfl
@[simp] theorem setAtoms_vols_ends (h : Head) (x : List ASlot) : (h.setAtoms x).vols.ends = h.vols.ends := rfl

/-! ### setCmds -/

@[simp] theorem setCmds_cmds (h : Head) (x : List Cmd) : (h.setCmds x).work.cmds = x := rfl
@[simp] theorem setCmds_core (h : Head) (x : List Cmd) : (h.setCmds x).core = h.core := rfl
@[simp] theorem setCmds_regs (h : Head) (x : List Cmd) : (h.setCmds x).regs = h.regs := rfl
@[simp] theorem setCmds_rcd (h : Head) (x : List Cmd) : (h.setCmds x).rcd = h.rcd := rfl
@[simp] theorem setCmds_net (h : Head) (x : List Cmd) : (h.setCmds x).net = h.net := rfl
@[simp] theorem setCmds_vols (h : Head) (x : List Cmd) : (h.setCmds x).vols = h.vols := rfl
@[simp] theorem setCmds_pair (h : Head) (x : List Cmd) : (h.setCmds x).pair = h.pair := rfl
@[simp] theorem setCmds_red (h : Head) (x : List Cmd) : (h.setCmds x).red = h.red := rfl
@[simp] theorem setCmds_fl (h : Head) (x : List Cmd) : (h.setCmds x).fl = h.fl := rfl
@[simp] theorem setCmds_tape (h : Head) (x : List Cmd) : (h.setCmds x).tape = h.tape := rfl
@[simp] theorem setCmds_keys (h : Head) (x : List Cmd) : (h.setCmds x).keys = h.keys := rfl
@[simp] theorem setCmds_sys (h : Head) (x : List Cmd) : (h.setCmds x).sys = h.sys := rfl
@[simp] theorem setCmds_now (h : Head) (x : List Cmd) : (h.setCmds x).now = h.now := rfl
@[simp] theorem setCmds_tset (h : Head) (x : List Cmd) : (h.setCmds x).tset = h.tset := rfl
@[simp] theorem setCmds_reply (h : Head) (x : List Cmd) : (h.setCmds x).reply = h.reply := rfl
@[simp] theorem setCmds_out (h : Head) (x : List Cmd) : (h.setCmds x).out = h.out := rfl
@[simp] theorem setCmds_fresh (h : Head) (x : List Cmd) : (h.setCmds x).fresh = h.fresh := rfl
@[simp] theorem setCmds_work_queues (h : Head) (x : List Cmd) : (h.setCmds x).work.queues = h.work.queues := rfl
@[simp] theorem setCmds_work_streams (h : Head) (x : List Cmd) : (h.setCmds x).work.streams = h.work.streams := rfl
@[simp] theorem setCmds_work_jour (h : Head) (x : List Cmd) : (h.setCmds x).work.jour = h.work.jour := rfl
@[simp] theorem setCmds_work_verbs (h : Head) (x : List Cmd) : (h.setCmds x).work.verbs = h.work.verbs := rfl
@[simp] theorem setCmds_work_vid (h : Head) (x : List Cmd) : (h.setCmds x).work.vid = h.work.vid := rfl
@[simp] theorem setCmds_work_contracts (h : Head) (x : List Cmd) : (h.setCmds x).work.contracts = h.work.contracts := rfl
@[simp] theorem setCmds_work_cost (h : Head) (x : List Cmd) : (h.setCmds x).work.cost = h.work.cost := rfl
@[simp] theorem setCmds_work_readMostly (h : Head) (x : List Cmd) : (h.setCmds x).work.readMostly = h.work.readMostly := rfl
@[simp] theorem setCmds_work_event (h : Head) (x : List Cmd) : (h.setCmds x).work.event = h.work.event := rfl
@[simp] theorem setCmds_work_epochs (h : Head) (x : List Cmd) : (h.setCmds x).work.epochs = h.work.epochs := rfl
@[simp] theorem setCmds_work_covers (h : Head) (x : List Cmd) : (h.setCmds x).work.covers = h.work.covers := rfl
@[simp] theorem setCmds_work_spent (h : Head) (x : List Cmd) : (h.setCmds x).work.spent = h.work.spent := rfl
@[simp] theorem setCmds_work_owed (h : Head) (x : List Cmd) : (h.setCmds x).work.owed = h.work.owed := rfl

/-! ### setVerbs -/

@[simp] theorem setVerbs_verbs (h : Head) (x : List HVerb) : (h.setVerbs x).work.verbs = x := rfl
@[simp] theorem setVerbs_core (h : Head) (x : List HVerb) : (h.setVerbs x).core = h.core := rfl
@[simp] theorem setVerbs_regs (h : Head) (x : List HVerb) : (h.setVerbs x).regs = h.regs := rfl
@[simp] theorem setVerbs_rcd (h : Head) (x : List HVerb) : (h.setVerbs x).rcd = h.rcd := rfl
@[simp] theorem setVerbs_net (h : Head) (x : List HVerb) : (h.setVerbs x).net = h.net := rfl
@[simp] theorem setVerbs_vols (h : Head) (x : List HVerb) : (h.setVerbs x).vols = h.vols := rfl
@[simp] theorem setVerbs_pair (h : Head) (x : List HVerb) : (h.setVerbs x).pair = h.pair := rfl
@[simp] theorem setVerbs_red (h : Head) (x : List HVerb) : (h.setVerbs x).red = h.red := rfl
@[simp] theorem setVerbs_fl (h : Head) (x : List HVerb) : (h.setVerbs x).fl = h.fl := rfl
@[simp] theorem setVerbs_tape (h : Head) (x : List HVerb) : (h.setVerbs x).tape = h.tape := rfl
@[simp] theorem setVerbs_keys (h : Head) (x : List HVerb) : (h.setVerbs x).keys = h.keys := rfl
@[simp] theorem setVerbs_sys (h : Head) (x : List HVerb) : (h.setVerbs x).sys = h.sys := rfl
@[simp] theorem setVerbs_now (h : Head) (x : List HVerb) : (h.setVerbs x).now = h.now := rfl
@[simp] theorem setVerbs_tset (h : Head) (x : List HVerb) : (h.setVerbs x).tset = h.tset := rfl
@[simp] theorem setVerbs_reply (h : Head) (x : List HVerb) : (h.setVerbs x).reply = h.reply := rfl
@[simp] theorem setVerbs_out (h : Head) (x : List HVerb) : (h.setVerbs x).out = h.out := rfl
@[simp] theorem setVerbs_fresh (h : Head) (x : List HVerb) : (h.setVerbs x).fresh = h.fresh := rfl
@[simp] theorem setVerbs_work_queues (h : Head) (x : List HVerb) : (h.setVerbs x).work.queues = h.work.queues := rfl
@[simp] theorem setVerbs_work_streams (h : Head) (x : List HVerb) : (h.setVerbs x).work.streams = h.work.streams := rfl
@[simp] theorem setVerbs_work_jour (h : Head) (x : List HVerb) : (h.setVerbs x).work.jour = h.work.jour := rfl
@[simp] theorem setVerbs_work_cmds (h : Head) (x : List HVerb) : (h.setVerbs x).work.cmds = h.work.cmds := rfl
@[simp] theorem setVerbs_work_vid (h : Head) (x : List HVerb) : (h.setVerbs x).work.vid = h.work.vid := rfl
@[simp] theorem setVerbs_work_contracts (h : Head) (x : List HVerb) : (h.setVerbs x).work.contracts = h.work.contracts := rfl
@[simp] theorem setVerbs_work_cost (h : Head) (x : List HVerb) : (h.setVerbs x).work.cost = h.work.cost := rfl
@[simp] theorem setVerbs_work_readMostly (h : Head) (x : List HVerb) : (h.setVerbs x).work.readMostly = h.work.readMostly := rfl
@[simp] theorem setVerbs_work_event (h : Head) (x : List HVerb) : (h.setVerbs x).work.event = h.work.event := rfl
@[simp] theorem setVerbs_work_epochs (h : Head) (x : List HVerb) : (h.setVerbs x).work.epochs = h.work.epochs := rfl
@[simp] theorem setVerbs_work_covers (h : Head) (x : List HVerb) : (h.setVerbs x).work.covers = h.work.covers := rfl
@[simp] theorem setVerbs_work_spent (h : Head) (x : List HVerb) : (h.setVerbs x).work.spent = h.work.spent := rfl
@[simp] theorem setVerbs_work_owed (h : Head) (x : List HVerb) : (h.setVerbs x).work.owed = h.work.owed := rfl

/-! ### setConns -/

@[simp] theorem setConns_conns (h : Head) (x : List Conn) : (h.setConns x).net.conns = x := rfl
@[simp] theorem setConns_core (h : Head) (x : List Conn) : (h.setConns x).core = h.core := rfl
@[simp] theorem setConns_regs (h : Head) (x : List Conn) : (h.setConns x).regs = h.regs := rfl
@[simp] theorem setConns_rcd (h : Head) (x : List Conn) : (h.setConns x).rcd = h.rcd := rfl
@[simp] theorem setConns_work (h : Head) (x : List Conn) : (h.setConns x).work = h.work := rfl
@[simp] theorem setConns_vols (h : Head) (x : List Conn) : (h.setConns x).vols = h.vols := rfl
@[simp] theorem setConns_pair (h : Head) (x : List Conn) : (h.setConns x).pair = h.pair := rfl
@[simp] theorem setConns_red (h : Head) (x : List Conn) : (h.setConns x).red = h.red := rfl
@[simp] theorem setConns_fl (h : Head) (x : List Conn) : (h.setConns x).fl = h.fl := rfl
@[simp] theorem setConns_tape (h : Head) (x : List Conn) : (h.setConns x).tape = h.tape := rfl
@[simp] theorem setConns_keys (h : Head) (x : List Conn) : (h.setConns x).keys = h.keys := rfl
@[simp] theorem setConns_sys (h : Head) (x : List Conn) : (h.setConns x).sys = h.sys := rfl
@[simp] theorem setConns_now (h : Head) (x : List Conn) : (h.setConns x).now = h.now := rfl
@[simp] theorem setConns_tset (h : Head) (x : List Conn) : (h.setConns x).tset = h.tset := rfl
@[simp] theorem setConns_reply (h : Head) (x : List Conn) : (h.setConns x).reply = h.reply := rfl
@[simp] theorem setConns_out (h : Head) (x : List Conn) : (h.setConns x).out = h.out := rfl
@[simp] theorem setConns_fresh (h : Head) (x : List Conn) : (h.setConns x).fresh = h.fresh := rfl
@[simp] theorem setConns_net_windows (h : Head) (x : List Conn) : (h.setConns x).net.windows = h.net.windows := rfl
@[simp] theorem setConns_net_paths (h : Head) (x : List Conn) : (h.setConns x).net.paths = h.net.paths := rfl
@[simp] theorem setConns_net_up (h : Head) (x : List Conn) : (h.setConns x).net.up = h.net.up := rfl
@[simp] theorem setConns_net_addrs (h : Head) (x : List Conn) : (h.setConns x).net.addrs = h.net.addrs := rfl
@[simp] theorem setConns_net_hellos (h : Head) (x : List Conn) : (h.setConns x).net.hellos = h.net.hellos := rfl
@[simp] theorem setConns_net_proofs (h : Head) (x : List Conn) : (h.setConns x).net.proofs = h.net.proofs := rfl
@[simp] theorem setConns_net_unk (h : Head) (x : List Conn) : (h.setConns x).net.unk = h.net.unk := rfl
@[simp] theorem setConns_net_echo (h : Head) (x : List Conn) : (h.setConns x).net.echo = h.net.echo := rfl
@[simp] theorem setConns_net_paused (h : Head) (x : List Conn) : (h.setConns x).net.paused = h.net.paused := rfl
@[simp] theorem setConns_net_txq (h : Head) (x : List Conn) : (h.setConns x).net.txq = h.net.txq := rfl
@[simp] theorem setConns_net_recent (h : Head) (x : List Conn) : (h.setConns x).net.recent = h.net.recent := rfl
@[simp] theorem setConns_net_evs (h : Head) (x : List Conn) : (h.setConns x).net.evs = h.net.evs := rfl
@[simp] theorem setConns_net_goneOut (h : Head) (x : List Conn) : (h.setConns x).net.goneOut = h.net.goneOut := rfl

/-! ### setWindows -/

@[simp] theorem setWindows_windows (h : Head) (x : List Window) : (h.setWindows x).net.windows = x := rfl
@[simp] theorem setWindows_core (h : Head) (x : List Window) : (h.setWindows x).core = h.core := rfl
@[simp] theorem setWindows_regs (h : Head) (x : List Window) : (h.setWindows x).regs = h.regs := rfl
@[simp] theorem setWindows_rcd (h : Head) (x : List Window) : (h.setWindows x).rcd = h.rcd := rfl
@[simp] theorem setWindows_work (h : Head) (x : List Window) : (h.setWindows x).work = h.work := rfl
@[simp] theorem setWindows_vols (h : Head) (x : List Window) : (h.setWindows x).vols = h.vols := rfl
@[simp] theorem setWindows_pair (h : Head) (x : List Window) : (h.setWindows x).pair = h.pair := rfl
@[simp] theorem setWindows_red (h : Head) (x : List Window) : (h.setWindows x).red = h.red := rfl
@[simp] theorem setWindows_fl (h : Head) (x : List Window) : (h.setWindows x).fl = h.fl := rfl
@[simp] theorem setWindows_tape (h : Head) (x : List Window) : (h.setWindows x).tape = h.tape := rfl
@[simp] theorem setWindows_keys (h : Head) (x : List Window) : (h.setWindows x).keys = h.keys := rfl
@[simp] theorem setWindows_sys (h : Head) (x : List Window) : (h.setWindows x).sys = h.sys := rfl
@[simp] theorem setWindows_now (h : Head) (x : List Window) : (h.setWindows x).now = h.now := rfl
@[simp] theorem setWindows_tset (h : Head) (x : List Window) : (h.setWindows x).tset = h.tset := rfl
@[simp] theorem setWindows_reply (h : Head) (x : List Window) : (h.setWindows x).reply = h.reply := rfl
@[simp] theorem setWindows_out (h : Head) (x : List Window) : (h.setWindows x).out = h.out := rfl
@[simp] theorem setWindows_fresh (h : Head) (x : List Window) : (h.setWindows x).fresh = h.fresh := rfl
@[simp] theorem setWindows_net_conns (h : Head) (x : List Window) : (h.setWindows x).net.conns = h.net.conns := rfl
@[simp] theorem setWindows_net_paths (h : Head) (x : List Window) : (h.setWindows x).net.paths = h.net.paths := rfl
@[simp] theorem setWindows_net_up (h : Head) (x : List Window) : (h.setWindows x).net.up = h.net.up := rfl
@[simp] theorem setWindows_net_addrs (h : Head) (x : List Window) : (h.setWindows x).net.addrs = h.net.addrs := rfl
@[simp] theorem setWindows_net_hellos (h : Head) (x : List Window) : (h.setWindows x).net.hellos = h.net.hellos := rfl
@[simp] theorem setWindows_net_proofs (h : Head) (x : List Window) : (h.setWindows x).net.proofs = h.net.proofs := rfl
@[simp] theorem setWindows_net_unk (h : Head) (x : List Window) : (h.setWindows x).net.unk = h.net.unk := rfl
@[simp] theorem setWindows_net_echo (h : Head) (x : List Window) : (h.setWindows x).net.echo = h.net.echo := rfl
@[simp] theorem setWindows_net_paused (h : Head) (x : List Window) : (h.setWindows x).net.paused = h.net.paused := rfl
@[simp] theorem setWindows_net_txq (h : Head) (x : List Window) : (h.setWindows x).net.txq = h.net.txq := rfl
@[simp] theorem setWindows_net_recent (h : Head) (x : List Window) : (h.setWindows x).net.recent = h.net.recent := rfl
@[simp] theorem setWindows_net_evs (h : Head) (x : List Window) : (h.setWindows x).net.evs = h.net.evs := rfl
@[simp] theorem setWindows_net_goneOut (h : Head) (x : List Window) : (h.setWindows x).net.goneOut = h.net.goneOut := rfl

/-! ### setExtents -/

@[simp] theorem setExtents_extents (h : Head) (x : List Extent) : (h.setExtents x).red.extents = x := rfl
@[simp] theorem setExtents_core (h : Head) (x : List Extent) : (h.setExtents x).core = h.core := rfl
@[simp] theorem setExtents_regs (h : Head) (x : List Extent) : (h.setExtents x).regs = h.regs := rfl
@[simp] theorem setExtents_rcd (h : Head) (x : List Extent) : (h.setExtents x).rcd = h.rcd := rfl
@[simp] theorem setExtents_work (h : Head) (x : List Extent) : (h.setExtents x).work = h.work := rfl
@[simp] theorem setExtents_net (h : Head) (x : List Extent) : (h.setExtents x).net = h.net := rfl
@[simp] theorem setExtents_vols (h : Head) (x : List Extent) : (h.setExtents x).vols = h.vols := rfl
@[simp] theorem setExtents_pair (h : Head) (x : List Extent) : (h.setExtents x).pair = h.pair := rfl
@[simp] theorem setExtents_fl (h : Head) (x : List Extent) : (h.setExtents x).fl = h.fl := rfl
@[simp] theorem setExtents_tape (h : Head) (x : List Extent) : (h.setExtents x).tape = h.tape := rfl
@[simp] theorem setExtents_keys (h : Head) (x : List Extent) : (h.setExtents x).keys = h.keys := rfl
@[simp] theorem setExtents_sys (h : Head) (x : List Extent) : (h.setExtents x).sys = h.sys := rfl
@[simp] theorem setExtents_now (h : Head) (x : List Extent) : (h.setExtents x).now = h.now := rfl
@[simp] theorem setExtents_tset (h : Head) (x : List Extent) : (h.setExtents x).tset = h.tset := rfl
@[simp] theorem setExtents_reply (h : Head) (x : List Extent) : (h.setExtents x).reply = h.reply := rfl
@[simp] theorem setExtents_out (h : Head) (x : List Extent) : (h.setExtents x).out = h.out := rfl
@[simp] theorem setExtents_fresh (h : Head) (x : List Extent) : (h.setExtents x).fresh = h.fresh := rfl
@[simp] theorem setExtents_red_gear (h : Head) (x : List Extent) : (h.setExtents x).red.gear = h.red.gear := rfl
@[simp] theorem setExtents_red_huff (h : Head) (x : List Extent) : (h.setExtents x).red.huff = h.red.huff := rfl
@[simp] theorem setExtents_red_huffV (h : Head) (x : List Extent) : (h.setExtents x).red.huffV = h.red.huffV := rfl
@[simp] theorem setExtents_red_gslots (h : Head) (x : List Extent) : (h.setExtents x).red.gslots = h.red.gslots := rfl
@[simp] theorem setExtents_red_hot (h : Head) (x : List Extent) : (h.setExtents x).red.hot = h.red.hot := rfl
@[simp] theorem setExtents_red_cold (h : Head) (x : List Extent) : (h.setExtents x).red.cold = h.red.cold := rfl
@[simp] theorem setExtents_red_unread (h : Head) (x : List Extent) : (h.setExtents x).red.unread = h.red.unread := rfl
@[simp] theorem setExtents_red_nextExt (h : Head) (x : List Extent) : (h.setExtents x).red.nextExt = h.red.nextExt := rfl
@[simp] theorem setExtents_red_evicted (h : Head) (x : List Extent) : (h.setExtents x).red.evicted = h.red.evicted := rfl
@[simp] theorem setExtents_red_units (h : Head) (x : List Extent) : (h.setExtents x).red.units = h.red.units := rfl
@[simp] theorem setExtents_red_waits (h : Head) (x : List Extent) : (h.setExtents x).red.waits = h.red.waits := rfl
@[simp] theorem setExtents_red_opened (h : Head) (x : List Extent) : (h.setExtents x).red.opened = h.red.opened := rfl
@[simp] theorem setExtents_red_clook (h : Head) (x : List Extent) : (h.setExtents x).red.clook = h.red.clook := rfl
@[simp] theorem setExtents_red_coldB (h : Head) (x : List Extent) : (h.setExtents x).red.coldB = h.red.coldB := rfl
/-! ### What the outside sees -/

@[simp] theorem emit_core (h : Head) (o : Output) : (h.emit o).core = h.core := rfl
@[simp] theorem emit_regs (h : Head) (o : Output) : (h.emit o).regs = h.regs := rfl
@[simp] theorem emit_rcd (h : Head) (o : Output) : (h.emit o).rcd = h.rcd := rfl
@[simp] theorem emit_work (h : Head) (o : Output) : (h.emit o).work = h.work := rfl
@[simp] theorem emit_net (h : Head) (o : Output) : (h.emit o).net = h.net := rfl
@[simp] theorem emit_vols (h : Head) (o : Output) : (h.emit o).vols = h.vols := rfl
@[simp] theorem emit_pair (h : Head) (o : Output) : (h.emit o).pair = h.pair := rfl
@[simp] theorem emit_red (h : Head) (o : Output) : (h.emit o).red = h.red := rfl
@[simp] theorem emit_fl (h : Head) (o : Output) : (h.emit o).fl = h.fl := rfl
@[simp] theorem emit_tape (h : Head) (o : Output) : (h.emit o).tape = h.tape := rfl
@[simp] theorem emit_keys (h : Head) (o : Output) : (h.emit o).keys = h.keys := rfl
@[simp] theorem emit_sys (h : Head) (o : Output) : (h.emit o).sys = h.sys := rfl
@[simp] theorem emit_now (h : Head) (o : Output) : (h.emit o).now = h.now := rfl
@[simp] theorem emit_tset (h : Head) (o : Output) : (h.emit o).tset = h.tset := rfl
@[simp] theorem emit_reply (h : Head) (o : Output) : (h.emit o).reply = h.reply := rfl
@[simp] theorem emit_fresh (h : Head) (o : Output) : (h.emit o).fresh = h.fresh := rfl
@[simp] theorem answer_reply (h : Head) (st : Status) (v : Word) (b : List Byte) : (h.answer st v b).reply = some ⟨st, v, b⟩ := rfl
@[simp] theorem answer_core (h : Head) (st : Status) (v : Word) (b : List Byte) : (h.answer st v b).core = h.core := rfl
@[simp] theorem answer_regs (h : Head) (st : Status) (v : Word) (b : List Byte) : (h.answer st v b).regs = h.regs := rfl
@[simp] theorem answer_rcd (h : Head) (st : Status) (v : Word) (b : List Byte) : (h.answer st v b).rcd = h.rcd := rfl
@[simp] theorem answer_work (h : Head) (st : Status) (v : Word) (b : List Byte) : (h.answer st v b).work = h.work := rfl
@[simp] theorem answer_net (h : Head) (st : Status) (v : Word) (b : List Byte) : (h.answer st v b).net = h.net := rfl
@[simp] theorem answer_vols (h : Head) (st : Status) (v : Word) (b : List Byte) : (h.answer st v b).vols = h.vols := rfl
@[simp] theorem answer_pair (h : Head) (st : Status) (v : Word) (b : List Byte) : (h.answer st v b).pair = h.pair := rfl
@[simp] theorem answer_red (h : Head) (st : Status) (v : Word) (b : List Byte) : (h.answer st v b).red = h.red := rfl
@[simp] theorem answer_fl (h : Head) (st : Status) (v : Word) (b : List Byte) : (h.answer st v b).fl = h.fl := rfl
@[simp] theorem answer_tape (h : Head) (st : Status) (v : Word) (b : List Byte) : (h.answer st v b).tape = h.tape := rfl
@[simp] theorem answer_keys (h : Head) (st : Status) (v : Word) (b : List Byte) : (h.answer st v b).keys = h.keys := rfl
@[simp] theorem answer_sys (h : Head) (st : Status) (v : Word) (b : List Byte) : (h.answer st v b).sys = h.sys := rfl
@[simp] theorem answer_now (h : Head) (st : Status) (v : Word) (b : List Byte) : (h.answer st v b).now = h.now := rfl
@[simp] theorem answer_tset (h : Head) (st : Status) (v : Word) (b : List Byte) : (h.answer st v b).tset = h.tset := rfl
@[simp] theorem answer_out (h : Head) (st : Status) (v : Word) (b : List Byte) : (h.answer st v b).out = h.out := rfl
@[simp] theorem answer_fresh (h : Head) (st : Status) (v : Word) (b : List Byte) : (h.answer st v b).fresh = h.fresh := rfl
@[simp] theorem tick_fresh (h : Head) : h.tick.fresh = h.fresh + 1 := rfl
@[simp] theorem tick_core (h : Head) : (h.tick).core = h.core := rfl
@[simp] theorem tick_regs (h : Head) : (h.tick).regs = h.regs := rfl
@[simp] theorem tick_rcd (h : Head) : (h.tick).rcd = h.rcd := rfl
@[simp] theorem tick_work (h : Head) : (h.tick).work = h.work := rfl
@[simp] theorem tick_net (h : Head) : (h.tick).net = h.net := rfl
@[simp] theorem tick_vols (h : Head) : (h.tick).vols = h.vols := rfl
@[simp] theorem tick_pair (h : Head) : (h.tick).pair = h.pair := rfl
@[simp] theorem tick_red (h : Head) : (h.tick).red = h.red := rfl
@[simp] theorem tick_fl (h : Head) : (h.tick).fl = h.fl := rfl
@[simp] theorem tick_tape (h : Head) : (h.tick).tape = h.tape := rfl
@[simp] theorem tick_keys (h : Head) : (h.tick).keys = h.keys := rfl
@[simp] theorem tick_sys (h : Head) : (h.tick).sys = h.sys := rfl
@[simp] theorem tick_now (h : Head) : (h.tick).now = h.now := rfl
@[simp] theorem tick_tset (h : Head) : (h.tick).tset = h.tset := rfl
@[simp] theorem tick_reply (h : Head) : (h.tick).reply = h.reply := rfl
@[simp] theorem tick_out (h : Head) : (h.tick).out = h.out := rfl
@[simp] theorem setThread_regs (h : Head) (t : Nat) (x : Thread) : (h.setThread t x).regs = h.regs := rfl
@[simp] theorem setThread_rcd (h : Head) (t : Nat) (x : Thread) : (h.setThread t x).rcd = h.rcd := rfl
@[simp] theorem setThread_work (h : Head) (t : Nat) (x : Thread) : (h.setThread t x).work = h.work := rfl
@[simp] theorem setThread_net (h : Head) (t : Nat) (x : Thread) : (h.setThread t x).net = h.net := rfl
@[simp] theorem setThread_vols (h : Head) (t : Nat) (x : Thread) : (h.setThread t x).vols = h.vols := rfl
@[simp] theorem setThread_pair (h : Head) (t : Nat) (x : Thread) : (h.setThread t x).pair = h.pair := rfl
@[simp] theorem setThread_red (h : Head) (t : Nat) (x : Thread) : (h.setThread t x).red = h.red := rfl
@[simp] theorem setThread_fl (h : Head) (t : Nat) (x : Thread) : (h.setThread t x).fl = h.fl := rfl
@[simp] theorem setThread_tape (h : Head) (t : Nat) (x : Thread) : (h.setThread t x).tape = h.tape := rfl
@[simp] theorem setThread_keys (h : Head) (t : Nat) (x : Thread) : (h.setThread t x).keys = h.keys := rfl
@[simp] theorem setThread_sys (h : Head) (t : Nat) (x : Thread) : (h.setThread t x).sys = h.sys := rfl
@[simp] theorem setThread_now (h : Head) (t : Nat) (x : Thread) : (h.setThread t x).now = h.now := rfl
@[simp] theorem setThread_tset (h : Head) (t : Nat) (x : Thread) : (h.setThread t x).tset = h.tset := rfl
@[simp] theorem setThread_reply (h : Head) (t : Nat) (x : Thread) : (h.setThread t x).reply = h.reply := rfl
@[simp] theorem setThread_out (h : Head) (t : Nat) (x : Thread) : (h.setThread t x).out = h.out := rfl
@[simp] theorem setThread_fresh (h : Head) (t : Nat) (x : Thread) : (h.setThread t x).fresh = h.fresh := rfl
@[simp] theorem setThread_core_hwq (h : Head) (t : Nat) (x : Thread) : (h.setThread t x).core.hwq = h.core.hwq := rfl
@[simp] theorem setThread_core_l1 (h : Head) (t : Nat) (x : Thread) : (h.setThread t x).core.l1 = h.core.l1 := rfl
@[simp] theorem setThread_core_l2 (h : Head) (t : Nat) (x : Thread) : (h.setThread t x).core.l2 = h.core.l2 := rfl
@[simp] theorem setThread_core_hbm (h : Head) (t : Nat) (x : Thread) : (h.setThread t x).core.hbm = h.core.hbm := rfl
@[simp] theorem setThread_core_hbmP (h : Head) (t : Nat) (x : Thread) : (h.setThread t x).core.hbmP = h.core.hbmP := rfl
@[simp] theorem setThread_core_scr (h : Head) (t : Nat) (x : Thread) : (h.setThread t x).core.scr = h.core.scr := rfl
@[simp] theorem setThread_core_scrP (h : Head) (t : Nat) (x : Thread) : (h.setThread t x).core.scrP = h.core.scrP := rfl
@[simp] theorem setThread_core_chk (h : Head) (t : Nat) (x : Thread) : (h.setThread t x).core.chk = h.core.chk := rfl
@[simp] theorem setThread_core_raw (h : Head) (t : Nat) (x : Thread) : (h.setThread t x).core.raw = h.core.raw := rfl
@[simp] theorem setThread_core_pools (h : Head) (t : Nat) (x : Thread) : (h.setThread t x).core.pools = h.core.pools := rfl
@[simp] theorem setThread_core_ecc (h : Head) (t : Nat) (x : Thread) : (h.setThread t x).core.ecc = h.core.ecc := rfl
@[simp] theorem setThread_core_scrubNow (h : Head) (t : Nat) (x : Thread) : (h.setThread t x).core.scrubNow = h.core.scrubNow := rfl
@[simp] theorem setThread_core_scrubPrev (h : Head) (t : Nat) (x : Thread) : (h.setThread t x).core.scrubPrev = h.core.scrubPrev := rfl
@[simp] theorem setThread_core_psFail (h : Head) (t : Nat) (x : Thread) : (h.setThread t x).core.psFail = h.core.psFail := rfl
@[simp] theorem setThread_core_psPeer (h : Head) (t : Nat) (x : Thread) : (h.setThread t x).core.psPeer = h.core.psPeer := rfl
@[simp] theorem setThread_core_psUnc (h : Head) (t : Nat) (x : Thread) : (h.setThread t x).core.psUnc = h.core.psUnc := rfl

/-! ## Threads -/

@[simp] theorem reg_zero (x : Thread) : x.reg 0 = 0 := rfl
@[simp] theorem setReg_zero (x : Thread) (v : Word) : x.setReg 0 v = x := rfl
@[simp] theorem pred_zero (x : Thread) : x.pred 0 = true := rfl
@[simp] theorem fetched_threads (h : Head) (t : Nat) : (h.fetched t).core.threads = h.core.threads := by
  unfold Head.fetched; simp only []; split <;> rfl
@[simp] theorem fetched_thread (h : Head) (t n : Nat) : (h.fetched t).thread n = h.thread n := by simp [Head.thread]

end Sys2Proof.Machine
end

