-- ==== Sys2Proof/Laws/Issue.lean ====
section
/-! SUPPORT. The shared operations of instructions, verbs, register writes and SMBus transfers: what each answers where its checks
pass, and what it can answer at all. -/

namespace Sys2Proof.Machine

/-! ## Instructions -/

/-- Where an instruction takes effect, its effect falls on the head as fetched and its thread. -/
theorem entry_takesEffect (h : Head) (t : Nat) (c : Common) (legal : Bool) (low : Tier) (uses : List Nat)
    (hr : h.takesEffect t c legal low uses = true) : h.entry t c legal low uses = .inr (h.fetched t, h.thread t) := by
  simp only [Head.takesEffect, Bool.and_eq_true, Bool.not_eq_true'] at hr
  obtain ⟨⟨⟨⟨⟨⟨h1, h2⟩, h8, h3⟩, h4⟩, h5⟩, h6⟩, h7⟩ := hr
  simp only [Head.entry, h1, fetched_thread, h2, h3, h4, h5, h6, h7, h8, Bool.not_true, Bool.or_self, Bool.and_false, Bool.false_eq_true, if_false]

/-- An instruction that takes effect finishes as its effect says. -/
theorem issue_takesEffect (h : Head) (t : Nat) (c : Common) (legal : Bool) (low : Tier) (uses : List Nat)
    (body : Head → Thread → Iss) (hr : h.takesEffect t c legal low uses = true) :
    h.issue t c legal low uses body = (h.fetched t).finish t c (h.thread t) (body (h.fetched t) (h.thread t)) := by
  simp only [Head.issue, entry_takesEffect h t c legal low uses hr]

/-- As `issue_takesEffect`, for an effect that may be undefined. -/
theorem issueE_takesEffect (h : Head) (t : Nat) (c : Common) (legal : Bool) (low : Tier) (uses : List Nat)
    (body : Head → Thread → Except Fault Iss) (hr : h.takesEffect t c legal low uses = true) (i : Iss)
    (hb : body (h.fetched t) (h.thread t) = .ok i) :
    h.issueE t c legal low uses body = .ok ((h.fetched t).finish t c (h.thread t) i) := by
  simp only [Head.issueE, entry_takesEffect h t c legal low uses hr, hb]

/-- A thread that cannot issue leaves the head as it is. -/
theorem issue_stalled (h : Head) (t : Nat) (c : Common) (legal : Bool) (low : Tier) (uses : List Nat)
    (body : Head → Thread → Iss) (hr : h.canIssue t = false) : h.issue t c legal low uses body = h := by
  simp only [Head.issue, Head.entry, hr, Bool.not_false, if_true]

/-- A computing instruction that takes effect. -/
theorem compute_takesEffect (h : Head) (t : Nat) (c : Common) (legal : Bool) (uses : List Nat) (f : Thread → Thread)
    (hr : h.takesEffect t c legal .O uses = true) :
    h.compute t c legal uses f = (h.fetched t).finish t c (h.thread t) (.go ((h.fetched t).setThread t (f (h.thread t)))) := by
  simp only [Head.compute, issue_takesEffect h t c legal .O uses _ hr]

/-! ## Instructions that leave their thread inside its program -/

/-- A running thread that was replaced reads as it was written. -/
theorem thread_setThread (h : Head) (t : Nat) (x : Thread) (hx : x.run = .running) : (h.setThread t x).thread t = x :=
  look_place_new _ _ _ _ (fun e => by rw [e] at hx; exact absurd hx (by decide))

/-- A replaced thread leaves every other one. -/
theorem thread_setThread_other (h : Head) (t n : Nat) (x : Thread) (hn : n ≠ t) : (h.setThread t x).thread n = h.thread n :=
  look_place_other _ _ _ _ _ hn

/-- Replacing a thread changes only that thread. -/
theorem onlyThread_setThread (h k : Head) (t : Nat) (x : Thread) (hk : h.onlyThread k t) : h.onlyThread (k.setThread t x) t := by
  obtain ⟨h1, h2⟩ := hk
  refine ⟨?_, fun n hn => by rw [thread_setThread_other _ _ _ _ hn, h2 n hn]⟩
  rw [h1]; rfl

/-- An instruction that leaves its thread running inside its program ends with PC at `pc` and one more instruction counted. -/
theorem finish_inside (h : Head) (t : Nat) (x : Thread) (pc : Word) (hr : x.run = .running) (hp : x.outside pc = false) :
    ((((h.setThread t x).counted t).moveTo t pc).afterIssue t).thread t =
        { x with pc := pc, icount := (x.icount + 1) % 2 ^ 64 } ∧
      h.onlyThread ((((h.setThread t x).counted t).moveTo t pc).afterIssue t) t := by
  have h1 : (h.setThread t x).counted t = (h.setThread t x).setThread t { x with icount := (x.icount + 1) % 2 ^ 64 } := by
    unfold Head.counted
    rw [thread_setThread h t x hr]
  have h2 : ((h.setThread t x).counted t).moveTo t pc =
      ((h.setThread t x).counted t).setThread t { x with pc := pc, icount := (x.icount + 1) % 2 ^ 64 } := by
    unfold Head.moveTo
    have e : ((h.setThread t x).counted t).thread t = { x with icount := (x.icount + 1) % 2 ^ 64 } := by
      rw [h1]; exact thread_setThread _ _ _ hr
    have hp' : (x.buf && decide (8 * x.len ≤ pc.toNat)) = false := hp
    simp only [e, hp', Bool.false_and, Bool.false_eq_true, if_false]
  have h3 : (((h.setThread t x).counted t).moveTo t pc).afterIssue t = ((h.setThread t x).counted t).moveTo t pc := by
    unfold Head.afterIssue
    rw [h2, thread_setThread _ _ _ (by exact hr)]
    simp only [hr, if_true]
  rw [h3, h2]
  refine ⟨thread_setThread _ _ _ hr, onlyThread_setThread _ _ _ _ ?_⟩
  rw [h1]
  exact onlyThread_setThread _ _ _ _ (onlyThread_setThread _ _ _ _ ⟨rfl, fun _ _ => rfl⟩)

/-- An instruction that takes effect runs on a running thread. -/
theorem takesEffect_running (h : Head) (t : Nat) (c : Common) (legal : Bool) (low : Tier) (uses : List Nat)
    (hr : h.takesEffect t c legal low uses = true) : (h.thread t).run = .running := by
  simp only [Head.takesEffect, Head.canIssue, Bool.and_eq_true, decide_eq_true_eq] at hr
  exact hr.1.1.1.1.1.1.1.1.2

/-- A computing instruction that takes effect and has a word after it. -/
theorem computes_of_steps (s : State) (i : Instr) (t : Nat) (c : Common) (legal : Bool) (uses : List Nat) (f : Thread → Thread)
    (hi : exec i s = s.run (fun h => h.compute t c legal uses f)) (hs : s.head.steps t c legal .O uses = true)
    (hf : (f (s.head.thread t)).run = (s.head.thread t).run ∧ (f (s.head.thread t)).buf = (s.head.thread t).buf ∧
      (f (s.head.thread t)).len = (s.head.thread t).len ∧ (f (s.head.thread t)).icount = (s.head.thread t).icount) :
    s.computes i t f := by
  simp only [Head.steps, Head.goesOn, Bool.and_eq_true, Bool.not_eq_true'] at hs
  obtain ⟨h1, h2⟩ := hs
  have hr := takesEffect_running _ _ _ _ _ _ h1
  have hp : (f (s.head.thread t)).outside ((s.head.thread t).pc + 8) = false := by
    unfold Thread.outside at h2 ⊢
    rw [hf.2.1, hf.2.2.1]; exact h2
  have := finish_inside (s.head.fetched t) t (f (s.head.thread t)) ((s.head.thread t).pc + 8) (hf.1.trans hr) hp
  refine ⟨_, hi, rfl, ?_, ?_⟩
  · show (s.head.compute t c legal uses f).thread t = _
    rw [compute_takesEffect _ _ _ _ _ _ h1, Head.finish, this.1, hf.2.2.2]
  · show (s.head.fetched t).onlyThread (s.head.compute t c legal uses f) t
    rw [compute_takesEffect _ _ _ _ _ _ h1]
    exact this.2

/-! ## Verbs -/

/-- A verb that is issued, and begins, does what its code says. -/
theorem hostVerb_begins (h : Head) (t vc mask : Nat) (counts : List Nat) (w : VWord) (run : Head → HVerb → Head)
    (hr : h.takesEffect t w.common (verbLegal mask w) .O (verbUses w) = true) (hf : (h.fetched t).roomFor (h.thread t) = true)
    (hb : (((h.fetched t).verbIssued (h.thread t) t vc w).1.begins ((h.fetched t).verbIssued (h.thread t) t vc w).2
      (h.thread t).tier counts) = true) :
    h.hostVerb t vc mask counts w run = (h.fetched t).finish t w.common (h.thread t)
      (.act (run ((h.fetched t).verbIssued (h.thread t) t vc w).1 ((h.fetched t).verbIssued (h.thread t) t vc w).2)) := by
  rw [Head.hostVerb, issue_takesEffect h t w.common (verbLegal mask w) .O (verbUses w) _ hr]
  simp only [Head.roomFor, Bool.not_eq_true'] at hf
  simp only [Head.begins, Bool.and_eq_true, Bool.not_eq_true', Option.isNone_iff_eq_none] at hb
  obtain ⟨⟨⟨⟨b1, b0⟩, b2⟩, b3⟩, b4⟩ := hb
  simp only [Head.issueVerb, hf, Bool.false_eq_true, if_false, Head.beginVerb, b1, b0, b2, b3, b4, Bool.not_true, Bool.or_false]

/-- A unit verb that is issued at tier F, and names a number of operands that Table 2-12 gives, does what its code says. -/
theorem unitVerb_begins (h : Head) (t vc mask : Nat) (counts : List Nat) (w : VWord) (run : Head → HVerb → Head)
    (hr : h.takesEffect t w.common (verbLegal mask w) .F (verbUses w) = true) (hf : (h.fetched t).roomFor (h.thread t) = true)
    (hb : counts.contains ((h.fetched t).verbIssued (h.thread t) t vc w).2.ops.length = true) :
    h.unitVerb t vc mask counts w run = (h.fetched t).finish t w.common (h.thread t)
      (.act (run ((h.fetched t).verbIssued (h.thread t) t vc w).1 ((h.fetched t).verbIssued (h.thread t) t vc w).2)) := by
  rw [Head.unitVerb, issue_takesEffect h t w.common (verbLegal mask w) .F (verbUses w) _ hr]
  simp only [Head.roomFor, Bool.not_eq_true'] at hf
  simp only [Head.issueVerb, hf, Bool.false_eq_true, if_false, hb, if_true]

/-- A host verb that starts, as a command. -/
theorem hostVerb_starts (s : State) (t vc mask : Nat) (counts : List Nat) (w : VWord) (run : Head → HVerb → Head)
    (hs : s.head.verbStarts t vc mask counts w = true) :
    s.run (fun h => h.hostVerb t vc mask counts w run) = .next (s.verbRuns t vc w run) := by
  simp only [Head.verbStarts, Head.verbIssues, Bool.and_eq_true] at hs
  rw [run_eq, hostVerb_begins s.head t vc mask counts w run hs.1.1 hs.1.2 hs.2]
  rfl

/-- A unit verb that starts, as a command. -/
theorem unitVerb_starts (s : State) (t vc mask : Nat) (counts : List Nat) (w : VWord) (run : Head → HVerb → Head)
    (hs : s.head.unitStarts t vc mask counts w = true) :
    s.run (fun h => h.unitVerb t vc mask counts w run) = .next (s.verbRuns t vc w run) := by
  simp only [Head.unitStarts, Bool.and_eq_true] at hs
  rw [run_eq, unitVerb_begins s.head t vc mask counts w run hs.1.1 hs.1.2 hs.2]
  rfl

/-- Two ways to act that agree on the verb just issued give the same state. -/
theorem verbRuns_congr (s : State) (t vc : Nat) (w : VWord) (f g : Head → HVerb → Head)
    (h : f (s.verbHead t vc w) (s.verbNew t vc w) = g (s.verbHead t vc w) (s.verbNew t vc w)) :
    s.verbRuns t vc w f = s.verbRuns t vc w g := by
  simp only [State.verbRuns, h]

/-! ## Packets -/

/-- A packet that passes the receive checks has its effect on the head that heard it. -/
theorem rx_hears (h : Head) (k : Pkt) (c : Conn) (is : Bool) (takes fits : Conn → Bool) (body : Head → Conn → Head) (hk : h.hears k c)
    (hi : is = true) (ht : takes c = true) (hf : fits c = true) : h.rx k is takes fits body = body (h.heard k c) c := by
  obtain ⟨h1, h2, h3⟩ := hk
  simp only [Head.rx, Head.rxFrame, h1, h2, h3, hi, ht, hf, Bool.not_true, Bool.false_eq_true, if_false, if_true]
  rfl

/-- A new reliable packet is marked, has its effect, and may bring an ACK. -/
theorem rxReliable_new (h : Head) (k : Pkt) (c : Conn) (now_ : Bool) (process : Head → Head) (hn : c.isNew k = true) :
    h.rxReliable k c now_ process = (process (h.marked k c)).acksAfter k c.num now_ := by
  simp only [Conn.isNew, Bool.and_eq_true, decide_eq_true_eq] at hn
  simp only [Head.rxReliable, hn, and_self, if_true, Head.marked, Head.acksAfter]
  rfl

/-! ## Register writes -/

/-- A write that passes the checks of R40 answers what its effect answers, with its record. -/
theorem writeWith_accepts (h : Head) (c : Caller) (d : RegDef) (i : Nat) (v : Word) (act : Head → WriteResult)
    (ha : h.accepts c d i v = true) (k : Head) (st : Status) (hk : act h = .ok (k, st)) :
    h.writeWith c d i v act = .ok (k.auditReg c d i st false, st) := by
  simp only [Head.accepts, Option.isNone_iff_eq_none] at ha
  simp only [Head.writeWith, ha, hk]

/-- A write that fails a check changes nothing but its record. -/
theorem writeWith_refused (h : Head) (c : Caller) (d : RegDef) (i : Nat) (v : Word) (act : Head → WriteResult) (st : Status)
    (ha : h.writeCheck c d i v = some st) : h.writeWith c d i v act = .ok (h.auditReg c d i st false, st) := by
  simp only [Head.writeWith, ha]

/-- A register write that came as a command. -/
theorem write_wrote (s : State) (c : Caller) (d : RegDef) (i : Nat) (v : Word) (act : Head → WriteResult)
    (ha : s.head.accepts c d i v = true) (k : Head) (st : Status) (hk : act s.head = .ok (k, st)) :
    s.write (fun h => h.writeWith c d i v act) = .next (s.wrote k c d i st) := by
  simp only [State.write, State.runE, writeWith_accepts s.head c d i v act ha k st hk]
  rfl

/-! ## SMBus -/

/-- A transfer whose PEC holds gives the read part of its command. -/
theorem smbus_ok (s : State) (after : Head → Head) (f : Head → SmbResult) (hm : s.head.runs 0 = true) (k : Head) (st : Status)
    (b : List Byte) (hk : f s.head = .ok (k, st, b)) :
    s.smbus true after f = .next (s.become ((if st = .ok then after (k.readPart st b) else k.readPart st b).settle)) := by
  simp only [State.smbus, State.runE, Head.smbus, hm, hk, Bool.not_true, Bool.false_eq_true, if_false]
  rfl

end Sys2Proof.Machine
end

