-- ==== Sys2Proof/Laws/PerInstr.lean ====
section
/-! SUPPORT. Every Twizon instruction is the one that its own word decodes to: the fields of the three formats read back as they
were written, and one lemma for each command. -/

namespace Sys2Proof.Laws

open Sys2Proof.Machine

/-- The fields of a word of format G read back. -/
theorem gOf_gWord (op : BitVec 6) (w : GWord) : gOf (gWord op w) = { w with pois := false, other := none } := by
  obtain ⟨p, pn, ps, rd, ra, rb, fn, imm, o⟩ := w
  simp only [gOf, gWord, GWord.mk.injEq]
  refine ⟨trivial, by simp only [BitVec.getLsbD_append]; simp, ?_, ?_, ?_, ?_, ?_, ?_, trivial⟩
  all_goals (simp (disch := omega) only [BitVec.extractLsb'_append_eq_of_le, BitVec.extractLsb'_append_eq_of_add_le])
  all_goals exact BitVec.extractLsb'_eq_self

/-- OP of a word of format G. -/
theorem op_gWord (op : BitVec 6) (w : GWord) : (gWord op w).extractLsb' 58 6 = op := by
  simp only [gWord]
  simp (disch := omega) only [BitVec.extractLsb'_append_eq_of_le]
  exact BitVec.extractLsb'_eq_self

/-- The fields of a word of format W read back. -/
theorem wOf_wWord (op : BitVec 6) (w : WWord) (h : w.pois = false) : wOf (wWord op w) = w := by
  obtain ⟨p, pn, ps, rd, res, imm⟩ := w
  subst h
  simp only [wOf, wWord, WWord.mk.injEq]
  refine ⟨trivial, by simp only [BitVec.getLsbD_append]; simp, ?_, ?_, by simp only [BitVec.getLsbD_append]; simp, ?_⟩
  all_goals (simp (disch := omega) only [BitVec.extractLsb'_append_eq_of_le, BitVec.extractLsb'_append_eq_of_add_le])
  all_goals exact BitVec.extractLsb'_eq_self

/-- OP of a word of format W. -/
theorem op_wWord (op : BitVec 6) (w : WWord) : (wWord op w).extractLsb' 58 6 = op := by
  simp only [wWord]
  simp (disch := omega) only [BitVec.extractLsb'_append_eq_of_le]
  exact BitVec.extractLsb'_eq_self

/-- The fields of a word of format V read back. -/
theorem vOf_vWord (op : BitVec 6) (vc : BitVec 8) (w : VWord) : vOf (vWord op vc w) = { w with pois := false, other := none } := by
  obtain ⟨p, pn, ps, rd, ra, no, ww, imm, o⟩ := w
  simp only [vOf, vWord, VWord.mk.injEq]
  refine ⟨trivial, by simp only [BitVec.getLsbD_append]; simp, ?_, ?_, ?_, ?_, by simp only [BitVec.getLsbD_append]; simp, ?_, trivial⟩
  all_goals (simp (disch := omega) only [BitVec.extractLsb'_append_eq_of_le, BitVec.extractLsb'_append_eq_of_add_le])
  all_goals exact BitVec.extractLsb'_eq_self

/-- OP of a word of format V. -/
theorem op_vWord (op : BitVec 6) (vc : BitVec 8) (w : VWord) : (vWord op vc w).extractLsb' 58 6 = op := by
  simp only [vWord]
  simp (disch := omega) only [BitVec.extractLsb'_append_eq_of_le]
  exact BitVec.extractLsb'_eq_self

/-- VC of a word of format V. -/
theorem vc_vWord (op : BitVec 6) (vc : BitVec 8) (w : VWord) : (vWord op vc w).extractLsb' 33 8 = vc := by
  simp only [vWord]
  simp (disch := omega) only [BitVec.extractLsb'_append_eq_of_le, BitVec.extractLsb'_append_eq_of_add_le]
  exact BitVec.extractLsb'_eq_self

end Sys2Proof.Laws

namespace Sys2Proof.Laws.Shape

set_option Elab.async false

open Sys2Proof.Machine Sys2Proof.Laws

/-- The word of a Twizon instruction decodes to the instruction. -/
def Statement (i : Instr) : Prop :=
  twForm i = true → ∀ x, twWord i = some x → twDecode (twThread i).1 (twThread i).2 x = some i

/-- A word that holds its row's codes and no poison is what its fields read back as. -/
theorem plainG {w : GWord} (h : w.plain = true) : ({ w with pois := false, other := none } : GWord) = w := by
  obtain ⟨p, pn, ps, rd, ra, rb, fn, imm, o⟩ := w
  simp only [GWord.plain, Bool.and_eq_true, Bool.not_eq_true', Option.isNone_iff_eq_none] at h
  rw [h.1, h.2]

theorem plainV {w : VWord} (h : w.plain = true) : ({ w with pois := false, other := none } : VWord) = w := by
  obtain ⟨p, pn, ps, rd, ra, no, ww, imm, o⟩ := w
  simp only [VWord.plain, Bool.and_eq_true, Bool.not_eq_true', Option.isNone_iff_eq_none] at h
  rw [h.1, h.2]

theorem noPois {b : Bool} (h : (!b) = true) : b = false := by simpa using h

theorem and_left {b d : Bool} (h : (b && d) = true) : b = true := by simp only [Bool.and_eq_true] at h; exact h.1

theorem fieldIs {n : Nat} {b : Bool} {x k : BitVec n} (h : (b && decide (x = k)) = true) : x = k := by
  simp only [Bool.and_eq_true, decide_eq_true_eq] at h; exact h.2

theorem notIn {b d : Bool} (h : (b && !d) = true) : d = false := by
  simp only [Bool.and_eq_true, Bool.not_eq_true'] at h; exact h.2

theorem fieldNot {n : Nat} {b : Bool} {x k : BitVec n} (h : (b && decide (x ≠ k)) = true) : x ≠ k := by
  simp only [Bool.and_eq_true, decide_eq_true_eq] at h; exact h.2

/-- An instruction of format G that OP alone selects. -/
theorem of_g (f : GWord → Instr) (op : BitVec 6) (w : GWord) (hw : twWord (f w) = some (gWord op w))
    (hp : twForm (f w) = true → w.plain = true)
    (hd : ∀ x, opDecode (twThread (f w)).1 (twThread (f w)).2 op.toNat x = some (f (gOf x))) : Statement (f w) := by
  intro hf x hx
  rw [hw, Option.some.injEq] at hx
  subst hx
  rw [twDecode, op_gWord, hd, gOf_gWord op w, plainG (hp hf)]

/-- An instruction of format G that OP and FN select. -/
theorem of_fn (f : GWord → Instr) (op : BitVec 6) (w : GWord) (d : Nat → GWord → Option Instr)
    (hw : twWord (f w) = some (gWord op w))
    (ho : ∀ x, opDecode (twThread (f w)).1 (twThread (f w)).2 op.toNat x = d (gOf x).fn.toNat (gOf x))
    (hp : twForm (f w) = true → w.plain = true) (hd : twForm (f w) = true → d w.fn.toNat w = some (f w)) : Statement (f w) := by
  intro hf x hx
  rw [hw, Option.some.injEq] at hx
  subst hx
  rw [twDecode, op_gWord, ho, gOf_gWord op w, plainG (hp hf), hd hf]

/-- An instruction of format W. -/
theorem of_w (f : WWord → Instr) (op : BitVec 6) (w : WWord) (hw : twWord (f w) = some (wWord op w))
    (hp : twForm (f w) = true → w.pois = false)
    (hd : ∀ x, opDecode (twThread (f w)).1 (twThread (f w)).2 op.toNat x = some (f (wOf x))) : Statement (f w) := by
  intro hf x hx
  rw [hw, Option.some.injEq] at hx
  subst hx
  rw [twDecode, op_wWord, hd, wOf_wWord op w (hp hf)]

/-- A verb that VC selects. -/
theorem of_v (f : VWord → Instr) (vc : BitVec 8) (w : VWord) (hw : twWord (f w) = some (vWord 0x30 vc w))
    (hp : twForm (f w) = true → w.plain = true)
    (hd : twForm (f w) = true → vcDecode (twThread (f w)).1 vc.toNat w = some (f w)) : Statement (f w) := by
  intro hf x hx
  rw [hw, Option.some.injEq] at hx
  subst hx
  rw [twDecode, op_vWord]
  show vcDecode _ ((vWord 0x30 vc w).extractLsb' 33 8).toNat (vOf (vWord 0x30 vc w)) = _
  rw [vc_vWord, vOf_vWord 0x30 vc w, plainV (hp hf), hd hf]

theorem replicate_other (t : Nat) (w : VWord) (h1 : w.imm ≠ 1) (h2 : w.imm ≠ 2) :
    vcDecode t 0x0A w = some (.replicateStart t w) := by
  simp only [vcDecode]
  split
  · exact absurd (BitVec.eq_of_toNat_eq ‹_›) h1
  · exact absurd (BitVec.eq_of_toNat_eq ‹_›) h2
  · rfl

theorem doze_other (t : Nat) (w : VWord) (h1 : w.imm ≠ 1) : vcDecode t 0x19 w = some (.dozeLeave t w) := by
  simp only [vcDecode]
  split
  · exact absurd (BitVec.eq_of_toNat_eq ‹_›) h1
  · rfl

theorem aluReg (t : Nat) (w : GWord) : Statement (.aluReg t w) :=
  of_g (fun w => .aluReg t w) 0x01 w rfl id (fun _ => rfl)

theorem aluImm (t : Nat) (w : GWord) : Statement (.aluImm t w) :=
  of_g (fun w => .aluImm t w) 0x02 w rfl id (fun _ => rfl)

theorem li (t : Nat) (w : WWord) : Statement (.li t w) :=
  of_w (.li t) 0x03 w rfl noPois (fun _ => rfl)

theorem lih (t : Nat) (w : GWord) : Statement (.lih t w) :=
  of_g (fun w => .lih t w) 0x04 w rfl id (fun _ => rfl)

theorem cmpReg (t : Nat) (w : GWord) : Statement (.cmpReg t w) :=
  of_g (fun w => .cmpReg t w) 0x05 w rfl id (fun _ => rfl)

theorem cmpImm (t : Nat) (w : GWord) : Statement (.cmpImm t w) :=
  of_g (fun w => .cmpImm t w) 0x06 w rfl id (fun _ => rfl)

theorem ld (t : Nat) (w : GWord) (c : LdCheck) : Statement (.ld t w c) :=
  of_g (fun w => .ld t w c) 0x08 w rfl id (fun _ => rfl)

theorem st (t : Nat) (w : GWord) : Statement (.st t w) :=
  of_g (fun w => .st t w) 0x09 w rfl id (fun _ => rfl)

theorem amo (t : Nat) (w : GWord) : Statement (.amo t w) :=
  of_g (fun w => .amo t w) 0x0A w rfl id (fun _ => rfl)

theorem fence (t : Nat) (w : GWord) : Statement (.fence t w) :=
  of_g (fun w => .fence t w) 0x0B w rfl id (fun _ => rfl)

theorem br (t : Nat) (w : GWord) : Statement (.br t w) :=
  of_g (fun w => .br t w) 0x10 w rfl id (fun _ => rfl)

theorem call (t : Nat) (w : GWord) : Statement (.call t w) :=
  of_g (fun w => .call t w) 0x11 w rfl id (fun _ => rfl)

theorem jr (t : Nat) (w : GWord) : Statement (.jr t w) :=
  of_g (fun w => .jr t w) 0x12 w rfl id (fun _ => rfl)

theorem endp (t : Nat) (w : GWord) : Statement (.endp t w) :=
  of_g (fun w => .endp t w) 0x13 w rfl id (fun _ => rfl)

theorem waitv (t : Nat) (w : GWord) : Statement (.waitv t w) :=
  of_g (fun w => .waitv t w) 0x14 w rfl id (fun _ => rfl)

theorem trap (t : Nat) (w : GWord) : Statement (.trap t w) :=
  of_g (fun w => .trap t w) 0x15 w rfl id (fun _ => rfl)

/-- OP, VC and FN that no instruction has select the row that then raises ILLEGAL. -/
theorem opDecode_other {t op : Nat} {c : LdCheck} {x : Word} (h : opCodes.contains op = false) :
    opDecode t c op x = some (.nop t { gOf x with other := some (BitVec.ofNat 6 op) }) := by
  unfold opDecode
  split <;> first | rfl | (exfalso; revert h; decide)

theorem vcDecode_other {t vc : Nat} {w : VWord} (h : verbCodes.contains vc = false) :
    vcDecode t vc w = some (.put t { w with other := some (BitVec.ofNat 8 vc) }) := by
  unfold vcDecode
  split <;> first | rfl | (exfalso; revert h; decide)

theorem queueDecode_other {t fn : Nat} {w : GWord} (h : ([0x01, 0x02, 0x08, 0x09] : List Nat).contains fn = false) :
    queueDecode t fn w = some (.qput t w) := by
  unfold queueDecode
  split <;> first | rfl | (exfalso; revert h; decide)

theorem privDecode_other {t fn : Nat} {w : GWord}
    (h : ([0x01, 0x02, 0x03, 0x04, 0x05, 0x08, 0x09, 0x0A] : List Nat).contains fn = false) :
    privDecode t fn w = some (.eret t w) := by
  unfold privDecode
  split <;> first | rfl | (exfalso; revert h; decide)

theorem nop (t : Nat) (w : GWord) : Statement (.nop t w) := by
  intro hf x hx
  obtain ⟨p, pn, ps, rd, ra, rb, fn, imm, o⟩ := w
  simp only [twWord, Option.some.injEq] at hx
  subst hx
  simp only [twForm, Bool.and_eq_true, Bool.not_eq_true'] at hf
  obtain ⟨hp, ho⟩ := hf
  subst hp
  cases o with
  | none => rw [twDecode, op_gWord]; show some (Instr.nop t (gOf _)) = _; rw [gOf_gWord]
  | some o =>
    simp only [strayCode] at ho
    have hc : opCodes.contains o.toNat = false := by
      cases h : opCodes.contains o.toNat
      · rfl
      · rw [h] at ho; simp at ho
    rw [twDecode, op_gWord]
    show opDecode t _ o.toNat _ = _
    rw [opDecode_other hc, gOf_gWord]
    simp

theorem clrvs (t : Nat) (w : GWord) : Statement (.clrvs t w) :=
  of_g (fun w => .clrvs t w) 0x17 w rfl id (fun _ => rfl)

theorem qput (t : Nat) (w : GWord) : Statement (.qput t w) :=
  of_fn (.qput t) 0x18 w (queueDecode t) rfl (fun _ => rfl) and_left (fun h => queueDecode_other (notIn h))

theorem qget (t : Nat) (w : GWord) : Statement (.qget t w) :=
  of_fn (.qget t) 0x18 w (queueDecode t) rfl (fun _ => rfl) and_left (fun h => by rw [fieldIs h]; rfl)

theorem qtry (t : Nat) (w : GWord) : Statement (.qtry t w) :=
  of_fn (.qtry t) 0x18 w (queueDecode t) rfl (fun _ => rfl) and_left (fun h => by rw [fieldIs h]; rfl)

theorem sig (t : Nat) (w : GWord) : Statement (.sig t w) :=
  of_fn (.sig t) 0x18 w (queueDecode t) rfl (fun _ => rfl) and_left (fun h => by rw [fieldIs h]; rfl)

theorem waits (t : Nat) (w : GWord) : Statement (.waits t w) :=
  of_fn (.waits t) 0x18 w (queueDecode t) rfl (fun _ => rfl) and_left (fun h => by rw [fieldIs h]; rfl)

theorem eret (t : Nat) (w : GWord) : Statement (.eret t w) :=
  of_fn (.eret t) 0x28 w (privDecode t) rfl (fun _ => rfl) and_left (fun h => privDecode_other (notIn h))

theorem cinv (t : Nat) (w : GWord) : Statement (.cinv t w) :=
  of_fn (.cinv t) 0x28 w (privDecode t) rfl (fun _ => rfl) and_left (fun h => by rw [fieldIs h]; rfl)

theorem cwb (t : Nat) (w : GWord) : Statement (.cwb t w) :=
  of_fn (.cwb t) 0x28 w (privDecode t) rfl (fun _ => rfl) and_left (fun h => by rw [fieldIs h]; rfl)

theorem cwbi (t : Nat) (w : GWord) : Statement (.cwbi t w) :=
  of_fn (.cwbi t) 0x28 w (privDecode t) rfl (fun _ => rfl) and_left (fun h => by rw [fieldIs h]; rfl)

theorem iinv (t : Nat) (w : GWord) : Statement (.iinv t w) :=
  of_fn (.iinv t) 0x28 w (privDecode t) rfl (fun _ => rfl) and_left (fun h => by rw [fieldIs h]; rfl)

theorem lockfill (t : Nat) (w : GWord) : Statement (.lockfill t w) :=
  of_fn (.lockfill t) 0x28 w (privDecode t) rfl (fun _ => rfl) and_left (fun h => by rw [fieldIs h]; rfl)

theorem idle (t : Nat) (w : GWord) : Statement (.idle t w) :=
  of_fn (.idle t) 0x28 w (privDecode t) rfl (fun _ => rfl) and_left (fun h => by rw [fieldIs h]; rfl)

theorem halt (t : Nat) (w : GWord) : Statement (.halt t w) :=
  of_fn (.halt t) 0x28 w (privDecode t) rfl (fun _ => rfl) and_left (fun h => by rw [fieldIs h]; rfl)

theorem dispatch (t : Nat) (w : GWord) : Statement (.dispatch t w) :=
  of_fn (.dispatch t) 0x28 w (privDecode t) rfl (fun _ => rfl) and_left (fun h => by rw [fieldIs h]; rfl)

theorem stateGet (t : Nat) (w : GWord) : Statement (.stateGet t w) :=
  of_g (fun w => .stateGet t w) 0x20 w rfl id (fun _ => rfl)

theorem stateSet (t : Nat) (w : GWord) : Statement (.stateSet t w) :=
  of_g (fun w => .stateSet t w) 0x21 w rfl id (fun _ => rfl)

theorem verbComplete (a0 : Nat) (a1 : Nat) : Statement (.verbComplete a0 a1) := nofun
theorem put (t : Nat) (w : VWord) : Statement (.put t w) := by
  intro hf x hx
  obtain ⟨p, pn, ps, rd, ra, no, ww, imm, o⟩ := w
  simp only [twWord, Option.some.injEq] at hx
  subst hx
  simp only [twForm, Bool.and_eq_true, Bool.not_eq_true'] at hf
  obtain ⟨hp, ho⟩ := hf
  subst hp
  rw [twDecode, op_vWord]
  show vcDecode t ((vWord 0x30 _ _).extractLsb' 33 8).toNat (vOf _) = _
  rw [vc_vWord, vOf_vWord]
  cases o with
  | none => rfl
  | some o =>
    simp only [strayCode] at ho
    have hc : verbCodes.contains o.toNat = false := by
      cases h : verbCodes.contains o.toNat
      · rfl
      · rw [h] at ho; simp at ho
    show vcDecode t o.toNat _ = _
    rw [vcDecode_other hc]
    simp

theorem puta (t : Nat) (w : VWord) : Statement (.puta t w) :=
  of_v (.puta t)  0x02 w rfl id (fun _ => rfl)

theorem get (t : Nat) (w : VWord) : Statement (.get t w) :=
  of_v (.get t)  0x03 w rfl id (fun _ => rfl)

theorem flush (t : Nat) (w : VWord) : Statement (.flush t w) :=
  of_v (.flush t)  0x04 w rfl id (fun _ => rfl)

theorem mark (t : Nat) (w : VWord) : Statement (.mark t w) :=
  of_v (.mark t)  0x05 w rfl id (fun _ => rfl)

theorem drop (t : Nat) (w : VWord) : Statement (.drop t w) :=
  of_v (.drop t)  0x06 w rfl id (fun _ => rfl)

theorem sdrop (t : Nat) (w : VWord) : Statement (.sdrop t w) :=
  of_v (.sdrop t)  0x07 w rfl id (fun _ => rfl)

theorem snap (t : Nat) (w : VWord) : Statement (.snap t w) :=
  of_v (.snap t)  0x08 w rfl id (fun _ => rfl)

theorem clone (t : Nat) (w : VWord) : Statement (.clone t w) :=
  of_v (.clone t)  0x09 w rfl id (fun _ => rfl)

theorem replicateStart (t : Nat) (w : VWord) : Statement (.replicateStart t w) :=
  of_v (.replicateStart t)  0x0A w rfl (fun h => and_left (and_left h))
    (fun h => replicate_other t w (fieldNot (and_left h)) (fieldNot h))

theorem replicateStop (t : Nat) (w : VWord) : Statement (.replicateStop t w) :=
  of_v (.replicateStop t)  0x0A w rfl and_left (fun h => congrArg some (by rw [fieldIs h]; rfl))

theorem replicateReport (t : Nat) (w : VWord) : Statement (.replicateReport t w) :=
  of_v (.replicateReport t)  0x0A w rfl and_left (fun h => congrArg some (by rw [fieldIs h]; rfl))

theorem windowOpen (t : Nat) (w : VWord) : Statement (.windowOpen t w) :=
  of_v (.windowOpen t)  0x0B w rfl id (fun _ => rfl)

theorem windowRevoke (t : Nat) (w : VWord) : Statement (.windowRevoke t w) :=
  of_v (.windowRevoke t)  0x0C w rfl id (fun _ => rfl)

theorem arm (t : Nat) (w : VWord) : Statement (.arm t w) :=
  of_v (.arm t)  0x0D w rfl id (fun _ => rfl)

theorem contractOpen (t : Nat) (w : VWord) : Statement (.contractOpen t w) :=
  of_v (.contractOpen t)  0x0E w rfl id (fun _ => rfl)

theorem contractClose (t : Nat) (w : VWord) : Statement (.contractClose t w) :=
  of_v (.contractClose t)  0x0F w rfl id (fun _ => rfl)

theorem archive (t : Nat) (w : VWord) : Statement (.archive t w) :=
  of_v (.archive t)  0x10 w rfl id (fun _ => rfl)

theorem restore (t : Nat) (w : VWord) : Statement (.restore t w) :=
  of_v (.restore t)  0x11 w rfl id (fun _ => rfl)

theorem digest (t : Nat) (w : VWord) : Statement (.digest t w) :=
  of_v (.digest t)  0x12 w rfl id (fun _ => rfl)

theorem attest (t : Nat) (w : VWord) : Statement (.attest t w) :=
  of_v (.attest t)  0x13 w rfl id (fun _ => rfl)

theorem journalRead (t : Nat) (w : VWord) : Statement (.journalRead t w) :=
  of_v (.journalRead t)  0x14 w rfl id (fun _ => rfl)

theorem eventRead (t : Nat) (w : VWord) : Statement (.eventRead t w) :=
  of_v (.eventRead t)  0x15 w rfl id (fun _ => rfl)

theorem eventClear (t : Nat) (w : VWord) : Statement (.eventClear t w) :=
  of_v (.eventClear t)  0x16 w rfl id (fun _ => rfl)

theorem qreset (t : Nat) (w : VWord) : Statement (.qreset t w) :=
  of_v (.qreset t)  0x17 w rfl id (fun _ => rfl)

theorem resetHead (t : Nat) (w : VWord) : Statement (.resetHead t w) :=
  of_v (.resetHead t)  0x18 w rfl id (fun _ => rfl)

theorem resetIsland (t : Nat) (w : VWord) : Statement (.resetIsland t w) := nofun

theorem resetQueue (t : Nat) (w : VWord) : Statement (.resetQueue t w) := nofun

theorem dozeEnter (t : Nat) (w : VWord) : Statement (.dozeEnter t w) :=
  of_v (.dozeEnter t)  0x19 w rfl and_left (fun h => congrArg some (by rw [fieldIs h]; rfl))

theorem dozeLeave (t : Nat) (w : VWord) : Statement (.dozeLeave t w) :=
  of_v (.dozeLeave t)  0x19 w rfl and_left (fun h => doze_other t w (fieldNot h))

theorem updateStage (t : Nat) (w : VWord) : Statement (.updateStage t w) :=
  of_v (.updateStage t)  0x1A w rfl id (fun _ => rfl)

theorem updateActivate (t : Nat) (w : VWord) : Statement (.updateActivate t w) :=
  of_v (.updateActivate t)  0x1B w rfl id (fun _ => rfl)

theorem confirm (t : Nat) (w : VWord) : Statement (.confirm t w) :=
  of_v (.confirm t)  0x1C w rfl id (fun _ => rfl)

theorem chunk (t : Nat) (w : VWord) : Statement (.chunk t w) :=
  of_v (.chunk t)  0x80 w rfl id (fun _ => rfl)

theorem fprint (t : Nat) (w : VWord) : Statement (.fprint t w) :=
  of_v (.fprint t)  0x81 w rfl id (fun _ => rfl)

theorem cmpr (t : Nat) (w : VWord) : Statement (.cmpr t w) :=
  of_v (.cmpr t)  0x82 w rfl id (fun _ => rfl)

theorem dcmp (t : Nat) (w : VWord) : Statement (.dcmp t w) :=
  of_v (.dcmp t)  0x83 w rfl id (fun _ => rfl)

theorem ecenc (t : Nat) (w : VWord) : Statement (.ecenc t w) :=
  of_v (.ecenc t)  0x84 w rfl id (fun _ => rfl)

theorem ecdec (t : Nat) (w : VWord) : Statement (.ecdec t w) :=
  of_v (.ecdec t)  0x85 w rfl id (fun _ => rfl)

theorem ldpcs (t : Nat) (w : VWord) : Statement (.ldpcs t w) :=
  of_v (.ldpcs t)  0x86 w rfl id (fun _ => rfl)

theorem dgst (t : Nat) (w : VWord) : Statement (.dgst t w) :=
  of_v (.dgst t)  0x87 w rfl id (fun _ => rfl)

theorem sign (t : Nat) (w : VWord) : Statement (.sign t w) :=
  of_v (.sign t)  0x88 w rfl id (fun _ => rfl)

theorem verify (t : Nat) (w : VWord) : Statement (.verify t w) :=
  of_v (.verify t)  0x89 w rfl id (fun _ => rfl)

theorem nfop (t : Nat) (w : VWord) : Statement (.nfop t w) :=
  of_v (.nfop t)  0x8A w rfl id (fun _ => rfl)

theorem tfmt (t : Nat) (w : VWord) : Statement (.tfmt t w) :=
  of_v (.tfmt t)  0x8B w rfl id (fun _ => rfl)

theorem xfer (t : Nat) (w : VWord) : Statement (.xfer t w) :=
  of_v (.xfer t)  0x8C w rfl id (fun _ => rfl)

theorem entryAccept (a0 : Nat) (a1 : Nat) : Statement (.entryAccept a0 a1) := nofun
theorem lastFlagWaitExpire (a0 : Nat) : Statement (.lastFlagWaitExpire a0) := nofun
theorem qresetFence (a0 : Nat) (a1 : Nat) : Statement (.qresetFence a0 a1) := nofun
theorem mgmtQueueIdle (a0 : Nat) (a1 : Nat) : Statement (.mgmtQueueIdle a0 a1) := nofun
theorem cadenceEpoch : Statement (.cadenceEpoch) := nofun
theorem admtabLoad (a0 : Caller) (a1 : Word) : Statement (.admtabLoad a0 a1) := nofun
theorem cptWriteRx (a0 : Rx) (a1 a2 a3 a4 : List Byte) : Statement (.cptWriteRx a0 a1 a2 a3 a4) := nofun
theorem cptSubmitRx (a0 : Rx) (a1 a2 a3 : List Byte) : Statement (.cptSubmitRx a0 a1 a2 a3) := nofun
theorem cptCompleteRx (a0 : Rx) (a1 a2 a3 : List Byte) : Statement (.cptCompleteRx a0 a1 a2 a3) := nofun
theorem cptAckRx (a0 : Rx) (a1 a2 a3 a4 : List Byte) : Statement (.cptAckRx a0 a1 a2 a3 a4) := nofun
theorem cptConnectRx (a0 : Rx) (a1 a2 a3 a4 a5 : List Byte) : Statement (.cptConnectRx a0 a1 a2 a3 a4 a5) := nofun
theorem cptConnectReplyRx (a0 : Rx) (a1 a2 a3 a4 a5 a6 : List Byte) : Statement (.cptConnectReplyRx a0 a1 a2 a3 a4 a5 a6) := nofun
theorem cptCloseRx (a0 : Rx) (a1 : List Byte) : Statement (.cptCloseRx a0 a1) := nofun
theorem cptCloseUnknownRx (a0 : Rx) : Statement (.cptCloseUnknownRx a0) := nofun
theorem cptEventRx (a0 : Rx) (a1 a2 a3 : List Byte) : Statement (.cptEventRx a0 a1 a2 a3) := nofun
theorem cptKeepaliveRx (a0 : Rx) : Statement (.cptKeepaliveRx a0) := nofun
theorem sessionHello (a0 : Rx) (a1 a2 : List Byte) : Statement (.sessionHello a0 a1 a2) := nofun
theorem sessionProof (a0 : Rx) (a1 : List Byte) : Statement (.sessionProof a0 a1) := nofun
theorem arpNdRx (a0 : Asked) (a1 : Bool) : Statement (.arpNdRx a0 a1) := nofun
theorem icmpEchoRx (a0 a1 : Nat) (a2 : Rx) : Statement (.icmpEchoRx a0 a1 a2) := nofun
theorem pauseRx (a0 : Nat) (a1 : Nat) : Statement (.pauseRx a0 a1) := nofun
theorem cptAckTimer (a0 : Nat) : Statement (.cptAckTimer a0) := nofun
theorem cptRtoExpire (a0 : Nat) (a1 : Nat) : Statement (.cptRtoExpire a0 a1) := nofun
theorem connectRetry (a0 : Nat) : Statement (.connectRetry a0) := nofun
theorem keepaliveTimer (a0 : Nat) : Statement (.keepaliveTimer a0) := nofun
theorem connLostTimer (a0 : Nat) : Statement (.connLostTimer a0) := nofun
theorem drainTimeout (a0 : Nat) : Statement (.drainTimeout a0) := nofun
theorem sessionSetupTimeout (a0 : Nat) : Statement (.sessionSetupTimeout a0) := nofun
theorem qnextTimer (a0 : Nat) (a1 : Nat) : Statement (.qnextTimer a0 a1) := nofun
theorem windowLingerExpire (a0 : Nat) (a1 : Nat) : Statement (.windowLingerExpire a0 a1) := nofun
theorem pathResume (a0 : Nat) (a1 : Nat) : Statement (.pathResume a0 a1) := nofun
theorem lastFlagPlace (a0 : Nat) (a1 : Nat) : Statement (.lastFlagPlace a0 a1) := nofun
theorem strictPlace (a0 : Nat) (a1 : Nat) : Statement (.strictPlace a0 a1) := nofun
theorem genAdvance (a0 : Nat) (a1 : Nat) : Statement (.genAdvance a0 a1) := nofun
theorem revokeDrainDone (a0 : Nat) (a1 : Nat) : Statement (.revokeDrainDone a0 a1) := nofun
theorem hostPortDown (a0 : Nat) : Statement (.hostPortDown a0) := nofun
theorem hostPortUp (a0 : Nat) : Statement (.hostPortUp a0) := nofun
theorem hpcfgWrite (a0 : Caller) (a1 : Word) : Statement (.hpcfgWrite a0 a1) := nofun
theorem hpolWrite (a0 : Caller) (a1 : Word) : Statement (.hpolWrite a0 a1) := nofun
theorem destageExtent (a0 : Nat) (a1 : Nat) (a2 : Nat) : Statement (.destageExtent a0 a1 a2) := nofun
theorem coldLookupDone (a0 : Nat) (a1 : Nat) : Statement (.coldLookupDone a0 a1) := nofun
theorem coldLookupTimeout (a0 : Nat) (a1 : Nat) : Statement (.coldLookupTimeout a0 a1) := nofun
theorem coldWriteTimeout (a0 : Nat) : Statement (.coldWriteTimeout a0) := nofun
theorem filterPageRead (a0 : Nat) (a1 : Nat) (a2 : Nat) : Statement (.filterPageRead a0 a1 a2) := nofun
theorem unitSwitch (a0 : Nat) : Statement (.unitSwitch a0) := nofun
theorem drgearLoad (a0 : Caller) (a1 : Word) : Statement (.drgearLoad a0 a1) := nofun
theorem drhufLoad (a0 : Caller) (a1 : Word) : Statement (.drhufLoad a0 a1) := nofun
theorem tandemWindow (a0 : Nat) (a1 : List Bool) (a2 : BitVec 4) : Statement (.tandemWindow a0 a1 a2) := nofun
theorem nandReadDone (a0 : Nat) (a1 : Nat) (a2 : Nat) (a3 : List CwResult) : Statement (.nandReadDone a0 a1 a2 a3) := nofun
theorem nandProgramDone (a0 : Nat) (a1 : DieStatus) : Statement (.nandProgramDone a0 a1) := nofun
theorem nandEraseDone (a0 : Nat) (a1 : Nat) (a2 : DieStatus) : Statement (.nandEraseDone a0 a1 a2) := nofun
theorem memberTimeout (a0 : Nat) (a1 : Nat) (a2 : Nat) (a3 : Nat) : Statement (.memberTimeout a0 a1 a2 a3) := nofun
theorem zqShortCal (a0 : Nat) : Statement (.zqShortCal a0) := nofun
theorem scrubBandTimer (a0 : Nat) : Statement (.scrubBandTimer a0) := nofun
theorem gcStart (a0 : Nat) : Statement (.gcStart a0) := nofun
theorem gcErase (a0 : Nat) (a1 : Nat) : Statement (.gcErase a0 a1) := nofun
theorem groupIdle (a0 : Nat) : Statement (.groupIdle a0) := nofun
theorem vccqNfFault : Statement (.vccqNfFault) := nofun
theorem poolCreate (a0 : Caller) (a1 : Word) : Statement (.poolCreate a0 a1) := nofun
theorem poolDelete (a0 : Caller) (a1 : Word) : Statement (.poolDelete a0 a1) := nofun
theorem volumeCreate (a0 : Caller) (a1 : Word) : Statement (.volumeCreate a0 a1) := nofun
theorem volumeDelete (a0 : Caller) (a1 : Word) : Statement (.volumeDelete a0 a1) := nofun
theorem nffamLoad (a0 : Caller) (a1 : Word) : Statement (.nffamLoad a0 a1) := nofun
theorem nfldpcLoad (a0 : Caller) (a1 : Word) : Statement (.nfldpcLoad a0 a1) := nofun
theorem fullFill (a0 : Nat) : Statement (.fullFill a0) := nofun
theorem partialFill (a0 : Nat) : Statement (.partialFill a0) := nofun
theorem stageAgeExpire (a0 : Nat) : Statement (.stageAgeExpire a0) := nofun
theorem bitmapClearTimer : Statement (.bitmapClearTimer) := nofun
theorem bandResync (a0 : Nat) : Statement (.bandResync a0) := nofun
theorem rebuildBand (a0 : Nat) : Statement (.rebuildBand a0) := nofun
theorem fenceInFall (a0 : Nat) : Statement (.fenceInFall a0) := nofun
theorem fenceInRise : Statement (.fenceInRise) := nofun
theorem fencedResetTimer : Statement (.fencedResetTimer) := nofun
theorem heartbeatLoss : Statement (.heartbeatLoss) := nofun
theorem fncctlForce (a0 : Caller) (a1 : Word) : Statement (.fncctlForce a0 a1) := nofun
theorem takeoverSettle : Statement (.takeoverSettle) := nofun
theorem remirrorDone : Statement (.remirrorDone) := nofun
theorem handoffGiveUp : Statement (.handoffGiveUp) := nofun
theorem tapeResumeTimeout (a0 : Nat) : Statement (.tapeResumeTimeout a0) := nofun
theorem activateRejoinTimeout : Statement (.activateRejoinTimeout) := nofun
theorem plTrainDone (a0 : BitVec 32) (a1 : BitVec 32) (a2 : Nat) (a3 : Nat) (a4 : Bool) : Statement (.plTrainDone a0 a1 a2 a3 a4) := nofun
theorem plHeartbeatRx (a0 : PlHead) (a1 : Nat) (a2 : Nat) : Statement (.plHeartbeatRx a0 a1 a2) := nofun
theorem plHeartbeatTx : Statement (.plHeartbeatTx) := nofun
theorem plAckRx (a0 : PlHead) (a1 : Nat) (a2 : Nat) : Statement (.plAckRx a0 a1 a2) := nofun
theorem plNakRx (a0 : PlHead) (a1 : Nat) (a2 : Nat) : Statement (.plNakRx a0 a1 a2) := nofun
theorem plCreditRx (a0 : PlHead) (a1 : Nat) (a2 : Nat) : Statement (.plCreditRx a0 a1 a2) := nofun
theorem plPfailRx (a0 : PlHead) : Statement (.plPfailRx a0) := nofun
theorem plControlRx (a0 : PlHead) (a1 : CtlStep) (a2 : Nat) : Statement (.plControlRx a0 a1 a2) := nofun
theorem plPlaceRx (a0 : PlHead) (a1 : Nat) (a2 : Nat) (a3 : Nat) (a4 : List Byte) : Statement (.plPlaceRx a0 a1 a2 a3 a4) := nofun
theorem plLpageRx (a0 : PlHead) (a1 : Nat) (a2 : Nat) (a3 : Nat) (a4 : Nat) : Statement (.plLpageRx a0 a1 a2 a3 a4) := nofun
theorem plPrecRx (a0 : PlHead) (a1 : PRec) : Statement (.plPrecRx a0 a1) := nofun
theorem plCopypageRx (a0 : PlHead) (a1 : Nat) (a2 : Nat) (a3 : Nat) (a4 : List Byte) : Statement (.plCopypageRx a0 a1 a2 a3 a4) := nofun
theorem plCopyrecRx (a0 : PlHead) (a1 : PRec) : Statement (.plCopyrecRx a0 a1) := nofun
theorem plLaneBad (a0 : Bool) (a1 : BitVec 32) : Statement (.plLaneBad a0 a1) := nofun
theorem plRetrainDone (a0 : Bool) (a1 : BitVec 32) : Statement (.plRetrainDone a0 a1) := nofun
theorem pfailFall (a0 : Nat) : Statement (.pfailFall a0) := nofun
theorem spillExchangeTimeout : Statement (.spillExchangeTimeout) := nofun
theorem spillResetTimer : Statement (.spillResetTimer) := nofun
theorem replicateCycle (a0 : Nat) : Statement (.replicateCycle a0) := nofun
theorem replicateRetry (a0 : Nat) : Statement (.replicateRetry a0) := nofun
theorem pwrOkFall (a0 : Nat) : Statement (.pwrOkFall a0) := nofun
theorem pwrOkRise : Statement (.pwrOkRise) := nofun
theorem rstLFall (a0 : Nat) : Statement (.rstLFall a0) := nofun
theorem rstLRise : Statement (.rstLRise) := nofun
theorem watchdogExpire : Statement (.watchdogExpire) := nofun
theorem wdkick (a0 : Caller) (a1 : Word) : Statement (.wdkick a0 a1) := nofun
theorem islandReady (a0 : Nat) (a1 : List DieReport) : Statement (.islandReady a0 a1) := nofun
theorem trimLoadDone (a0 : Bool) : Statement (.trimLoadDone a0) := nofun
theorem bootImageReady (a0 : Nat) (a1 : BootImage) : Statement (.bootImageReady a0 a1) := nofun
theorem telltaleEnable : Statement (.telltaleEnable) := nofun
theorem pairwaitExpire : Statement (.pairwaitExpire) := nofun
theorem thermalSample (a0 : Nat) (a1 : Nat) : Statement (.thermalSample a0 a1) := nofun
theorem thermalTrip : Statement (.thermalTrip) := nofun
theorem clockLoss (a0 : BitVec 5) : Statement (.clockLoss a0) := nofun
theorem cvrAlert (a0 : Bool) (a1 : Nat) : Statement (.cvrAlert a0 a1) := nofun
theorem cvrVidStep (a0 : Nat) (a1 : Bool) (a2 : Bool) (a3 : Nat) : Statement (.cvrVidStep a0 a1 a2 a3) := nofun
theorem isrstQuiesce (a0 : Caller) (a1 : Word) : Statement (.isrstQuiesce a0 a1) := nofun
theorem isrstReset (a0 : Caller) (a1 : Word) : Statement (.isrstReset a0 a1) := nofun
theorem isrstQuiesceReset (a0 : Caller) (a1 : Word) : Statement (.isrstQuiesceReset a0 a1) := nofun
theorem quiesceDone (a0 : Nat) : Statement (.quiesceDone a0) := nofun
theorem quiesceTimeout (a0 : Nat) : Statement (.quiesceTimeout a0) := nofun
theorem tlSampleRx (a0 : Nat) (a1 : SampleFrame) : Statement (.tlSampleRx a0 a1) := nofun
theorem tlStatusRx (a0 : Nat) (a1 : Nat) (a2 : Bool) (a3 : TfeStatus) : Statement (.tlStatusRx a0 a1 a2 a3) := nofun
theorem tlRegrspRx (a0 : Nat) (a1 : Nat) (a2 : Bool) (a3 : Word) : Statement (.tlRegrspRx a0 a1 a2 a3) := nofun
theorem tlCtrlTimer (a0 : Nat) : Statement (.tlCtrlTimer a0) := nofun
theorem servoPesUpdate (a0 : Nat) : Statement (.servoPesUpdate a0) := nofun
theorem tlLinkLoss (a0 : Nat) : Statement (.tlLinkLoss a0) := nofun
theorem tlLaneBad (a0 : Nat) (a1 : BitVec 8) (a2 : BitVec 4) : Statement (.tlLaneBad a0 a1 a2) := nofun
theorem tlRetryWait (a0 : Nat) : Statement (.tlRetryWait a0) := nofun
theorem tlTrainDone (a0 : Nat) (a1 : BitVec 8) (a2 : BitVec 4) : Statement (.tlTrainDone a0 a1 a2) := nofun
theorem tlAlignDone (a0 : Nat) : Statement (.tlAlignDone a0) := nofun
theorem tlStateTimeout (a0 : Nat) : Statement (.tlStateTimeout a0) := nofun
theorem tlcfgEnWrite (a0 : Caller) (a1 : Nat) (a2 : Word) : Statement (.tlcfgEnWrite a0 a1 a2) := nofun
theorem tlregWrite (a0 : Caller) (a1 : Nat) (a2 : Word) : Statement (.tlregWrite a0 a1 a2) := nofun
theorem tpladLoad (a0 : Caller) (a1 : Word) : Statement (.tpladLoad a0 a1) := nofun
theorem tpeqLoad (a0 : Caller) (a1 : Word) : Statement (.tpeqLoad a0 a1) := nofun
theorem tplnkLoad (a0 : Caller) (a1 : Word) : Statement (.tplnkLoad a0 a1) := nofun
theorem shockInput (a0 : Nat) (a1 : Nat) : Statement (.shockInput a0 a1) := nofun
theorem datasetStart (a0 : Nat) : Statement (.datasetStart a0) := nofun
theorem backhitchDone (a0 : Nat) : Statement (.backhitchDone a0) := nofun
theorem tapePortIdle (a0 : Nat) : Statement (.tapePortIdle a0) := nofun
theorem writebackAck (a0 : Nat) (a1 : Nat) (a2 : Nat) : Statement (.writebackAck a0 a1 a2) := nofun
theorem wtBufferDrain (a0 : Nat) : Statement (.wtBufferDrain a0) := nofun
theorem patrolScrub (a0 : Nat) (a1 : Nat) (a2 : ScrubResult) : Statement (.patrolScrub a0 a1 a2) := nofun
theorem pstoreUncorrectable (a0 : Nat) (a1 : Bool) : Statement (.pstoreUncorrectable a0 a1) := nofun
theorem vddPsLow : Statement (.vddPsLow) := nofun
theorem engcfgInvi (a0 : Caller) (a1 : Nat) (a2 : Word) : Statement (.engcfgInvi a0 a1 a2) := nofun
theorem engcfgInvd (a0 : Caller) (a1 : Nat) (a2 : Word) : Statement (.engcfgInvd a0 a1 a2) := nofun
theorem l2cfgInv (a0 : Caller) (a1 : Nat) (a2 : Word) : Statement (.l2cfgInv a0 a1 a2) := nofun
theorem l2cfgLockDisWrite (a0 : Caller) (a1 : Nat) (a2 : Word) : Statement (.l2cfgLockDisWrite a0 a1 a2) := nofun
theorem ecctRawWrite (a0 : Caller) (a1 : Word) : Statement (.ecctRawWrite a0 a1) := nofun
theorem ecctRawRead (a0 : Caller) (a1 : Word) : Statement (.ecctRawRead a0 a1) := nofun
theorem keyEnrol (a0 : Caller) (a1 : Word) : Statement (.keyEnrol a0 a1) := nofun
theorem keyRemove (a0 : Caller) (a1 : Word) : Statement (.keyRemove a0 a1) := nofun
theorem claim (a0 : Bool) (a1 : List Byte) : Statement (.claim a0 a1) := nofun
theorem keyimpPoolKey (a0 : Caller) (a1 : Word) : Statement (.keyimpPoolKey a0 a1) := nofun
theorem keyimpHmacKey (a0 : Caller) (a1 : Word) : Statement (.keyimpHmacKey a0 a1) := nofun
theorem keyimpErase (a0 : Caller) (a1 : Word) : Statement (.keyimpErase a0 a1) := nofun
theorem mkaccWrite (a0 : Caller) (a1 : Word) : Statement (.mkaccWrite a0 a1) := nofun
theorem dgctxHashInit (a0 : Caller) (a1 : Nat) (a2 : Word) : Statement (.dgctxHashInit a0 a1 a2) := nofun
theorem dgctxHmacInner (a0 : Caller) (a1 : Nat) (a2 : Word) : Statement (.dgctxHmacInner a0 a1 a2) := nofun
theorem dgctxHmacOuter (a0 : Caller) (a1 : Nat) (a2 : Word) : Statement (.dgctxHmacOuter a0 a1 a2) := nofun
theorem hwinExpire : Statement (.hwinExpire) := nofun
theorem evtimeWrite (a0 : Caller) (a1 : Word) : Statement (.evtimeWrite a0 a1) := nofun
theorem smbSession (a0 : Bool) (a1 : Nat) (a2 : List Byte) : Statement (.smbSession a0 a1 a2) := nofun
theorem smbStateGet (a0 : Bool) (a1 : Nat) : Statement (.smbStateGet a0 a1) := nofun
theorem smbStateSet (a0 : Bool) (a1 : Nat) (a2 : Word) : Statement (.smbStateSet a0 a1 a2) := nofun
theorem smbEventPart (a0 : Bool) (a1 : Nat) (a2 : Nat) : Statement (.smbEventPart a0 a1 a2) := nofun
theorem smbEventClear (a0 : Bool) : Statement (.smbEventClear a0) := nofun
theorem smbReset (a0 : Bool) (a1 : Nat) (a2 : Nat) : Statement (.smbReset a0 a1 a2) := nofun
theorem smbImageWrite (a0 : Bool) (a1 : Nat) (a2 : List Byte) : Statement (.smbImageWrite a0 a1 a2) := nofun
theorem smbImageEnd (a0 : Bool) (a1 : Nat) : Statement (.smbImageEnd a0 a1) := nofun
theorem smbBscanEnter (a0 : Bool) : Statement (.smbBscanEnter a0) := nofun
theorem smbBscanLeave (a0 : Bool) : Statement (.smbBscanLeave a0) := nofun
theorem smbTap (a0 : Bool) (a1 : Nat) (a2 : List Bool) (a3 : List Bool) : Statement (.smbTap a0 a1 a2 a3) := nofun
theorem smbAlertResponse : Statement (.smbAlertResponse) := nofun
theorem smbSessionTimeout : Statement (.smbSessionTimeout) := nofun
theorem telltaleBeat : Statement (.telltaleBeat) := nofun
theorem sessionChallengeRx (a0 : Rx) (a1 a2 a3 : List Byte) : Statement (.sessionChallengeRx a0 a1 a2 a3) := nofun
theorem sessionResultRx (a0 : Rx) (a1 a2 : List Byte) : Statement (.sessionResultRx a0 a1 a2) := nofun
theorem dieBusyTimeout (a0 : Nat) : Statement (.dieBusyTimeout a0) := nofun
theorem programTimeout (a0 : Nat) : Statement (.programTimeout a0) := nofun
theorem vccqNfRecover : Statement (.vccqNfRecover) := nofun
theorem thermalTripRelease : Statement (.thermalTripRelease) := nofun

end Sys2Proof.Laws.Shape
end

