-- ==== Sys2Proof/Certificates/Slice0/Obligations.lean ====
section
/-! DEFINITION. The statements about the block, for the provers: what each command does from every state that meets its premises, the invariants that
steps keep, the encodings. -/

open Sys2Proof Sys2Proof.Machine

/-! ## The queue of commands -/

/-- A step runs the command at the front of the queue on the state with the rest of the queue, and does nothing else; with no command waiting the
block idles (the model's choice, log entry 6). -/
def Obligations.StepTakesFront : Prop :=
  (∀ (s : State) (c : Instr) (rest : List Instr), s.pending = c :: rest → step s = exec c { s with pending := rest }) ∧
    (∀ s : State, s.pending = [] → step s = .next s)

/-- No command changes the queue of waiting commands.

Every step keeps the waiting commands well-formed. -/
def Obligations.QueueOkKept : Prop :=
  (∀ (i : Instr) (s t : State), exec i s = .next t → t.pending = s.pending) ∧
  (∀ s t : State, s.queueOk = true → step s = .next t → t.queueOk = true)

/-- No command is refused, and only six rows can stop in a fault. -/
def Obligations.NothingRefused : Prop :=
  ∀ (i : Instr) (s : State), (∀ r, exec i s ≠ .refused r) ∧ (∀ e, exec i s = .fault e → mayFault i = true)

/-! ## Computing instructions -/

/-- ALU, LI, LIH, CMP, NOP and CLRVS, where they take effect (R28, R30 to R32, R36): the one register or predicate they name
receives the value that Tables 2-4 to 2-6 give, nothing else changes. -/
def Obligations.ComputingInstructions : Prop :=
  ∀ (s : State) (t : Nat),
    (∀ w : GWord, s.head.steps t (w.common 0x01) (aluRegLegal w) .O [w.rd.toNat, w.ra.toNat, w.rb.toNat] = true →
      s.computes (.aluReg t w) t (fun x =>
        x.setReg w.rd.toNat (aluResult w.fn.toNat (x.reg w.ra.toNat) (x.reg w.rb.toNat) 0))) ∧
    (∀ w : GWord, w.fn ≠ 0x29 → s.head.steps t (w.common 0x02) (aluImmLegal w) .O [w.rd.toNat, w.ra.toNat] = true →
      s.computes (.aluImm t w) t (fun x =>
        x.setReg w.rd.toNat (aluResult w.fn.toNat (x.reg w.ra.toNat) (w.imm.signExtend 64) w.imm.toNat))) ∧
    (∀ w : GWord, w.fn = 0x29 → s.head.steps t (w.common 0x02) (aluImmLegal w) .O [w.rd.toNat, w.ra.toNat] = true →
      s.computes (.aluImm t w) t (fun x =>
        x.setReg w.rd.toNat (insResult (x.reg w.rd.toNat) (x.reg w.ra.toNat) w.imm.toNat))) ∧
    (∀ w : WWord, s.head.steps t (w.common 0x03) (!w.res) .O [w.rd.toNat] = true →
      s.computes (.li t w) t (fun x => x.setReg w.rd.toNat (w.imm48.signExtend 64))) ∧
    (∀ w : GWord, s.head.steps t (w.common 0x04) (w.ra = 0 && w.rb = 0 && w.fn = 0 && bits w.imm.toNat 31 16 = 0) .O
        [w.rd.toNat] = true →
      s.computes (.lih t w) t (fun x => x.setReg w.rd.toNat (w.imm.extractLsb' 0 16 ++ (x.reg w.rd.toNat).extractLsb' 0 48))) ∧
    (∀ w : GWord, s.head.steps t (w.common 0x05) (cmpRegLegal w) .O
        (if w.fn.toNat < 0x10 then [w.ra.toNat, w.rb.toNat] else []) = true →
      s.computes (.cmpReg t w) t (fun x => x.setPred w.rd.toNat (cmpRegValue x w))) ∧
    (∀ w : GWord, s.head.steps t (w.common 0x06) (cmpImmLegal w) .O [w.ra.toNat] = true →
      s.computes (.cmpImm t w) t (fun x =>
        x.setPred w.rd.toNat (cmpWord w.fn.toNat (x.reg w.ra.toNat) (w.imm.signExtend 64)))) ∧
    (∀ w : GWord, s.head.steps t (w.common 0x16) (bare w 0) .O [] = true → s.computes (.nop t w) t (fun x => x)) ∧
    (∀ w : GWord, s.head.steps t (w.common 0x17) (bare w 0) .O [] = true →
      s.computes (.clrvs t w) t (fun x => { x with vs := 0 }))

/-- g0 reads 0 and p0 reads 1 whatever is written to them; every other register and predicate reads what was written last and a
write leaves the others (R23). -/
def Obligations.GeneralRegisters : Prop :=
  ∀ (x : Thread) (r n : Nat) (v : Word) (b : Bool), canon 0 x.g = true → n < 8 →
    (x.setReg r v).reg 0 = 0 ∧ (r ≠ 0 → (x.setReg r v).reg r = v) ∧ (∀ q, q ≠ r → (x.setReg r v).reg q = x.reg q) ∧
      (x.setPred n b).pred 0 = true ∧ (n ≠ 0 → (x.setPred n b).pred n = b) ∧
      (∀ q, q ≠ n → (x.setPred n b).pred q = x.pred q) ∧ canon 0 (x.setReg r v).g = true

/-- The function codes of Table 2-5 as arithmetic on numbers and bits (R31).

The conditions of Table 2-6 as comparisons of numbers (R32). -/
def Obligations.ComputedValues : Prop :=
  (∀ (a b old : Word) (i : Nat),
     (aluResult 0x00 a b i).toNat = (a.toNat + b.toNat) % 2 ^ 64 ∧
     (aluResult 0x01 a b i).toNat = (a.toNat + 2 ^ 64 - b.toNat) % 2 ^ 64 ∧
     (aluResult 0x02 a b i).toNat + 2 ^ 64 * (aluResult 0x03 a b i).toNat = a.toNat * b.toNat ∧
     (b ≠ 0 → (aluResult 0x04 a b i).toNat * b.toNat + (aluResult 0x05 a b i).toNat = a.toNat ∧
       (aluResult 0x05 a b i).toNat < b.toNat) ∧
     (b = 0 → (aluResult 0x04 a b i).toNat = 2 ^ 64 - 1 ∧ aluResult 0x05 a b i = a) ∧
     (∀ k, k < 64 →
       (aluResult 0x08 a b i).getLsbD k = (a.getLsbD k && b.getLsbD k) ∧
       (aluResult 0x09 a b i).getLsbD k = (a.getLsbD k || b.getLsbD k) ∧
       (aluResult 0x0A a b i).getLsbD k = (a.getLsbD k != b.getLsbD k) ∧
       (aluResult 0x0B a b i).getLsbD k = (a.getLsbD k && !b.getLsbD k) ∧
       (aluResult 0x10 a b i).getLsbD k = (decide (b.toNat % 64 ≤ k) && a.getLsbD (k - b.toNat % 64)) ∧
       (aluResult 0x11 a b i).getLsbD k = a.getLsbD (k + b.toNat % 64) ∧
       (aluResult 0x12 a b i).getLsbD k = a.getLsbD (min (k + b.toNat % 64) 63) ∧
       (aluResult 0x13 a b i).getLsbD ((k + b.toNat) % 64) = a.getLsbD k ∧
       (aluResult 0x14 a b i).getLsbD k = a.getLsbD ((k + b.toNat) % 64) ∧
       (aluResult 0x23 a b i).getLsbD k = a.getLsbD (8 * (7 - k / 8) + k % 8) ∧
       (aluResult 0x28 a b i).getLsbD k = (decide (k ≤ bits i 13 8) && a.getLsbD (k + bits i 5 0)) ∧
       (insResult old a i).getLsbD k =
         (if bits i 5 0 ≤ k ∧ k ≤ bits i 5 0 + bits i 13 8 then a.getLsbD (k - bits i 5 0) else old.getLsbD k)) ∧
     (aluResult 0x18 a b i).toNat = min a.toNat b.toNat ∧ (aluResult 0x19 a b i).toNat = max a.toNat b.toNat ∧
     (aluResult 0x20 a b i).toNat = ((List.range 64).filter (fun k => a.getLsbD k)).length ∧
     (aluResult 0x21 a b i).toNat ≤ 64 ∧ (∀ k, 64 - (aluResult 0x21 a b i).toNat ≤ k → a.getLsbD k = false) ∧
     ((aluResult 0x21 a b i).toNat < 64 → a.getLsbD (63 - (aluResult 0x21 a b i).toNat) = true) ∧
     (aluResult 0x22 a b i).toNat ≤ 64 ∧ (∀ k, k < (aluResult 0x22 a b i).toNat → a.getLsbD k = false) ∧
     ((aluResult 0x22 a b i).toNat < 64 → a.getLsbD (aluResult 0x22 a b i).toNat = true)) ∧
  (∀ (x : Thread) (w : GWord) (a b : Word),
     (cmpWord 0x00 a b = true ↔ a.toNat = b.toNat) ∧ (cmpWord 0x01 a b = true ↔ a.toNat ≠ b.toNat) ∧
     (cmpWord 0x02 a b = true ↔ a.toNat < b.toNat) ∧ (cmpWord 0x03 a b = true ↔ b.toNat ≤ a.toNat) ∧
     (cmpWord 0x04 a b = true ↔ a.toInt < b.toInt) ∧ (cmpWord 0x05 a b = true ↔ b.toInt ≤ a.toInt) ∧
     (cmpWord 0x06 a b = true ↔ ∃ k, a.getLsbD k = true ∧ b.getLsbD k = true) ∧
     (cmpWord 0x07 a b = true ↔ ∀ k, ¬ (a.getLsbD k = true ∧ b.getLsbD k = true)) ∧
     (w.fn.toNat < 0x10 → cmpRegValue x w = cmpWord w.fn.toNat (x.reg w.ra.toNat) (x.reg w.rb.toNat)) ∧
     (w.fn = 0x10 → cmpRegValue x w = (x.pred w.ra.toNat && x.pred w.rb.toNat)) ∧
     (w.fn = 0x11 → cmpRegValue x w = (x.pred w.ra.toNat || x.pred w.rb.toNat)) ∧
     (w.fn = 0x12 → cmpRegValue x w = (x.pred w.ra.toNat != x.pred w.rb.toNat)) ∧
     (w.fn = 0x13 → cmpRegValue x w = !(x.pred w.ra.toNat)))

/-- A fetch changes nothing but the lines that the L1 I of the thread's engine holds (R392). -/
def Obligations.FetchOnlyFillsL1I : Prop :=
  ∀ (h : Head) (t : Nat),
    h.fetched t = { h with core := { h.core with l1 := (h.fetched t).core.l1 } } ∧
      (∀ e, e ≠ engineOf t → (h.fetched t).l1 e = h.l1 e) ∧
      { (h.fetched t).l1 (engineOf t) with iline := (h.l1 (engineOf t)).iline } = h.l1 (engineOf t)

/-- The program counter of a bounded program of L words (R37): it runs from 0 to 8 × (L − 1). A branch out of that range raises BOUNDS at the branch; a
program that passes its last word ends as by END g0; what stays inside goes on. -/
def Obligations.ProgramCounter : Prop :=
  ∀ (h : Head) (t : Nat) (x : Thread) (w : GWord),
    x.buf = true →
    (∀ pc : Word, x.outside pc = false ↔ pc.toNat < 8 * x.len) ∧
    ((h.thread t).buf = true → (h.thread t).run = .running → ∀ pc : Word,
      (8 * (h.thread t).len ≤ pc.toNat → ((h.moveTo t pc).thread t).run = .ending 0) ∧
      (pc.toNat < 8 * (h.thread t).len → ((h.moveTo t pc).thread t).run = .running ∧ ((h.moveTo t pc).thread t).pc = pc)) ∧
    (∀ s : State, s.head.thread t = x →
      let target := x.pc + 8 * w.imm.signExtend 64
      let i := s.head.fetched t
      (8 * x.len ≤ target.toNat →
        (s.head.takesEffect t (w.common 0x10) (w.rd = 0 && w.ra = 0 && w.rb = 0 && w.fn = 0) .O [] = true →
          exec (.br t w) s = .next (s.issued t (w.common 0x10) (.trap i .bounds (some target)))) ∧
        (s.head.takesEffect t (w.common 0x11) (w.ra = 0 && w.rb = 0 && w.fn = 0) .O [w.rd.toNat] = true →
          exec (.call t w) s = .next (s.issued t (w.common 0x11) (.trap i .bounds (some target))))) ∧
      (8 * x.len ≤ (x.reg w.ra.toNat).toNat → (x.reg w.ra.toNat).toNat % 8 = 0 →
        s.head.takesEffect t (w.common 0x12) (w.rd = 0 && w.rb = 0 && w.fn = 0 && w.imm = 0) .O [w.ra.toNat] = true →
        exec (.jr t w) s = .next (s.issued t (w.common 0x12) (.trap i .bounds (some (x.reg w.ra.toNat))))))

/-! ## Loads, stores and atomics -/

/-- Below tier F, LD, ST and AMO reach only the private area of their own thread (R33, R34): a load gives the bytes there, a store
or an atomic changes only the bytes it names.

AMO below tier F: RD receives the old 8 bytes, and memory what the operation stores (R33, R34).

What each operation of AMO stores (R33). -/
def Obligations.PrivateMemory : Prop :=
  (∀ (s : State) (t : Nat) (w : GWord),
     (s.head.thread t).tier ≠ .F → (effAddr (s.head.thread t) w).toNat + accBytes w ≤ 4096 →
       (effAddr (s.head.thread t) w).toNat % accBytes w = 0 →
     (∀ c, s.head.steps t (w.common 0x08) (ldLegal w) .O [w.rd.toNat, w.ra.toNat] = true →
       s.computes (.ld t w c) t (fun x => x.setReg w.rd.toNat
         (loadValue (w.fn.getLsbD 2) (accBytes w) (leNat (readBytes x.priv (effAddr x w).toNat (accBytes w)))))) ∧
     (s.head.steps t (w.common 0x09) (stLegal w) .O [w.ra.toNat, w.rb.toNat] = true →
       s.computes (.st t w) t (fun x => { x with
         priv := writeBytes x.priv (effAddr x w).toNat (leBytes (accBytes w) (x.reg w.rb.toNat).toNat) })) ∧
     (∀ (x : Thread) (a : Nat), (a < (effAddr x w).toNat ∨ (effAddr x w).toNat + accBytes w ≤ a) →
       readByte (writeBytes x.priv (effAddr x w).toNat (leBytes (accBytes w) (x.reg w.rb.toNat).toNat)) a = readByte x.priv a)) ∧
  (∀ (s : State) (t : Nat) (w : GWord),
     (s.head.thread t).tier ≠ .F → (effAddr (s.head.thread t) w).toNat + 8 ≤ 4096 →
       (effAddr (s.head.thread t) w).toNat % 8 = 0 →
       s.head.steps t (w.common 0x0A) (amoLegal w) .O [w.rd.toNat, w.ra.toNat, w.rb.toNat] = true →
       let old := fun (x : Thread) => BitVec.ofNat 64 (leNat (readBytes x.priv (effAddr x w).toNat 8))
       s.computes (.amo t w) t (fun x => (match amoStore (bits w.fn.toNat 6 4) (old x) (x.reg w.rb.toNat) (x.reg w.rd.toNat) with
         | some v => { x with priv := writeBytes x.priv (effAddr x w).toNat (leBytes 8 v.toNat) }
         | none => x).setReg w.rd.toNat (old x))) ∧
  (∀ old rb rd : Word,
     amoStore 0 old rb rd = some (old + rb) ∧ amoStore 1 old rb rd = some rb ∧
     amoStore 2 old rb rd = (if old = rd then some rb else none) ∧
     amoStore 3 old rb rd = some (old ||| rb) ∧ amoStore 4 old rb rd = some (old &&& rb))

/-- The limits of R34: an address that is not a multiple of the size raises ALIGN; past 4 KiB below tier F, past 32 MiB of scratch,
past 96 GiB of HBM or in the instruction region at tier F (R388, R414), BOUNDS; every other access is allowed.

At tier F, in scratch: LD gives the bytes there; ST changes the bytes it names and no other byte of scratch, and nothing of HBM
(R33, R34). The words reached are without poison and were not written raw.

At tier F, in HBM, where no cache of the engine's path is enabled and no cache holds the line: LD gives the bytes there; ST and
AMO change the bytes they name, and no other byte of HBM, nothing of scratch (R33, R34, R393). The words of the line are without
poison and were not written raw. -/
def Obligations.FirmwareMemory : Prop :=
  (∀ (tier : Tier) (scr : Bool) (a n : Nat),
     (accFault tier scr a n = some .align ↔ a % n ≠ 0) ∧
     (accFault tier scr a n = some .bounds ↔ a % n = 0 ∧
       ((tier ≠ .F ∧ 4096 < a + n) ∨ (tier = .F ∧ scr = true ∧ 0x2000000 < a + n) ∨
         (tier = .F ∧ scr = false ∧ (0x1800000000 < a + n ∨ inInstr a n = true)))) ∧
     (∀ c, accFault tier scr a n = some c → c = .align ∨ c = .bounds)) ∧
  (∀ (s : State) (t : Nat) (w : GWord),
     (s.head.thread t).tier = .F → w.fn.getLsbD 3 = true →
       (effAddr (s.head.thread t) w).toNat + accBytes w ≤ 0x2000000 → (effAddr (s.head.thread t) w).toNat % accBytes w = 0 →
       look false s.head.core.scrP ((effAddr (s.head.thread t) w).toNat / 8) = false →
       look 0 s.head.core.chk (chkKey 1 ((effAddr (s.head.thread t) w).toNat / 8)) = 0 →
     (∀ c, s.head.steps t (w.common 0x08) (ldLegal w) .O [w.rd.toNat, w.ra.toNat] = true →
       s.computes (.ld t w c) t (fun x => x.setReg w.rd.toNat
         (loadValue (w.fn.getLsbD 2) (accBytes w) (leNat (readBytes s.head.core.scr (effAddr x w).toNat (accBytes w)))))) ∧
     (s.head.steps t (w.common 0x09) (stLegal w) .O [w.ra.toNat, w.rb.toNat] = true → Memory.wf s.head.core.scr = true →
       ∃ u, exec (.st t w) s = .next u ∧ u.pending = s.pending ∧ u.head.core.hbm = s.head.core.hbm ∧
         u.head.regs = s.head.regs ∧ (∀ n, n ≠ t → u.head.thread n = s.head.thread n) ∧
         u.head.thread t = { s.head.thread t with
           pc := (s.head.thread t).pc + 8, icount := ((s.head.thread t).icount + 1) % 2 ^ 64 } ∧
         readBytes u.head.core.scr (effAddr (s.head.thread t) w).toNat (accBytes w) =
           leBytes (accBytes w) ((s.head.thread t).reg w.rb.toNat).toNat ∧
         Memory.wf u.head.core.scr = true ∧
         ∀ a, (a < (effAddr (s.head.thread t) w).toNat ∨ (effAddr (s.head.thread t) w).toNat + accBytes w ≤ a) →
           readByte u.head.core.scr a = readByte s.head.core.scr a)) ∧
  (∀ (s : State) (t : Nat) (w : GWord),
     let x := s.head.thread t
     let a := (effAddr x w).toNat
     let n := a / 64
     x.tier = .F → w.fn.getLsbD 3 = false → s.head.l1d (engineOf t) = false → s.head.l2on (pelotonOf (engineOf t)) = false →
       s.head.newest n = none → s.head.evicting n = false → cached (s.head.l2 (pelotonOf (engineOf t))).lines n = none →
       (∀ i, i < 8 → look false s.head.core.hbmP (8 * n + i) = false ∧ look 0 s.head.core.chk (chkKey 4 (8 * n + i)) = 0) →
       Memory.wf s.head.core.hbm = true →
     (accFault .F false a (accBytes w) = none → s.head.steps t (w.common 0x08) (ldLegal w) .O [w.rd.toNat, w.ra.toNat] = true →
       ∃ u, exec (.ld t w .none) s = .next u ∧ u.pending = s.pending ∧ u.head.core.hbm = s.head.core.hbm ∧
         u.head.core.scr = s.head.core.scr ∧ u.head.regs = s.head.regs ∧ (∀ m, m ≠ t → u.head.thread m = s.head.thread m) ∧
         u.head.thread t = { x.setReg w.rd.toNat (loadValue (w.fn.getLsbD 2) (accBytes w)
             (leNat (readBytes s.head.core.hbm a (accBytes w)))) with
           pc := x.pc + 8, icount := (x.icount + 1) % 2 ^ 64 }) ∧
     (accFault .F false a (accBytes w) = none → s.head.steps t (w.common 0x09) (stLegal w) .O [w.ra.toNat, w.rb.toNat] = true →
       ∃ u, exec (.st t w) s = .next u ∧ u.pending = s.pending ∧ u.head.core.scr = s.head.core.scr ∧
         u.head.regs = s.head.regs ∧ (∀ m, m ≠ t → u.head.thread m = s.head.thread m) ∧
         u.head.thread t = { x with pc := x.pc + 8, icount := (x.icount + 1) % 2 ^ 64 } ∧
         readBytes u.head.core.hbm a (accBytes w) = leBytes (accBytes w) (x.reg w.rb.toNat).toNat ∧
         Memory.wf u.head.core.hbm = true ∧
         ∀ b, (b < a ∨ a + accBytes w ≤ b) → readByte u.head.core.hbm b = readByte s.head.core.hbm b) ∧
     (accFault .F false a 8 = none →
       s.head.steps t (w.common 0x0A) (amoLegal w) .O [w.rd.toNat, w.ra.toNat, w.rb.toNat] = true →
       let old := BitVec.ofNat 64 (leNat (readBytes s.head.core.hbm a 8))
       ∃ u, exec (.amo t w) s = .next u ∧ u.pending = s.pending ∧ u.head.core.scr = s.head.core.scr ∧
         u.head.regs = s.head.regs ∧ (∀ m, m ≠ t → u.head.thread m = s.head.thread m) ∧
         u.head.thread t = { x.setReg w.rd.toNat old with pc := x.pc + 8, icount := (x.icount + 1) % 2 ^ 64 } ∧
         readBytes u.head.core.hbm a 8 =
           leBytes 8 ((amoStore (bits w.fn.toNat 6 4) old (x.reg w.rb.toNat) (x.reg w.rd.toNat)).getD old).toNat ∧
         Memory.wf u.head.core.hbm = true ∧
         ∀ b, (b < a ∨ a + 8 ≤ b) → readByte u.head.core.hbm b = readByte s.head.core.hbm b))

/-! ## Control, queues, signals, privileged -/

/-- BR, CALL and JR whose target lies inside the program move PC there (R36, R37); CALL writes the next word's address to RD.

BR, CALL and JR whose target lies outside the program raise BOUNDS at the branch (R37); JR to an address that is not a multiple
of 8 raises ALIGN, the cause of the higher priority (R36, R47). -/
def Obligations.Branches : Prop :=
  (∀ (s : State) (t : Nat) (w : GWord),
     let x := s.head.thread t
     let target := x.pc + 8 * w.imm.signExtend 64
     (s.head.goesOn t (w.common 0x10) (w.rd = 0 && w.ra = 0 && w.rb = 0 && w.fn = 0) .O [] target = true →
       s.movesOn (.br t w) t target (fun x => x)) ∧
     (s.head.goesOn t (w.common 0x11) (w.ra = 0 && w.rb = 0 && w.fn = 0) .O [w.rd.toNat] target = true →
       s.movesOn (.call t w) t target (fun x => x.setReg w.rd.toNat (x.pc + 8))) ∧
     (s.head.goesOn t (w.common 0x12) (w.rd = 0 && w.rb = 0 && w.fn = 0 && w.imm = 0) .O [w.ra.toNat] (x.reg w.ra.toNat) = true →
       (x.reg w.ra.toNat).toNat % 8 = 0 → s.movesOn (.jr t w) t (x.reg w.ra.toNat) (fun x => x))) ∧
  (∀ (s : State) (t : Nat) (w : GWord),
     let x := s.head.thread t
     let h := s.head.fetched t
     let target := x.pc + 8 * w.imm.signExtend 64
     (s.head.takesEffect t (w.common 0x10) (w.rd = 0 && w.ra = 0 && w.rb = 0 && w.fn = 0) .O [] = true → x.outside target = true →
       exec (.br t w) s = .next (s.issued t (w.common 0x10) (.trap h .bounds (some target)))) ∧
     (s.head.takesEffect t (w.common 0x11) (w.ra = 0 && w.rb = 0 && w.fn = 0) .O [w.rd.toNat] = true → x.outside target = true →
       exec (.call t w) s = .next (s.issued t (w.common 0x11) (.trap h .bounds (some target)))) ∧
     (s.head.takesEffect t (w.common 0x12) (w.rd = 0 && w.rb = 0 && w.fn = 0 && w.imm = 0) .O [w.ra.toNat] = true →
       (x.reg w.ra.toNat).toNat % 8 ≠ 0 →
       exec (.jr t w) s = .next (s.issued t (w.common 0x12) (.trap h .align (some (x.reg w.ra.toNat))))) ∧
     (s.head.takesEffect t (w.common 0x12) (w.rd = 0 && w.rb = 0 && w.fn = 0 && w.imm = 0) .O [w.ra.toNat] = true →
       (x.reg w.ra.toNat).toNat % 8 = 0 → x.outside (x.reg w.ra.toNat) = true →
       exec (.jr t w) s = .next (s.issued t (w.common 0x12) (.trap h .bounds (some (x.reg w.ra.toNat))))))

/-- FENCE, WAITV and END, once the merging buffer of the engine has drained to head `k` (R35, R36, R45, R397): WAITV takes the answers
of the thread's verbs where all have come, else the thread waits for them; END leaves the thread ending with the result word RA. -/
def Obligations.FencesAndEnds : Prop :=
  ∀ (s : State) (t : Nat) (w : GWord) (k : Head), (s.head.fetched t).drainWt (engineOf t) = some k →
    let x := s.head.thread t
    (s.head.takesEffect t (w.common 0x0B) (bare w 0) .O [] = true → exec (.fence t w) s = .next (s.issued t (w.common 0x0B) (.go k))) ∧
    (s.head.takesEffect t (w.common 0x14) (bare w 0) .O [] = true →
      (x.verbsDone = true → exec (.waitv t w) s = .next (s.issued t (w.common 0x14) (.go (k.setThread t x.collect)))) ∧
      (x.verbsDone = false →
        exec (.waitv t w) s = .next (s.issued t (w.common 0x14) (.go (k.setThread t { x with run := .waitAll }))))) ∧
    (s.head.takesEffect t (w.common 0x13) (w.rd = 0 && w.rb = 0 && w.fn = 0 && w.imm = 0) .O [w.ra.toNat] = true →
      exec (.endp t w) s = .next (s.issued t (w.common 0x13) (.go (k.setThread t { x with run := .ending (x.reg w.ra.toNat) }))))

/-- TRAP at tier F with no active handler (R36, R49): TPC, TCAUSE and TADDR are set and the thread goes on at TVEC + 64 × 9, where TVEC
was written; nothing else changes but the counter of free values.

ERET continues at TPC, where it was written, with ACT cleared (R49). -/
def Obligations.TrapsAndReturns : Prop :=
  (∀ (s : State) (t : Nat) (w : GWord),
     let x := s.head.thread t
     x.tier = .F → bit x.tcause.toNat 17 = false → x.xw.getLsbD 0 = true →
       s.head.takesEffect t (w.common 0x15) (w.rd = 0 && w.ra = 0 && w.rb = 0 && w.fn = 0 && decide (w.imm.toNat < 256)) .O [] = true →
       ∃ u, exec (.trap t w) s = .next u ∧ u.pending = s.pending ∧ (∀ n, n ≠ t → u.head.thread n = s.head.thread n) ∧
         u.head.thread t = { x with
           tpc := x.pc, taddr := w.imm.setWidth 64, xw := x.xw ||| 6#3
           tcause := BitVec.ofNat 64 (3 * 2 ^ 18 + 2 ^ 17 + 0x15 * 2 ^ 8 + 9), pc := x.tvec + 576 } ∧
         u.head = { s.head with
           core := { s.head.core with threads := u.head.core.threads, l1 := u.head.core.l1 }, fresh := u.head.fresh }) ∧
  (∀ (s : State) (t : Nat) (w : GWord),
     let x := s.head.thread t
     x.xw.getLsbD 1 = true → s.head.goesOn t (w.common 0x28) (bare w 0x00) .F [] x.tpc = true →
       ∃ u, exec (.eret t w) s = .next u ∧ u.pending = s.pending ∧ (∀ n, n ≠ t → u.head.thread n = s.head.thread n) ∧
         u.head.thread t = { x with
           pc := x.tpc, icount := (x.icount + 1) % 2 ^ 64, tcause := x.tcause &&& ~~~(1#64 <<< 17) })

/-- The first four causes of Table 2-13, in their order, for every instruction that can issue (R28 to R30, R38, R47); each excludes
those after it. -/
def Obligations.TrapOrder : Prop :=
  ∀ (h : Head) (t : Nat) (c : Common) (legal : Bool) (low : Tier) (uses : List Nat) (body : Head → Thread → Iss),
    h.canIssue t = true →
    let k := h.fetched t
    let x := h.thread t
    let spent := x.buf && decide (65536 ≤ x.icount)
    (c.pois = true → h.issue t c legal low uses body = k.trap t .fetchPoison c.op (some x.pc)) ∧
    (c.pois = false → c.stray = true ∨ legal = false → h.issue t c legal low uses body = k.trap t .illegal c.op none) ∧
    (c.pois = false → c.stray = false → legal = true → x.takes c.pn c.ps = true → low.le x.tier = false →
      h.issue t c legal low uses body = k.trap t .priv c.op none) ∧
    (c.pois = false → c.stray = false → legal = true → x.takes c.pn c.ps = false ∨ low.le x.tier = true → spent = true →
      h.issue t c legal low uses body = k.trap t .budget c.op none) ∧
    (c.pois = false → c.stray = false → legal = true → spent = false → x.takes c.pn c.ps = false →
      h.issue t c legal low uses body = k.finish t c x (.go k))

/-- QPUT, QGET and QTRY on a hardware queue (R39, Table 2-9): an entry goes in at the end while there is room, and the oldest one
comes out; QTRY on an empty queue clears p7.

QPUT, QGET and QTRY on the queue of a buffer pool (R409 to R412): a buffer is freed, or one is allocated to the thread's charge. -/
def Obligations.QueueInstructions : Prop :=
  (∀ (s : State) (t : Nat) (w : GWord),
     let x := s.head.thread t
     let h := s.head.fetched t
     let q := queueOf x w
     q < 4080 →
     (s.head.takesEffect t (w.common 0x18) (w.rd = 0 && w.fn = 0x00) .F [w.ra.toNat, w.rb.toNat] = true →
       (s.head.hwq q).length < queueDepth q →
       exec (.qput t w) s = .next (s.issued t (w.common 0x18) (.go (h.setHwq q (s.head.hwq q ++ [x.reg w.rb.toNat]))))) ∧
     (∀ v r, s.head.hwq q = v :: r →
       (s.head.takesEffect t (w.common 0x18) (w.rb = 0 && w.fn = 0x01) .F [w.rd.toNat, w.ra.toNat] = true →
         exec (.qget t w) s = .next (s.issued t (w.common 0x18) (.go ((h.setHwq q r).setThread t (x.setReg w.rd.toNat v))))) ∧
       (s.head.takesEffect t (w.common 0x18) (w.rb = 0 && w.fn = 0x02) .F [w.rd.toNat, w.ra.toNat] = true →
         exec (.qtry t w) s = .next (s.issued t (w.common 0x18)
           (.go ((h.setHwq q r).setThread t ((x.setReg w.rd.toNat v).setPred 7 true)))))) ∧
     (s.head.hwq q = [] → s.head.takesEffect t (w.common 0x18) (w.rb = 0 && w.fn = 0x02) .F [w.rd.toNat, w.ra.toNat] = true →
       exec (.qtry t w) s = .next (s.issued t (w.common 0x18) (.go (h.setThread t (x.setPred 7 false)))))) ∧
  (∀ (s : State) (t : Nat) (w : GWord) (k : Head) (v : Word),
     let x := s.head.thread t
     let h := s.head.fetched t
     let p := queueOf x w - 4080
     4080 ≤ queueOf x w → queueOf x w < 4096 →
     (s.head.takesEffect t (w.common 0x18) (w.rd = 0 && w.fn = 0x00) .F [w.ra.toNat, w.rb.toNat] = true →
       (h.bufRelease p (x.reg w.rb.toNat) = some k → exec (.qput t w) s = .next (s.issued t (w.common 0x18) (.go k))) ∧
       (h.bufRelease p (x.reg w.rb.toNat) = none → exec (.qput t w) s =
         .next (s.issued t (w.common 0x18) (.trap (h.badFree p 1 (engineOf t) (x.reg w.rb.toNat) x.charge) .pool none)))) ∧
     (h.bufAlloc p x.cls x.chargeId = .buf k v →
       (s.head.takesEffect t (w.common 0x18) (w.rb = 0 && w.fn = 0x01) .F [w.rd.toNat, w.ra.toNat] = true →
         exec (.qget t w) s = .next (s.issued t (w.common 0x18) (.go (k.setThread t ((k.thread t).setReg w.rd.toNat v))))) ∧
       (s.head.takesEffect t (w.common 0x18) (w.rb = 0 && w.fn = 0x02) .F [w.rd.toNat, w.ra.toNat] = true →
         exec (.qtry t w) s =
           .next (s.issued t (w.common 0x18) (.go (k.setThread t (((k.thread t).setReg w.rd.toNat v).setPred 7 true)))))))

/-- SIG sets a signal bit of a thread and wakes it where it is idle; WAITS takes the bits that its mask selects, once one is set; IDLE
stops a thread with no bit set (R39, Tables 2-9 and 2-10).

DISPATCH of a firmware program on a free thread that runs (R24, R25, R388, R389): the thread begins at PC 0 at the tier given with g1 to g4
of the descriptor; a tier above F does not exist. -/
def Obligations.ThreadControl : Prop :=
  (∀ (s : State) (t : Nat) (w : GWord),
     let x := s.head.thread t
     let h := s.head.fetched t
     let n := (x.reg w.ra.toNat).toNat
     (n < 776 → s.head.takesEffect t (w.common 0x18) (w.rd = 0 && w.rb = 0 && w.fn = 0x08 && decide (w.imm.toNat < 64)) .F
         [w.ra.toNat] = true →
       exec (.sig t w) s = .next (s.issued t (w.common 0x18) (.go (h.setThread n { s.head.thread n with
         sigs := (s.head.thread n).sigs ||| (1#64 <<< w.imm.toNat)
         run := if (s.head.thread n).run = .idle then .running else (s.head.thread n).run })))) ∧
     (x.sigs &&& x.reg w.rb.toNat ≠ 0 →
       s.head.steps t (w.common 0x18) (w.ra = 0 && w.fn = 0x09 && w.imm = 0) .F [w.rd.toNat, w.rb.toNat] = true →
       s.computes (.waits t w) t (fun x => ({ x with sigs := x.sigs &&& ~~~(x.reg w.rb.toNat) }).setReg w.rd.toNat
         (x.sigs &&& x.reg w.rb.toNat))) ∧
     (s.head.takesEffect t (w.common 0x28) (bare w 0x08) .F [] = true →
       exec (.idle t w) s = .next (s.issued t (w.common 0x28)
         (.go (h.setThread t { x with run := if x.sigs = 0 then .idle else .running })))) ∧
     (s.head.takesEffect t (w.common 0x28) (bare w 0x09) .F [] = true →
       exec (.halt t w) s = .next (s.issued t (w.common 0x28) (.go (h.setThread t { x with run := .halted }))))) ∧
  (∀ (s : State) (t : Nat) (w : GWord),
     let x := s.head.thread t
     let h := s.head.fetched t
     let n := (x.reg w.ra.toNat).toNat
     let d := (x.reg w.rb.toNat).toNat
     let l := h.current (pelotonOf (engineOf t)) (d / 64)
     s.head.takesEffect t (w.common 0x28) (w.rd = 0 && w.fn = 0x0A && decide (w.imm.toNat < 4)) .F [w.ra.toNat, w.rb.toNat] = true →
       d % 64 = 0 → n < 776 → d + 64 ≤ 0x1800000000 → inInstr d 64 = false → dispatchOut l n (tierOf w.imm.toNat) = false →
       h.startable n = true →
       exec (.dispatch t w) s = .next (s.issued t (w.common 0x28) (.go (h.setThread n ((h.thread n).begin (tierOf w.imm.toNat)
         [l.word 2, l.word 3, l.word 4, l.word 5] (descWord l 1 63 63 = 1) (descWord l 1 31 0) (descWord l 0 63 0)
         (pack [(16, descWord l 1 49 48), (0, descWord l 1 47 32)]) none)))))

/-- CINV, CWB and CWBI over a range that lies in HBM do what Table 13-4 gives on every line of the range rounded outward, in the caches that IMM
selects; IINV drops those lines from the L1 I of its engine, and no other; LOCKFILL puts the lines of its range in its locked way (R402,
R403, Table 2-10). A range that leaves HBM raises BOUNDS, and so does LOCKFILL where its way is not locked or its range breaks the limits.

Table 13-4 on a line that stands in a cache and in no eviction buffer of it (R401, R403): an invalidation drops a clean line, and a dirty one
too, its data discarded, unless it stands in a locked way or is to be written back first; a write-back alone leaves a clean line as it is. In
an L2 a line written back before it goes leaves through the eviction buffer; the locks of ways stay. -/
def Obligations.CacheOperations : Prop :=
  (∀ (s : State) (t : Nat) (w : GWord),
     let x := s.head.thread t
     let h := s.head.fetched t
     let a := x.reg w.ra.toNat
     let n := x.reg w.rb.toNat
     let e := engineOf t
     let k := pelotonOf e
     let sel := w.imm.toNat
     let ready := fun (fn : BitVec 7) (lim : Nat) =>
       s.head.takesEffect t (w.common 0x28) (w.rd = 0 && w.fn = fn && decide (w.imm.toNat < lim)) .F [w.ra.toNat, w.rb.toNat] = true
     let on := fun (wb inv : Bool) => s.issued t (w.common 0x28) (.go ((linesOf a.toNat n.toNat).foldl (fun h l => h.cacheLine e l sel wb inv) h))
     let out := s.issued t (w.common 0x28) (.trap h .bounds (some a))
     let fills := decide (e < 96) && h.wayLocked k sel && a.toNat % 64 = 0 && n.toNat % 64 = 0 && decide (64 ≤ n.toNat) &&
       decide (n.toNat ≤ 262144) && decide (a.toNat + n.toNat ≤ 0x1800000000)
     (∀ l, l ∈ linesOf a.toNat n.toNat ↔ ∃ b, a.toNat ≤ b ∧ b < a.toNat + n.toNat ∧ b / 64 = l) ∧
     (a.toNat + n.toNat ≤ 0x1800000000 →
       (ready 0x01 4 → exec (.cinv t w) s = .next (on false true)) ∧ (ready 0x02 4 → exec (.cwb t w) s = .next (on true false)) ∧
       (ready 0x03 4 → exec (.cwbi t w) s = .next (on true true)) ∧
       (s.head.takesEffect t (w.common 0x28) (w.rd = 0 && w.fn = 0x04 && w.imm = 0) .F [w.ra.toNat, w.rb.toNat] = true →
         exec (.iinv t w) s = .next (s.issued t (w.common 0x28) (.go (h.setL1 e { h.l1 e with
           iline := (h.l1 e).iline.filter (fun l => !((linesOf a.toNat n.toNat).contains l)) }))))) ∧
     (0x1800000000 < a.toNat + n.toNat →
       (ready 0x01 4 → exec (.cinv t w) s = .next out) ∧ (ready 0x02 4 → exec (.cwb t w) s = .next out) ∧
       (ready 0x03 4 → exec (.cwbi t w) s = .next out) ∧
       (s.head.takesEffect t (w.common 0x28) (w.rd = 0 && w.fn = 0x04 && w.imm = 0) .F [w.ra.toNat, w.rb.toNat] = true →
         exec (.iinv t w) s = .next out)) ∧
     (ready 0x05 16 →
       (fills = true → exec (.lockfill t w) s = .next (s.issued t (w.common 0x28) (.go (h.lockFill k sel a.toNat n.toNat)))) ∧
       (fills = false → exec (.lockfill t w) s = .next out))) ∧
  (∀ (h : Head) (e l : Nat) (c : CLine),
     (cached (h.l1 e).evict l = none → cached (h.l1 e).lines l = some c →
       h.cacheLine e l 1 false true = h.setL1 e { h.l1 e with lines := dropLine (h.l1 e).lines l } ∧
       (c.dirty = false → h.cacheLine e l 1 true true = h.setL1 e { h.l1 e with lines := dropLine (h.l1 e).lines l }) ∧
       (c.dirty = true → ∀ k, h.putBelow (pelotonOf e) l c.ln = some k →
         h.cacheLine e l 1 true true = k.setL1 e { k.l1 e with lines := dropLine (k.l1 e).lines l })) ∧
     (cached (h.l1 e).evict l = none → cached (h.l1 e).lines l = none → ∀ wb inv, h.cacheLine e l 1 wb inv = h) ∧
     (e < 96 → cached (h.l2 (pelotonOf e)).evict l = none → cached (h.l2 (pelotonOf e)).lines l = some c →
       let k := pelotonOf e
       let gone := h.setL2 k { h.l2 k with lines := dropLine (h.l2 k).lines l }
       (c.dirty = false → h.cacheLine e l 2 false true = gone ∧ h.cacheLine e l 2 true true = gone ∧ h.cacheLine e l 2 true false = h) ∧
       (c.dirty = true → h.cacheLine e l 2 true true = h.evictL2 k c ∧
         (h.wayLocked k c.way = false → h.cacheLine e l 2 false true = gone) ∧
         (h.wayLocked k c.way = true → h.cacheLine e l 2 false true = h.evictL2 k c))) ∧
     (e < 96 → canon L2.fresh h.core.l2 = true → ∀ d, cached (h.l2 (pelotonOf e)).evict l = some d →
       cached (h.l2 (pelotonOf e)).lines l = none → ∀ wb inv, h.cacheLine e l 2 wb inv = h.ackL2 (pelotonOf e) l))

/-! ## Verbs -/

/-- A verb that starts is counted among its thread's outstanding verbs with its operands read (R42, R44): with W = 1 the thread waits
for it, with W = 0 it goes on. Of the work its command's count of verbs and the head's own numbering of verbs move on (log entry 10); before them
a verb log that is full gets a further page (R163; log entry 89).

A verb issued without wait that has its answer writes its result register and is awaited no more (R44, R45); p7 and VS
stay. -/
def Obligations.OutstandingVerbs : Prop :=
  (∀ (s : State) (t vc : Nat) (w : VWord), s.head.canIssue t = true →
     let x := s.head.thread t
     let g := (s.head.fetched t).logGrown x.cmd x.outs
     (s.verbNew t vc w).ops = (upto w.no.toNat).map (fun k => x.reg (w.ra.toNat + k)) ∧
     (s.verbNew t vc w).vid = g.work.vid ∧ (s.verbNew t vc w).ans = none ∧
     (s.head.logFull x.cmd x.outs = false → g = s.head.fetched t) ∧
     (s.verbHead t vc w).work = { g.work with vid := g.work.vid + 2, cmds := match x.cmd with
       | some k => mapFirst (fun c => c.side = k.1 && c.seq = k.2) (fun c => { c with issued := c.issued + 1 }) g.work.cmds
       | none => g.work.cmds } ∧
     (w.w = false → (s.verbHead t vc w).thread t = { x with verbs := x.verbs ++ [⟨g.work.vid, vc, w.rd, none, false⟩] }) ∧
     (w.w = true → (s.verbHead t vc w).thread t = { x with
       verbs := x.verbs ++ [⟨g.work.vid, vc, w.rd, none, false⟩], run := .waitVerb g.work.vid }) ∧
     ∀ n, n ≠ t → (s.verbHead t vc w).thread n = g.thread n) ∧
  (∀ (s : State) (t i : Nat) (v : OutVerb) (a : VRes),
     let x := s.head.thread t
     x.verbs[i]? = some v → v.ans = some a → v.taken = false → x.run ≠ .waitVerb v.vid →
       exec (.verbComplete t i) s = .next (s.become (s.head.setThread t { (x.setReg v.rd.toNat a.result) with
         verbs := x.verbs.map (fun (u : OutVerb) => if u.vid = v.vid then { u with taken := true } else u) })))

/-- The verbs whose whole effect falls at the commit point of their command (Table 3-5: codes D and E): each starts with the operands
its row names and waits for that point (R62, R63). -/
def Obligations.EffectVerbsStart : Prop :=
  ∀ (s : State) (t : Nat) (w : VWord),
    let waits := fun (vc : Nat) => s.verbRuns t vc w (fun h v => h.push v .effect)
    (s.head.verbStarts t 0x06 0 [3] w = true → exec (.drop t w) s = .next (waits 0x06)) ∧
    (s.head.verbStarts t 0x07 0 [1] w = true → exec (.sdrop t w) s = .next (waits 0x07)) ∧
    (s.head.verbStarts t 0x08 1 [1] w = true → exec (.snap t w) s = .next (waits 0x08)) ∧
    (s.head.verbStarts t 0x09 0 [2] w = true → exec (.clone t w) s = .next (waits 0x09)) ∧
    (s.head.verbStarts t 0x0A 3 [2] w = true → exec (.replicateStart t w) s = .next (waits 0x0A) ∧
      exec (.replicateStop t w) s = .next (waits 0x0A) ∧ exec (.replicateReport t w) s = .next (waits 0x0A)) ∧
    (s.head.verbStarts t 0x0B 0 [2] w = true → exec (.windowOpen t w) s = .next (waits 0x0B)) ∧
    (s.head.verbStarts t 0x0C 0 [1] w = true → exec (.windowRevoke t w) s = .next (waits 0x0C)) ∧
    (s.head.verbStarts t 0x0D 1 [2] w = true → exec (.arm t w) s = .next (waits 0x0D)) ∧
    (s.head.verbStarts t 0x0E 0 [2] w = true → exec (.contractOpen t w) s = .next (waits 0x0E)) ∧
    (s.head.verbStarts t 0x0F 0 [1] w = true → exec (.contractClose t w) s = .next (waits 0x0F)) ∧
    (s.head.verbStarts t 0x16 0 [0] w = true → exec (.eventClear t w) s = .next (waits 0x16)) ∧
    (s.head.verbStarts t 0x19 1 [1] w = true → exec (.dozeEnter t w) s = .next (waits 0x19) ∧ exec (.dozeLeave t w) s = .next (waits 0x19)) ∧
    (s.head.verbStarts t 0x1A 0 [2] w = true → exec (.updateStage t w) s = .next (waits 0x1A)) ∧
    (s.head.verbStarts t 0x1C 0 [0] w = true → exec (.confirm t w) s = .next (waits 0x1C)) ∧
    (∀ c, (s.verbHead t 0x04 w).caller (s.verbNew t 0x04 w) = some c → (w.imm = 1 → c.ord = true) →
      s.head.verbStarts t 0x04 1 [0] w = true → exec (.flush t w) s = .next (waits 0x04)) ∧
    (∀ c, (s.verbHead t 0x05 w).caller (s.verbNew t 0x05 w) = some c → (w.imm = 1 → c.ord = true) →
      s.head.verbStarts t 0x05 1 [0] w = true → exec (.mark t w) s = .next (waits 0x05))

/-- What a verb that waits for its commit point does there (R62, R63): the effect that its code names, once; where the effect fails
nothing changes but its answer. A CONTRACT.OPEN or CONTRACT.CLOSE on the head that does not hold the ledger asks its holder and waits for the
decision, or answers what the checks on its own queue give (R92; log entry 19).

The effects of some of them, where they succeed: CLONE makes an empty volume over its snapshot (R307); WINDOW.REVOKE moves the window's
generation on and starts the drain (R140); DROP of no bytes changes nothing (R238); CONTRACT.OPEN refused by admission changes nothing and
answers CONTRACT_REFUSED (R84, R92); EVENT.CLEAR answers with the number of records cleared (R451). -/
def Obligations.EffectsAtCommit : Prop :=
  (∀ (h : Head) (v : HVerb), v.ans = none → v.aw = .effect → h.verbMay v = true →
     (v.vc = 0x0E ∨ v.vc = 0x0F → h.ledger = false →
       (∀ r, h.askLedger v = .error r → h.stepVerb v = (h.answerVerb v r, true)) ∧
       (∀ k, h.askLedger v = .ok k → h.stepVerb v = (k.updVerb v.vid (fun v => { v with aw := .ledger }), true))) ∧
     (((v.vc ≠ 0x0E ∧ v.vc ≠ 0x0F) ∨ h.ledger = true) →
       (∀ e : Eff, h.effect v = some e →
         (e.passes = false → h.stepVerb v = (e.head.answerVerb v e.res, true)) ∧
         (e.passes = true →
           let g := e.head.updVerb v.vid (fun v => { v with aw := e.wait.getD .nothing, past := true, tag := e.tag, res := e.res })
           (v.cmd = none → h.stepVerb v = (g.meterCover v, true)) ∧
           (∀ k, v.cmd = some k → h.stepVerb v = ((g.updCmd k (fun c => c.marked v (v.vc = 5))).meterCover v, true)))) ∧
       (h.effect v = none → h.stepVerb v = (h, false))) ∧
     (v.vc = 0x06 → h.effect v = some (h.effDrop v)) ∧ (v.vc = 0x07 → h.effect v = some (h.effSdrop v)) ∧
     (v.vc = 0x08 → h.effect v = some (h.effSnap v)) ∧ (v.vc = 0x09 → h.effect v = some (h.effClone v)) ∧
     (v.vc = 0x0A → h.effect v = some (h.effReplicate v)) ∧ (v.vc = 0x0B → h.effect v = some (h.effOpen v)) ∧
     (v.vc = 0x0C → h.effect v = some (h.effRevoke v)) ∧ (v.vc = 0x0D → h.effect v = some (h.effArm v)) ∧
     (v.vc = 0x0E → h.effect v = some (h.effContractOpen v)) ∧ (v.vc = 0x0F → h.effect v = some (h.effContractClose v)) ∧
     (v.vc = 0x16 → h.effect v = some (h.effEventClear v)) ∧ (v.vc = 0x19 → h.effect v = some (h.effDoze v)) ∧
     (v.vc = 0x1A → h.effect v = some (h.effStage v)) ∧ (v.vc = 0x1C → h.effect v = some h.effConfirm)) ∧
  (∀ (h : Head) (v : HVerb),
     (∀ p e r x, h.handle (nth 0 v.ops 0) = (p, e) :: r → h.vol p = some x → bit (nth 0 v.ops 0).toNat 47 = false →
       h.vol (v.arg 1) = none → cloneDepth 9 h.vols.vols p + 1 ≤ 8 →
       ∃ n : Volume, n.num = v.arg 1 ∧ n.pool = x.pool ∧ n.home = x.home ∧ n.vend = 0 ∧ n.writes = [] ∧ n.snaps = [] ∧
         n.parent = some (p, e) ∧ (h.effClone v).passes = true ∧ (h.effClone v).res = ⟨.ok, 0, 0, false⟩ ∧
         (h.effClone v).head.vols.vols.getLast? = some n) ∧
     (∀ x, h.volFor v (v.arg 0) = some x → pastEnd (v.arg 1) (v.arg 2) = false → v.arg 2 = 0 →
       h.effDrop v = ⟨h, none, ⟨.ok, 0, 0, false⟩, true, none⟩) ∧
     (∀ w, h.window (h.vside v) (refKey (nth 0 v.ops 0)) = some w → mayWindow (h.vslot v) w = true → w.out = false →
       w.gen = refGen (nth 0 v.ops 0) →
       (h.effRevoke v).passes = true ∧ (h.effRevoke v).wait = some (.revoke w.side w.idx) ∧
         (h.effRevoke v).res = ⟨.ok, BitVec.ofNat 64 ((w.gen + 1) % 65536), 0, false⟩) ∧
     ((h.effEventClear v).res.result = BitVec.ofNat 64 (h.clearEvents (h.vslot v)).2) ∧
     (h.window (h.vside v) (refKey (nth 0 v.ops 0)) = none → h.vreplay v = false →
       (h.effRevoke v).head = h ∧ (h.effRevoke v).res.status = .invalid ∧
         (h.effArm v).head = h ∧ (h.effArm v).res.status = .invalid))

/-- PUT and PUTA that are not atomic, whose volume, range and source are there, wait for their source and their commit point (R69 to R73); an
atomic one (R298) takes an atomic slot too, and with none free answers CAPACITY. A re-run verb
whose first run is past its commit point goes on from there (R162, R164).

What a write names as its source (R71, R72): the inline data of its command where its length is the one given, LENGTH_MISMATCH where it is
not; a window of the generation given with room for the range. -/
def Obligations.WriteVerbs : Prop :=
  (∀ (s : State) (t : Nat) (w : VWord) (k : Head) (src : Src),
     let h1 := s.verbHead t 0x01 w
     let v1 := s.verbNew t 0x01 w
     let h2 := s.verbHead t 0x02 w
     let v2 := s.verbNew t 0x02 w
     (s.head.verbIssues t 1 w = true → h1.fromLog v1 = none → h1.resumeVerb v1 = some k →
       exec (.put t w) s = .next (s.verbRuns t 0x01 w (fun _ _ => k))) ∧
     (s.head.verbIssues t 1 w = true → h2.fromLog v2 = none → h2.resumeVerb v2 = some k →
       exec (.puta t w) s = .next (s.verbRuns t 0x02 w (fun _ _ => k))) ∧
     (s.head.verbStarts t 0x01 1 [4] w = true → (h1.volFor v1 (v1.arg 0)).isSome = true → pastEnd (v1.arg 1) (v1.arg 3) = false →
       h1.writeSource v1 (nth 0 v1.ops 2) (v1.arg 3) = .ok (k, src) →
       (w.imm = 0 → exec (.put t w) s = .next (s.verbRuns t 0x01 w (fun _ v =>
         k.push v (.put ⟨v.arg 0, some (v.arg 1), v.arg 3, src, false, false, [], [], [], []⟩)))) ∧
       (w.imm = 1 → 0 < v1.arg 3 → v1.arg 3 ≤ 268435456 →
         (k.atomsFull = false → exec (.put t w) s = .next (s.verbRuns t 0x01 w (fun _ v =>
           (k.takeAtom v (v.arg 0) (v.arg 1) (v.arg 3)).push v
             (.put ⟨v.arg 0, some (v.arg 1), v.arg 3, src, true, false, [], [], [], []⟩)))) ∧
         (k.atomsFull = true → k.atomOf v1 (v1.arg 0) (v1.arg 3) = none → exec (.put t w) s = .next (s.verbRuns t 0x01 w (fun _ v => k.failVerb v .capacity))))) ∧
     (s.head.verbStarts t 0x02 1 [3] w = true → (h2.volFor v2 (v2.arg 0)).isSome = true → v2.arg 2 ≤ 2 ^ 50 →
       h2.writeSource v2 (nth 0 v2.ops 1) (v2.arg 2) = .ok (k, src) →
       (w.imm = 0 → exec (.puta t w) s = .next (s.verbRuns t 0x02 w (fun _ v =>
         k.push v (.put ⟨v.arg 0, none, v.arg 2, src, false, true, [], [], [], []⟩)))) ∧
       (w.imm = 1 → 0 < v2.arg 2 → v2.arg 2 ≤ 268435456 → k.atomsFull = false →
         exec (.puta t w) s = .next (s.verbRuns t 0x02 w (fun _ v =>
           (k.takeAtom v (v.arg 0) 0 (v.arg 2)).push v (.put ⟨v.arg 0, none, v.arg 2, src, true, true, [], [], [], []⟩)))))) ∧
  (∀ (h : Head) (v : HVerb) (r : Word) (len : Nat),
     (∀ c, r = 0 → h.caller v = some c →
       (c.inl.length = len → h.writeSource v r len = .ok (h, .inl c.inl)) ∧
       (c.inl.length ≠ len → h.writeSource v r len = .error .lengthMismatch)) ∧
     (∀ w, r ≠ 0 → h.window (h.vside v) (refKey r) = some w →
       (w.gen ≠ refGen r → h.writeSource v r len = .error .windowStale) ∧
       (w.gen = refGen r → w.out = false → w.unmir = false → refOff r + len ≤ w.size →
         h.writeSource v r len = .ok (h.named v w, .win w.key w.gen (refOff r))) ∧
       (w.gen = refGen r → w.size < refOff r + len → h.writeSource v r len = .error .invalid)))

/-- GET (R66, R222): of a range inside its volume, with a destination that is there, it asks flash for what stands there; where nothing of the range
does, it delivers at once every byte of a granule that is not poisoned and zeros for the others. RESULT counts the bytes, AUX the poisoned granules.
The place of a poison map is checked as the destination is; the map itself is delivered last (`Head.finishGet`). -/
def Obligations.ReadVerbs : Prop :=
  ∀ (s : State) (t : Nat) (w : VWord),
    let h := s.verbHead t 0x03 w
    let v := s.verbNew t 0x03 w
    let vol := v.arg 0
    let off := v.arg 1
    let n := v.arg 3
    let g := h.pushC v (.reads false) (.ok 0)
    let mapLen := ((granules off n).length + 7) / 8
    s.head.verbStarts t 0x03 0 [4, 5] w = true → (h.volFor v vol).isSome = true → pastEnd off n = false →
    (h.reaches (h.vside v) (h.vreplay v) (nth 0 v.ops 2) n = true →
      (v.ops.length = 5 → h.reaches (h.vside v) (h.vreplay v) (nth 0 v.ops 4) mapLen = true) →
      (n = 0 → exec (.get t w) s = .next (s.verbRuns t 0x03 w (fun h v => h.pushC v .nothing ⟨.ok, 0, 0, false⟩))) ∧
      (n ≠ 0 → exec (.get t w) s = .next (s.verbRuns t 0x03 w (fun h v => ((h.pushC v (.reads false) (.ok 0)).stepRead v false).1))) ∧
      (v.ops.length = 4 → n ≠ 0 → g.flashPieces vol lastEpoch off n = [] → (∀ x, x ∈ g.fl.wants → x.who ≠ .verb v.vid) →
        let bad := (granules off n).filter (g.granulePoisoned vol)
        let bytes := (upto n).map (fun i => if bad.contains ((off + i) / 4096) then 0 else (volByte 9 g.vols.vols vol lastEpoch (off + i)).getD 0)
        ∃ k c ps, g.deliver (h.vside v) (h.vreplay v) (nth 0 v.ops 2) bytes = .ok (k, c, ps) ∧
          exec (.get t w) s = .next (s.verbRuns t 0x03 w (fun _ v => k.updVerb v.vid (fun v => { v with
            aw := .deliver (ps.map (fun p => (c, p)))
            res := ⟨if bad = [] then .ok else .poison, BitVec.ofNat 64 n, bad.length, false⟩ }))))) ∧
    (∀ e, h.dest (h.vside v) (h.vreplay v) (nth 0 v.ops 2) n = .error e →
      exec (.get t w) s = .next (s.verbRuns t 0x03 w (fun h v => h.failVerb v e))) ∧
    (∀ e, h.reaches (h.vside v) (h.vreplay v) (nth 0 v.ops 2) n = true → v.ops.length = 5 →
      h.dest (h.vside v) (h.vreplay v) (nth 0 v.ops 4) mapLen = .error e →
      exec (.get t w) s = .next (s.verbRuns t 0x03 w (fun h v => h.failVerb v e)))

/-- JOURNAL.READ and EVENT.READ (R79, R157, R450): with a count of 0 they answer the newest number; else, with a destination that is there, they deliver
the records of the range that are present, and answer PARTIAL where one of it is gone, the newest number and how many went out; too small a
destination, a side above 1 or a count above 65,536 has INVALID. -/
def Obligations.RecordVerbs : Prop :=
  ∀ (s : State) (t : Nat) (w : VWord),
    (let h := s.verbHead t 0x14 w
     let v := s.verbNew t 0x14 w
     let side := v.arg 0
     let n := v.arg 2
     let newest := h.readable side
     let x := h.journalRange side (v.arg 1) n newest (decide (v.imm % 2 = 1))
     let hidden := fun (r : JRec) => decide (slotTier (h.vslot v) = .O) && decide (h.vslot v ≠ h.cfgS side .QCFG r.queue 55 48)
     let bytes := (x.1.map (fun r => r.bytes (hidden r))).flatten
     s.head.verbStarts t 0x14 1 [4] w = true →
      (1 < side ∨ 65536 < n → exec (.journalRead t w) s = .next (s.verbRuns t 0x14 w (fun h v => h.failVerb v .invalid))) ∧
      (side ≤ 1 → n = 0 → exec (.journalRead t w) s = .next (s.verbRuns t 0x14 w (fun h v =>
        h.pushC v .nothing ⟨.ok, BitVec.ofNat 64 newest, 0, false⟩))) ∧
      (side ≤ 1 → 1 ≤ n → n ≤ 65536 →
        (∀ e, h.dest (h.vside v) (h.vreplay v) (nth 0 v.ops 3) (32 * n) = .error e →
          exec (.journalRead t w) s = .next (s.verbRuns t 0x14 w (fun h v => h.failVerb v e))) ∧
        (h.reaches (h.vside v) (h.vreplay v) (nth 0 v.ops 3) (32 * n) = true →
          ∃ k c ps, h.deliver (h.vside v) (h.vreplay v) (nth 0 v.ops 3) bytes = .ok (k, c, ps) ∧
            exec (.journalRead t w) s = .next (s.verbRuns t 0x14 w (fun _ v => k.pushC v (.deliver (ps.map (fun p => (c, p))))
              ⟨if x.2 then .partially else .ok, BitVec.ofNat 64 newest, x.1.length, false⟩))))) ∧
    (let h := s.verbHead t 0x15 w
     let v := s.verbNew t 0x15 w
     let n := v.arg 1
     let found := (((upto n).map (fun i => v.arg 0 + i)).filter (fun q => decide (q ≤ h.newestEvent))).map h.eventAt
     let evs := found.filterMap id
     let bytes := (evs.map (fun e => e.bytes)).flatten
     s.head.verbStarts t 0x15 0 [3] w = true →
      (65536 < n → exec (.eventRead t w) s = .next (s.verbRuns t 0x15 w (fun h v => h.failVerb v .invalid))) ∧
      (n = 0 → exec (.eventRead t w) s = .next (s.verbRuns t 0x15 w (fun h v =>
        h.pushC v .nothing ⟨.ok, BitVec.ofNat 64 h.newestEvent, 0, false⟩))) ∧
      (1 ≤ n → n ≤ 65536 →
        (∀ e, h.dest (h.vside v) (h.vreplay v) (nth 0 v.ops 2) (64 * n) = .error e →
          exec (.eventRead t w) s = .next (s.verbRuns t 0x15 w (fun h v => h.failVerb v e))) ∧
        (h.reaches (h.vside v) (h.vreplay v) (nth 0 v.ops 2) (64 * n) = true →
          ∃ k c ps, h.deliver (h.vside v) (h.vreplay v) (nth 0 v.ops 2) bytes = .ok (k, c, ps) ∧
            exec (.eventRead t w) s = .next (s.verbRuns t 0x15 w (fun _ v => k.pushC v (.deliver (ps.map (fun p => (c, p))))
              ⟨if found.any (fun r => r.isNone) then .partially else .ok, BitVec.ofNat 64 h.newestEvent, evs.length, false⟩)))))

/-- QRESET of another queue, and RESET of its three scopes (R68, R75, R161, R162): a queue at once takes no entry and loses those in its slots; a
head or island is reset once the command has completed.

DIGEST and ATTEST (R428, R430 to R432), UPDATE.ACTIVATE on side 0 (R440): a digest context of the caller's takes the fragments
listed; the report goes out; the pair begins its hand-off.

ARCHIVE and RESTORE (R381, R382) that no port refuses start a job on their port. -/
def Obligations.JobVerbs : Prop :=
  (∀ (s : State) (t : Nat) (w : VWord),
     (let v := s.verbNew t 0x17 w
      s.head.verbStarts t 0x17 0 [1] w = true → v.arg 0 < 65536 → (s.verbHead t 0x17 w).ownQueue v (v.arg 0) = false →
       exec (.qreset t w) s = .next (s.verbRuns t 0x17 w (fun h v =>
         ((h.updQueue (h.vside v) (v.arg 0) (fun q => { q with rst := true, slots := [] })).sayQueue (h.vside v) (v.arg 0)).pushA v
           (.qreset (h.vside v) (v.arg 0)) (.ok 0)))) ∧
     (let h := s.verbHead t 0x18 w
      let v := s.verbNew t 0x18 w
      s.head.verbStarts t 0x18 0 [2] w = true →
       (∀ k, v.arg 0 = 0 → v.cmd = some k → h.pair.handoff = none →
         exec (.resetHead t w) s = .next (s.verbRuns t 0x18 w (fun h v =>
           (h.setRst { h.sys.rst with pend := h.sys.rst.pend ++ [(k, 0, 0)] }).pushA v .nothing (.ok 0)))) ∧
       (∀ k, v.arg 0 = 1 → v.cmd = some k → h.islandRefused (v.arg 1) = false →
         exec (.resetIsland t w) s = .next (s.verbRuns t 0x18 w (fun h v =>
           (h.setRst { h.sys.rst with pend := h.sys.rst.pend ++ [(k, 1, v.arg 1)] }).pushA v .nothing (.ok 0)))) ∧
       (v.arg 0 = 2 → v.arg 1 < 65536 → h.ownQueue v (v.arg 1) = false →
         exec (.resetQueue t w) s = .next (s.verbRuns t 0x18 w (fun h v =>
           ((h.updQueue (h.vside v) (v.arg 1) (fun q => { q with rst := true, slots := [] })).sayQueue (h.vside v) (v.arg 1)).pushA v
             (.qreset (h.vside v) (v.arg 1)) (.ok 0)))))) ∧
  (∀ (s : State) (t : Nat) (w : VWord),
     (let h := s.verbHead t 0x12 w
      let v := s.verbNew t 0x12 w
      let c := v.imm % 16
      s.head.verbStarts t 0x12 15 [2] w = true → (h.dgctx c).owner ≠ 255 → (h.dgctx c).owner = h.vslot v →
       (v.arg 1 = 0 → exec (.digest t w) s = .next (s.verbRuns t 0x12 w (fun h v => h.pushC v .nothing ⟨.empty, 0, 0, false⟩))) ∧
       (∀ (l : List Byte) (k : Head), v.arg 1 ≠ 0 → h.digestList v (16 * v.arg 1) = .ok (l, false) →
         h.digestInto c (gather (h.digestFrag v (decide (nth 0 v.ops 0 = 0))) l (v.arg 1)) = .ok k →
         exec (.digest t w) s = .next (s.verbRuns t 0x12 w (fun _ v =>
           ((nth 0 v.ops 0 :: fragRefs l (v.arg 1)).foldl (fun h r => if r = 0 then h else h.nameRef v r) k).pushC v .nothing
             ⟨.ok, BitVec.ofNat 64 c, 0, false⟩)))) ∧
     (let h := s.verbHead t 0x13 w
      let v := s.verbNew t 0x13 w
      ∀ (nonce : List Byte) (k : Head) (c : Nat) (ps : List Nat), s.head.verbStarts t 0x13 0 [2] w = true →
       h.source (h.vside v) (h.vreplay v) (nth 0 v.ops 0) 32 = .ok (nonce, false) →
       h.deliver (h.vside v) (h.vreplay v) (nth 0 v.ops 1) (h.report nonce) = .ok (k, c, ps) →
       exec (.attest t w) s = .next (s.verbRuns t 0x13 w (fun _ v =>
         (k.nameRef v (nth 0 v.ops 0)).tick.pushC v (.deliver (ps.map (fun p => (c, p)))) ⟨.ok, 416, 0, false⟩))) ∧
     (let h := s.verbHead t 0x1B w
      let v := s.verbNew t 0x1B w
      s.head.verbStarts t 0x1B 0 [0] w = true → h.vreplay v = false → h.whole = true → h.bothStaged = true →
       h.keys.fw.conf = true → h.keys.fw.peerConf = true → h.side = 0 →
       exec (.updateActivate t w) s = .next (s.verbRuns t 0x1B w (fun h v => (h.pushA v .activation (.ok 0)).beginHandoff 1 true)))) ∧
  (∀ (s : State) (t : Nat) (w : VWord) (b : List Byte),
     (let h := s.verbHead t 0x10 w
      let v := s.verbNew t 0x10 w
      let f := dword b
      s.head.verbStarts t 0x10 0 [3] w = true → v.arg 1 ≤ 1 → h.attachJob (v.arg 1) v true = none →
       h.source (h.vside v) (h.vreplay v) (nth 0 v.ops 2) 64 = .ok (b, false) → h.handle (nth 0 v.ops 0) ≠ [] →
       f 0 31 2 = 0 → f 1 31 0 = 0 → ((b.drop 16).take 48).all (fun x => x = 0) = true → f 0 1 1 = 0 →
       h.portTakes (v.arg 1) (if f 0 0 0 = 1 then 0 else f 0 63 32) true = true →
       ∃ j : TJob, j.vid = v.vid ∧ j.snap = nth 0 v.ops 0 ∧ j.todo = h.snapRanges (h.handle (nth 0 v.ops 0)) ∧
         exec (.archive t w) s = .next (s.verbRuns t 0x10 w (fun h v => h.runJob (v.arg 1) v j))) ∧
     (let h := s.verbHead t 0x11 w
      let v := s.verbNew t 0x11 w
      let f := dword b
      s.head.verbStarts t 0x11 0 [3] w = true → v.arg 0 ≤ 1 → h.attachJob (v.arg 0) v false = none →
       (h.volFor v (v.arg 1)).isSome = true → h.source (h.vside v) (h.vreplay v) (nth 0 v.ops 2) 96 = .ok (b, false) →
       f 0 31 2 = 0 → f 0 1 0 ≠ 3 → f 1 15 0 = 0 → f 2 63 0 ≤ 2 ^ 48 → f 3 47 0 = 0 → ((b.drop 40).take 24).all (fun x => x = 0) = true →
       (h.work.readMostly = true → exec (.restore t w) s = .next (s.verbRuns t 0x11 w (fun h v => h.failVerb v .capacity))) ∧
       (h.work.readMostly = false → h.portTakes (v.arg 0) (f 0 63 32) false = true →
         ∃ j : TJob, j.vid = v.vid ∧ j.vol = v.arg 1 ∧ j.archive = false ∧ j.first = f 1 63 16 ∧ j.count = f 2 63 0 ∧
           exec (.restore t w) s = .next (s.verbRuns t 0x11 w (fun h v => h.runJob (v.arg 0) v j)))))

/-- The unit verbs that read and write HBM at once, without poison and with their operands in range (Tables 2-12, 7-8 and 9-1; R175, R179, R247,
R249, R434). The operands of SIGN, VERIFY and XFER and the results of LDPCS, NFOP and TFMT are the model's (log entry 38).

ECENC and ECDEC over HBM with their operands in range (Table 9-1, R247, R249): each parity unit is the sum of the data units by their
coefficients; the erased units are those that solve the parity equations. -/
def Obligations.UnitVerbs : Prop :=
  (∀ (s : State) (t : Nat) (w : VWord),
     (let h := s.verbHead t 0x80 w
      let v := s.verbNew t 0x80 w
      let cut := h.red.gear.cut (h.unitRead false (v.arg 0) (v.arg 1)).1
      s.head.unitStarts t 0x80 0 [4] w = true → 1 ≤ v.arg 1 → v.arg 1 ≤ 4194304 → 1 ≤ v.arg 3 → hbmOk (v.arg 0) (v.arg 1) = true →
       hbmOk (v.arg 2) (4 * v.arg 3) = true → cut.length ≤ v.arg 3 →
       exec (.chunk t w) s = .next (s.verbRuns t 0x80 w (fun h v =>
         (h.unitWrite false (v.arg 2) ((cut.map (leBytes 4)).flatten) (fun _ => false)).answerVerb v
           ⟨.ok, pack [(32, sum cut), (0, cut.length)], 0, false⟩))) ∧
     (let h := s.verbHead t 0x81 w
      let v := s.verbNew t 0x81 w
      s.head.unitStarts t 0x81 0 [3] w = true → 1 ≤ v.arg 1 → v.arg 1 ≤ 262144 → hbmOk (v.arg 0) (v.arg 1) = true →
       hbmOk (v.arg 2) 32 = true → (h.unitRead false (v.arg 0) (v.arg 1)).2 = false →
       exec (.fprint t w) s = .next (s.verbRuns t 0x81 w (fun h v => (h.unitWrite false (v.arg 2)
         (Sha.sha256 (h.unitRead false (v.arg 0) (v.arg 1)).1) (fun _ => false)).answerVerb v (.ok 0)))) ∧
     (s.head.unitStarts t 0x82 0x3FF [5] w = true → (s.verbHead t 0x82 w).cmprOk (s.verbNew t 0x82 w) = true →
       exec (.cmpr t w) s = .next (s.verbRuns t 0x82 w (fun h v => h.unitAsk 0 v))) ∧
     (s.head.unitStarts t 0x83 7 [5] w = true → dcmpOk (s.verbNew t 0x83 w) = true →
       exec (.dcmp t w) s = .next (s.verbRuns t 0x83 w (fun h v => h.unitAsk 1 v))) ∧
     (s.head.unitStarts t 0x86 0 (upto 32) w = true → exec (.ldpcs t w) s = .next (s.verbRuns t 0x86 w Head.openVerb)) ∧
     (s.head.unitStarts t 0x8A 0 (upto 32) w = true → exec (.nfop t w) s = .next (s.verbRuns t 0x8A w Head.openVerb)) ∧
     (s.head.unitStarts t 0x8B 0 (upto 32) w = true → exec (.tfmt t w) s = .next (s.verbRuns t 0x8B w Head.openVerb)) ∧
     (let h := s.verbHead t 0x87 w
      let v := s.verbNew t 0x87 w
      s.head.unitStarts t 0x87 15 [2] w = true →
       (v.arg 1 = 0 → exec (.dgst t w) s = .next (s.verbRuns t 0x87 w (fun h v => h.answerVerb v ⟨.empty, 0, 0, false⟩))) ∧
       (∀ k, v.arg 1 ≠ 0 → hbmOk (v.arg 0) (16 * v.arg 1) = true → (h.unitRead false (v.arg 0) (16 * v.arg 1)).2 = false →
         h.digestInto (v.imm % 16) (gather h.dgstFrag (h.unitRead false (v.arg 0) (16 * v.arg 1)).1 (v.arg 1)) = .ok k →
         exec (.dgst t w) s = .next (s.verbRuns t 0x87 w (fun _ v => k.answerVerb v (.ok (BitVec.ofNat 64 (v.imm % 16))))))) ∧
     (let h := s.verbHead t 0x88 w
      let v := s.verbNew t 0x88 w
      s.head.unitStarts t 0x88 0 [3] w = true → hbmOk (v.arg 0) (v.arg 1) = true → hbmOk (v.arg 2) 64 = true →
       (h.unitRead false (v.arg 0) (v.arg 1)).2 = false →
       exec (.sign t w) s = .next (s.verbRuns t 0x88 w (fun h v => (h.unitWrite false (v.arg 2)
         (fit 0 64 (Config.edSign Config.idPrivate (h.unitRead false (v.arg 0) (v.arg 1)).1)) (fun _ => false)).answerVerb v (.ok 0)))) ∧
     (let h := s.verbHead t 0x89 w
      let v := s.verbNew t 0x89 w
      let m := h.unitRead false (v.arg 0) (v.arg 1)
      let k := h.unitRead false (v.arg 2) 32
      let g := h.unitRead false (v.arg 3) 64
      s.head.unitStarts t 0x89 0 [4] w = true → hbmOk (v.arg 0) (v.arg 1) = true → hbmOk (v.arg 2) 32 = true → hbmOk (v.arg 3) 64 = true →
       m.2 = false → k.2 = false → g.2 = false →
       exec (.verify t w) s = .next (s.verbRuns t 0x89 w (fun h v =>
         h.answerVerb v (if Config.edVerify k.1 m.1 g.1 then .ok 0 else .fail .checkFail)))) ∧
     (let v := s.verbNew t 0x8C w
      let n := v.arg 2
      s.head.unitStarts t 0x8C 0 [3] w = true → v.arg 0 < 2 ^ 37 → v.arg 1 < 2 ^ 37 → hbmOk (v.arg 0) n = true → hbmOk (v.arg 1) n = true →
       exec (.xfer t w) s = .next (s.verbRuns t 0x8C w (fun h v =>
         (h.unitStore false (v.arg 1) (h.unitSee false (v.arg 0) n)).answerVerb v (.ok 0))))) ∧
  (∀ (s : State) (t : Nat) (w : VWord),
     (let h := s.verbHead t 0x84 w
      let v := s.verbNew t 0x84 w
      let n := v.arg 2
      let m := v.imm % 32 + 1
      let p := bits v.imm 6 5
      let src := h.ecList (v.arg 0) (2 * m)
      let dst := h.ecList (v.arg 1) p
      let ds := (upto m).map (fun i => ecXor (h.ecUnit (nth (0, false) src (2 * i)) n) (h.ecUnit (nth (0, false) src (2 * i + 1)) n))
      s.head.unitStarts t 0x84 0xFF [3] w = true → p ≠ 0 → bit v.imm 7 = false → ecLen n = true → hbmOk (v.arg 0) (16 * m) = true →
       hbmOk (v.arg 1) (8 * p) = true → (∀ e, e ∈ src → e.1 = 0 ∨ hbmOk e.1 n = true) → (∀ e, e ∈ dst → hbmOk e.1 n = true) →
       exec (.ecenc t w) s = .next (s.verbRuns t 0x84 w (fun h v => ((upto p).foldl (fun h j =>
         h.unitStore false (nth (0, false) dst j).1 (nth [] ((upto p).map (fun j => ecParity j n ds)) j)) h).answerVerb v (.ok 0)))) ∧
     (let h := s.verbHead t 0x85 w
      let v := s.verbNew t 0x85 w
      let n := v.arg 2
      let m := v.imm % 32 + 1
      let p := bits v.imm 6 5
      let gone := (upto 64).filter (fun i => bit (v.arg 1) i)
      let src := h.ecList (v.arg 0) (m + p)
      let dst := h.ecList (v.arg 3) gone.length
      let ms := (upto (m + p)).map (fun i => if gone.contains i then ecZero n else h.ecUnit (nth (0, false) src i) n)
      ∀ ds, s.head.unitStarts t 0x85 0xFF [4] w = true → p ≠ 0 → bit v.imm 7 = false → ecLen n = true → gone.length ≤ p →
       (∀ i, i ∈ gone → i < m + p) → hbmOk (v.arg 0) (8 * (m + p)) = true → hbmOk (v.arg 3) (8 * gone.length) = true →
       (∀ i, i < m + p → i ∉ gone → (nth (0, false) src i).1 ≠ 0 ∧ hbmOk (nth (0, false) src i).1 n = true) →
       (∀ e, e ∈ dst → hbmOk e.1 n = true) → ecData m p n gone ms = some ds →
       exec (.ecdec t w) s = .next (s.verbRuns t 0x85 w (fun h v => ((upto gone.length).foldl (fun h i =>
         h.unitStore false (nth (0, false) dst i).1
           (if nth 0 gone i < m then nth [] ds (nth 0 gone i) else ecParity (nth 0 gone i - m) n ds)) h).answerVerb v
             (.ok (BitVec.ofNat 64 gone.length))))))

/-! ## Queues, admission, fabric -/

/-- ENTRY_ACCEPT (R57 to R59): the entry at the head of the ring, on a queue that takes entries, is accepted where it passes its checks, else
refused with the status of the first it fails; the ring moves on either way. One that passes may have to wait, for lehr pages or for what
contracts leave of the epoch (R88, R413; log entry 89): then the ring stands. Under QRESET what stands in the ring is discarded without a record (R75).

The events of queues (R69, R75, R82, R122): an idle management queue idles; the fence of a QRESET falls; a write whose source was never
sealed fails with LENGTH_SHORT and writes nothing; QNEXT is said again.

CADENCE_EPOCH (R86 to R88, R99): time moves on by 10 µs; every contract's bucket rises by its rate up to burst plus frame, and its tokens
are its loads where its queue is on this head. -/
def Obligations.QueueEvents : Prop :=
  (∀ (s : State) (side q : Nat) (e : Entry) (conn : Nat),
     let h := (s.head.updQueue side q Queue.moved).sayQueue side q
     let live := decide (s.head.sessionSlot conn = some e.cred)
     (s.head.queue side q).first = some (e, conn) →
     ((s.head.queue side q).rst = true →
       exec (.entryAccept side q) s = .next (s.become (s.head.setQueue side q { s.head.queue side q with slots := [] }))) ∧
     ((s.head.queue side q).rst = false → s.head.acceptHeld side q = false →
       (∀ st, s.head.checkEntry side q e live none = .error st →
         exec (.entryAccept side q) s = .next (s.become (h.refuse side q e conn e.tag st).settle)) ∧
       (∀ x st, s.head.checkEntry side q e live none = .ok x → s.head.checkRun e x = .error st →
         exec (.entryAccept side q) s = .next (s.become (h.refuse side q e conn e.tag st).settle)) ∧
       (∀ x, s.head.checkEntry side q e live none = .ok x → (∃ u, s.head.checkRun e x = .ok u) →
         (s.head.entryWaits e = true → exec (.entryAccept side q) s = .next (s.become s.head.settle)) ∧
         (s.head.entryWaits e = false →
           exec (.entryAccept side q) s =
             .next (s.become ((h.wakeQueue side q).accept side q e x conn e.tag [] [] (PRec.journal side)).1.settle))))) ∧
  (∀ (s : State) (side q : Nat),
     (s.head.serves side = true → s.head.cfgS side .QCFG q 62 62 = 1 → s.head.cfgS side .QIDLE q 31 0 ≠ 0 →
       (s.head.queue side q).slots = [] → s.head.inflight side q = [] →
       exec (.mgmtQueueIdle side q) s = .next (s.become (s.head.updQueue side q (fun x => { x with idle := true })))) ∧
     ((s.head.queue side q).rst = true → (s.head.queue side q).fence = false → s.head.fenceWaits side q = false → s.head.working = true →
       exec (.qresetFence side q) s = .next (s.become (s.head.takeFence side q).settle)) ∧
     (∀ (vid : Nat) (v : HVerb) (p : PutOp) (key gen off : Nat) (w : Window),
       s.head.work.verbs.find? (fun v => v.vid = vid) = some v → v.aw = .put p → p.src = .win key gen off →
       s.head.putSource v p = none → s.head.window (s.head.vside v) key = some w → w.state ≠ .sealed →
       exec (.lastFlagWaitExpire vid) s = .next (s.become ((s.head.freeAtom vid).failVerb v .lengthShort).settle)) ∧
     (∀ n, (s.head.queue side q).conn = some n → (s.head.queue side q).said ≠ (s.head.queue side q).qnext →
       exec (.qnextTimer side q) s = .next (s.become (s.head.sendComplete n side q [])))) ∧
  (∀ s : State, ∃ u, exec .cadenceEpoch s = .next u ∧ u.pending = s.pending ∧ u.head.now = s.head.now + 10000 ∧
     u.head.work.epochs = s.head.work.epochs + 1 ∧ u.head.core = s.head.core ∧ u.head.vols = s.head.vols ∧
     (s.head.fl.groups.all (fun e => e.2.queue.isEmpty) = true → u.head.regs = s.head.regs) ∧
     u.head.work.cmds = s.head.work.cmds ∧ u.head.work.verbs = s.head.work.verbs ∧ u.head.work.queues = s.head.work.queues ∧
     u.head.work.contracts.map (fun e => e.1) = s.head.work.contracts.map (fun e => e.1) ∧
     ∀ (n : Nat) (k : Contract), (n, some k) ∈ s.head.work.contracts →
       (n, some { k with
         level := min (k.level + k.rate) (k.burst + k.frame)
         tokens := if s.head.serves k.side = true then k.loads else [] }) ∈ u.head.work.contracts)

/-- The receive checks of Table 5-5 in their order (R113, R115): a frame that fails one of the first four is counted by that check's counter and
has no other effect, one of a TYPE that is not the row's too; a packet for no connection is UNKNOWN. -/
def Obligations.ReceiveChecks : Prop :=
  ∀ (h : Head) (k : Pkt) (is : Bool) (takes fits : Conn → Bool) (body : Head → Conn → Head), h.listens = true →
    let g := h.seen k.arr
    let f := k.frame
    let bad0 : Bool := !f.fcsOk || decide (9216 < f.length) || decide (1 < f.tags) || f.etherType = 0x88E5
    let bad1 : Bool := !f.ipOk || (g.addrSide f.dst).isNone
    let bad2 : Bool := f.udpPort ≠ g.cfg .CPTCFG 0 63 48 || !f.udpSumOk
    let bad3 : Bool := f.ver ≠ 1 || !f.lenOk || !f.chkOk || !f.resOk
    (bad0 = true → h.rx k is takes fits body = g.rxCount 0) ∧
    (bad0 = false → bad1 = true → h.rx k is takes fits body = g.rxCount 1) ∧
    (bad0 = false → bad1 = false → bad2 = true → h.rx k is takes fits body = g.rxCount 2) ∧
    (bad0 = false → bad1 = false → bad2 = false → bad3 = true ∨ is = false → h.rx k is takes fits body = g.rxCount 3) ∧
    (bad0 = false → bad1 = false → bad2 = false → bad3 = false → is = true → g.net.conns.all (fun c => c.num ≠ k.dconn) = true →
      h.rx k is takes fits body = g.rxUnknown k)

/-- A new reliable WRITE heard on a connection with a session (R136 to R138): where the checks of Table 5-12 give a window, its bytes are placed
unless the packet must wait for earlier ones, in a strict window or with the last flag; then it is kept. The frame is acknowledged by R124 alone.

Packets that were kept are placed once every earlier one has come and been placed (R137, R138); checks 2 and 3 of Table 5-12, and in a relaxed
window check 5, are made again, and a packet that fails one is counted as that check counts it and placed nowhere. -/
def Obligations.WritesArePlaced : Prop :=
  (∀ (s : State) (r : Rx) (key gen off pay : List Byte) (c : Conn) (w : Window),
     let k := (r.join [key, gen, off, pay]).pkt
     s.head.hears k c → k.typ = 1 → c.state = .opened → k.pay.length ≤ c.maxpay → c.slot.isSome = true → c.isNew k = true →
     let h := s.head.heard k c
     let g := h.marked k c
     let p := k.heldWrite
     let early := !c.ready k.psn || c.behind k.psn
     h.strictFull c k p.key = false → g.spilling = false → g.placeCheck c p = .ok w →
     (w.strict = true → early = true → exec (.cptWriteRx r key gen off pay) s =
       .next (s.become ((g.updConn c.num (fun c => { c with strict := c.strict ++ [p] })).acksAfter k c.num false))) ∧
     (w.strict = false → k.last = true → (early = true ∨ g.placeHeld c.side = true) →
       exec (.cptWriteRx r key gen off pay) s =
         .next (s.become ((g.updConn c.num (fun c => { c with held := c.held ++ [p] })).acksAfter k c.num false))) ∧
     ((early = false ∨ (w.strict = false ∧ k.last = false)) → (k.last = false ∨ g.placeHeld c.side = false) →
       exec (.cptWriteRx r key gen off pay) s = .next (s.become ((g.placed c.num w p).acksAfter k c.num false)))) ∧
  ((∀ (s : State) (c : Conn) (p : HeldWrite), s.head.conn c.num = some c → c.ready p.psn = true → c.behind p.psn = false →
     s.head.placeHeld c.side = false →
     (c.held.find? (fun q => q.psn = p.psn) = some p → exec (.lastFlagPlace c.num p.psn) s = .next (s.become
       ((s.head.updConn c.num (fun c => { c with held := c.held.filter (fun q => q.psn ≠ p.psn) })).placeLate c p))) ∧
     (c.strict.find? (fun q => q.psn = p.psn) = some p → exec (.strictPlace c.num p.psn) s = .next (s.become
       ((s.head.updConn c.num (fun c => { c with strict := c.strict.filter (fun q => q.psn ≠ p.psn) })).placeLate c p)))) ∧
   (∀ (h : Head) (c : Conn) (p : HeldWrite) (w : Window), h.window c.side p.key = some w →
     (w.takes p.gen = false → w.retired ≠ some p.gen → h.placeLate c p = h.rxCount 7) ∧
     (w.takes p.gen = false → w.retired = some p.gen → h.placeLate c p = h.rxCount 8) ∧
     (w.takes p.gen = true → w.state = .sealed → h.placeLate c p = h.rxCount 9) ∧
     (w.takes p.gen = true → w.state ≠ .sealed → w.strict = false → (h.otherEnd c.side p).isSome = true → h.placeLate c p = h.rxCount 11) ∧
     (w.takes p.gen = true → w.state ≠ .sealed → (w.strict = true ∨ h.otherEnd c.side p = none) →
       h.placeLate c p = h.placed c.num w p)))

/-- The other packets heard on an open connection: ACK, KEEPALIVE, a new CLOSE, EVENT or SUBMIT, a COMPLETE of the target queue of a replication slot
(R117, R120 to R122, R124 to R128, R310). A SUBMIT attaches a queue that the session's slot may use; with entries it fills the ring, with
COUNT 0 it is answered by QNEXT, or by ACCESS where the slot may not use the queue. -/
def Obligations.PacketsHeard : Prop :=
  ∀ (s : State) (r : Rx) (a b d e : List Byte) (c : Conn),
    let k := (r.join [a, b, d, e]).pkt
    s.head.hears k c → c.state = .opened →
    let h := s.head.heard k c
    let g := h.marked k c
    (k.typ = 4 → exec (.cptAckRx r a b d e) s =
      .next (s.become ((h.acked c (k.th 0 4) (k.th 4 4) (k.th 8 4) k.ranges).ackAsked k c.num).settle)) ∧
    (k.typ = 9 → exec (.cptKeepaliveRx (r.join [a, b, d, e])) s = .next (s.become ((h.noteRx k c.num).sendAck c.num))) ∧
    (c.isNew k = true →
      (k.typ = 6 → k.th 0 1 ≠ 3 → exec (.cptCloseRx r (a ++ b ++ d ++ e)) s = .next (s.become
        (((g.updConn c.num (fun c => { c with state := .draining })).acksAfter k c.num true).endDrain c.num))) ∧
      (∀ n, c.slot = some n →
        (k.typ = 7 → exec (.cptEventRx r a b (d ++ e)) s = .next (s.become (g.acksAfter k c.num false))) ∧
        (k.typ = 2 →
          let q := k.th 0 2
          let m := k.th 2 1
          let fill := fun (h : Head) => ((upto m).zip ((partsOf 128 m k.pay).map entryOf)).foldl (fun h e =>
            h.fillSlot c q ((k.th 4 4 + e.1) % 4294967296) e.2) h
          (g.mayUse c.side q n = true → m ≠ 0 →
            exec (.cptSubmitRx r a b (d ++ e)) s = .next (s.become ((fill (g.attach c.side q c)).acksAfter k c.num false))) ∧
          (g.mayUse c.side q n = true → m = 0 →
            exec (.cptSubmitRx r a b (d ++ e)) s = .next (s.become (((g.attach c.side q c).sendComplete c.num c.side q []).acksAfter k c.num false))) ∧
          (g.mayUse c.side q n = false → m ≠ 0 → exec (.cptSubmitRx r a b (d ++ e)) s = .next (s.become ((fill g).acksAfter k c.num false))) ∧
          (g.mayUse c.side q n = false → m = 0 →
            exec (.cptSubmitRx r a b (d ++ e)) s = .next (s.become ((g.connEventOnce c.num 0x0004 121 2 0).acksAfter k c.num false)))) ∧
        (∀ (i : Nat) (x : Rep), k.typ = 3 → g.repOn c.num = some (i, x) → c.init = true → k.th 0 2 = Config.targetQueue i % 65536 →
          exec (.cptCompleteRx r a b (d ++ e)) s = .next (s.become
            ((g.repComplete c.num (k.th 4 4) ((partsOf 32 (k.th 2 1) k.pay).map crecOf)).acksAfter k c.num false).settle))))

/-- Connections are made and ended (R116, R117): a new CONNECT with parameters the head supports gets a connection and the reply; the reply to
the head's own opens its connection and a HELLO follows; a refusal, or a CLOSE with reason UNKNOWN, closes.

Sessions (R422, R423): a HELLO for an enrolled slot is answered by a CHALLENGE under a fresh nonce; a PROOF that verifies binds the slot to the
connection, one that does not is counted and recorded and closes it; a client checks the CHALLENGE and binds on the RESULT. -/
def Obligations.ConnectionsAndSessions : Prop :=
  (∀ (s : State) (r : Rx) (a b d e m o : List Byte),
     let k := (r.join [a, b, d, e, m, o]).pkt
     let h := s.head.seen k.arr
     s.head.listens = true → h.frameFails k.frame = none →
     (∀ (side : Nat), k.typ = 5 → bit (k.th 14 1) 7 = false → h.addrSide k.frame.dst = some side → k.dconn = 0 → maxpayOk (k.th 12 2) = true →
       h.net.conns.find? (fun c => c.state = .opened && c.addr = k.src && c.far = k.th 0 4 && c.isnFar = k.th 4 4) = none →
       h.net.conns.length < 262144 →
       ∃ c : Conn, c.num = h.newConnNum.2 ∧ c.side = side ∧ c.addr = k.src ∧ c.far = k.th 0 4 ∧ c.cum = k.th 4 4 ∧ c.state = .opened ∧
         c.slot = none ∧ c.maxpay = k.th 12 2 ∧ c.tclass = k.th 14 1 % 8 ∧ c.evsub = bit (k.th 14 1) 4 ∧
         exec (.cptConnectRx r a b d e (m ++ o)) s = .next (s.become
           (((h.newConnNum.1.tick.setConns (h.newConnNum.1.net.conns ++ [c])).noteUse c.num).sendReply c k.tsv))) ∧
     (∀ c, s.head.hears k c → k.typ = 5 → bit (k.th 14 1) 7 = true → c.init = true → c.state = .opening →
       (bit (k.th 14 1) 6 = true → exec (.cptConnectReplyRx r a b d e m o) s = .next (s.become ((s.head.heard k c).connClosed c.num).settle)) ∧
       (bit (k.th 14 1) 6 = false → maxpayOk (k.th 12 2) = true →
         let rtt := (k.arr + 4294967296 - k.th 8 4) % 4294967296
         let g := (s.head.heard k c).updConn c.num (fun c => { c with
           state := .opened, far := k.th 0 4, isnFar := k.th 4 4, cum := k.th 4 4, maxpay := min (k.th 12 2) 8192
           openAt := (s.head.heard k c).now
           rate := { c.rate with rtts := [((s.head.heard k c).now, rtt)], srtt := rtt, step := (s.head.heard k c).now } })
         ∀ i x, g.repOn c.num = some (i, x) →
           exec (.cptConnectReplyRx r a b d e m o) s = .next (s.become
             ((((g.random 32).1.setHello c.num (some ⟨some c.num, c.addr, Config.targetSlot i, (g.random 32).2, []⟩)).putRep i
               { x with phase := 2 }).sendHello c.num (Config.targetSlot i) (g.random 32).2)))) ∧
     (k.typ = 6 → k.th 0 1 = 3 →
       (∀ c, h.net.conns.find? (fun c => c.far = k.dconn && c.addr = k.src) = some c →
         exec (.cptCloseUnknownRx (r.join [a, b, d, e, m, o])) s = .next (s.become (h.connClosed c.num).settle)) ∧
       (h.net.conns.find? (fun c => c.far = k.dconn && c.addr = k.src) = none →
         exec (.cptCloseUnknownRx (r.join [a, b, d, e, m, o])) s = .next (s.become (h.rxUnknown k))))) ∧
  (∀ (s : State) (r : Rx) (a b d : List Byte) (c : Conn),
     let k := (r.join [a, b, d]).pkt
     s.head.hears k c → c.state = .opened → c.isNew k = true →
     let g := s.head.heard k c |>.marked k c
     (k.sessionStep = 1 → c.slot = none → g.proofsFull = false →
       let slot := beAt k.pay 0 1
       let nc := k.pay.drop 8
       g.helloRefused slot = false →
       let n := (g.random 32).2
       let t := transcript k.frame.dst c.num c.far slot nc n
       exec (.sessionHello r a (b ++ d)) s = .next (s.become
         ((((g.random 32).1.setHello c.num (some ⟨some c.num, k.frame.dst, slot, nc, n⟩)).reliable' c.num
           (.session 2 (n ++ Config.idPublic ++ Config.edSign Config.idPrivate (2 :: t)))).acksAfter k c.num false))) ∧
     (∀ (x : Hello), k.sessionStep = 3 → c.init = false →
       g.countProof.net.hellos.find? (fun x => x.conn = some c.num) = some x →
       let h := g.countProof.setHello c.num none
       (h.proofOk x c.num c.far k.pay = true → exec (.sessionProof r (a ++ b ++ d)) s = .next (s.become
         ((((h.updConn c.num (fun c => { c with slot := some x.slot })).sessionNoted x.slot c.num).sendResult c.num .ok
           (slotTier x.slot).num).acksAfter k c.num false).settle)) ∧
       (h.proofOk x c.num c.far k.pay = false → exec (.sessionProof r (a ++ b ++ d)) s = .next (s.become
         ((((h.proofFailed x.slot k.src).sendResult c.num .checkFail 0).closeConn c.num 6).acksAfter k c.num false).settle))) ∧
     (∀ (x : Hello), k.sessionStep = 2 → c.init = true →
       g.net.hellos.find? (fun x => x.conn = some c.num) = some x →
       let nh := k.pay.take 32
       let t := transcript x.addr c.far c.num x.slot x.nc nh
       Config.edVerify ((k.pay.drop 32).take 32) (2 :: t) (k.pay.drop 64) = true →
       exec (.sessionChallengeRx r a b d) s = .next (s.become
         (((g.setHello c.num (some { x with nh := nh })).reliable' c.num
           (.session 3 (Config.edSign Config.idPrivate (3 :: t)))).acksAfter k c.num false).settle)) ∧
     (∀ (i : Nat) (x : Rep), k.sessionStep = 4 → beAt k.pay 0 2 = 0 → c.init = true → c.slot = none →
       let h := (g.setHello c.num none).updConn c.num (fun c => { c with slot := some clientSlot })
       h.repOn c.num = some (i, x) →
       exec (.sessionResultRx r a (b ++ d)) s = .next (s.become
         (((h.reliable' c.num (.submit (Config.targetQueue i % 65536) 0 [])).putRep i
           { x with phase := 3, left := 1 }).acksAfter k c.num false).settle)))

/-- The timers of a connection (R116 to R118, R124, R126, R128, R129, R132): the delayed ACK, the resend that halves the rate and rests the path, the
repeated CONNECT, the KEEPALIVE, the loss, the drain and the session set-up that take too long, the path that resumes. -/
def Obligations.ConnectionTimers : Prop :=
  ∀ (s : State) (c : Conn), s.head.conn c.num = some c →
    (0 < c.ackCnt → exec (.cptAckTimer c.num) s = .next (s.become (s.head.sendAck c.num))) ∧
    (∀ p, c.unacked.find? (fun q => q.psn = p.psn && q.out) = some p →
      (s.head.now ≤ p.first + 100000000 → exec (.cptRtoExpire c.num p.psn) s = .next (s.become
        (let h := s.head.updConn c.num (fun c => { c with rate := { c.rate with rate := max 100 (c.rate.rate / 2) } })
         ({ h with net := { h.net with
            paths := h.net.paths.filter (fun (x : Path) => !(x.conn = c.num && x.path = p.path)) ++ [⟨c.num, p.path⟩] } } : Head).resend
              c.num p.psn))) ∧
      (p.first + 100000000 < s.head.now → exec (.cptRtoExpire c.num p.psn) s = .next (s.become (s.head.loseConn c.num).settle))) ∧
    (c.state = .opening → c.tries < 8 → exec (.connectRetry c.num) s = .next (s.become
      ((s.head.updConn c.num (fun c => { c with tries := c.tries + 1 })).sendConnect c))) ∧
    (c.state = .opening → 8 ≤ c.tries → exec (.connectRetry c.num) s = .next (s.become (s.head.connClosed c.num).settle)) ∧
    (c.state = .opened →
      exec (.keepaliveTimer c.num) s = .next (s.become (s.head.sendFree c.num .keepalive)) ∧
      exec (.connLostTimer c.num) s = .next (s.become (s.head.loseConn c.num).settle) ∧
      (c.slot = none → exec (.sessionSetupTimeout c.num) s = .next (s.become (s.head.closeConn c.num 6).settle))) ∧
    (c.state = .draining → exec (.drainTimeout c.num) s = .next (s.become (s.head.connClosed c.num).settle)) ∧
    (∀ path, exec (.pathResume c.num path) s = .next (s.become { s.head with net := { s.head.net with
      paths := s.head.net.paths.filter (fun (x : Path) => !(x.conn = c.num && x.path = path)) } }))

/-- Addresses, echo, pause and links (R110, R111, R146): the head answers for an address it holds, on the link asked on; echo at most 1,000 times
a second; a pause stops a link until it ends, and one of 0 quanta ends it; a link that goes down or comes up is noted with its event.

Windows move on (R139 to R141): a window that waited for lehr advances once its generation is consumed; a drained revocation leaves it OPEN and
gives back what it kept of the old generation; a window whose slot has had no session for its linger is released. -/
def Obligations.LinksAndWindows : Prop :=
  (∀ (s : State),
     (∀ (link dst side : Nat) (v6 : Bool), let a := if v6 then dst else mapped4 dst
       s.head.listens = true → s.head.addrSide a = some side →
       exec (.arpNdRx ⟨link, dst⟩ v6) s = .next (s.become (s.head.sendEth ⟨some link, s.head.vlan side, .arpNd a false⟩))) ∧
     (∀ (dst src arr side : Nat) (data : List Byte), s.head.listens = true → (s.head.seen arr).addrSide dst = some side →
       let h := s.head.seen arr
       let n := if h.net.echo.1 = h.now / 1000000000 then h.net.echo.2 else 0
       (n < 1000 → exec (.icmpEchoRx dst src ⟨arr, data⟩) s = .next (s.become
         (({ h with net := { h.net with echo := (h.now / 1000000000, n + 1) } } : Head).sendEth ⟨none, h.vlan side, .echo dst src data⟩))) ∧
       (1000 ≤ n → exec (.icmpEchoRx dst src ⟨arr, data⟩) s = .next (s.become h))) ∧
     (∀ link quanta, s.head.listens = true →
       let stop := if quanta = 0 then 0 else s.head.now + s.head.pauseTime link quanta
       exec (.pauseRx link quanta) s = .next (s.become
         ({ s.head with net := { s.head.net with paused := place 0 s.head.net.paused link stop } } : Head).flushTx)) ∧
     (∀ (f : EthOut) (l : Nat), f.link = some l → s.head.now < look 0 s.head.net.paused l → (s.head.sendEth f).out = s.head.out) ∧
     (∀ link, s.head.net.up.getLsbD link = true → exec (.hostPortDown link) s = .next (s.become
       (({ s.head with net := { s.head.net with up := s.head.net.up &&& ~~~(1#32 <<< link) } } : Head).deviceEvent 0x0100 link 0))) ∧
     (∀ link, s.head.runs 16 = true → s.head.linkUsable link = true → s.head.net.up.getLsbD link = false →
       exec (.hostPortUp link) s = .next (s.become
         (({ s.head with net := { s.head.net with up := s.head.net.up ||| (1#32 <<< link) } } : Head).deviceEvent 0x0101 link 0)))) ∧
  (∀ (s : State) (w : Window), s.head.windowAt w.side w.idx = some w →
     (w.waitAdv = true → s.head.consumed w = true →
       exec (.genAdvance w.side w.idx) s = .next (s.become (s.head.advance w).settle)) ∧
     (w.state = .revoking → w.revBy.isSome = true → w.waitAdv = false → exec (.revokeDrainDone w.side w.idx) s = .next (s.become
       (let h := (s.head.updWindow w.side w.idx (fun x => { x with
          state := if x.state = .revoking then .opened else x.state, pages := w.pages, waitAdv := false, olds := [], revBy := none })).winDrop
            w.unmir (w.olds.map (fun g => g.pages)).flatten
        h.setVerbs (h.work.verbs.map (fun v => if v.aw = .revoke w.side w.idx then { v with aw := .nothing } else v))).settle)) ∧
     (w.out = false → s.head.net.conns.any (fun c => c.slot = some w.slot) = false →
       exec (.windowLingerExpire w.side w.idx) s = .next (s.become (s.head.winRelease w.side w.idx).settle)))

/-! ## Flash and reduction -/

/-- TANDEM_WINDOW on an owned group (R213 to R215, R219, R243): with no window before it and no burst in the way it is served, and the bursts of the
group pause for it; behind a window that must wait it waits; while the group is resynchronised, a window of Volume Select and a status read takes its
dies out of the resynchronisation.

The events of dies and groups (R208, R216, R222, R223, R235 to R237, R243, R256, R259, R260): what ends, times out or fails falls on the band and the die
concerned, and what follows from it happens in the same step.

A page read that returns in time (R222, R223, R259): its die is free, its counters count, its readers have each codeword that came and seek the others
elsewhere; one that returns late feeds the refresh of its band alone.

An erase that passes frees its block and counts against it, unless the block has reached the endurance of its family (R235); a failed one retires
the block. -/
def Obligations.FlashEvents : Prop :=
  (∀ (s : State) (g : Nat) (addrs : List Bool) (ports : BitVec 4),
     let h := s.head
     let x := h.group g
     x.own = true → x.idle = false → 1 ≤ addrs.length → addrs.length ≤ 16 → ports ≠ 0 → h.working = true →
       (x.resync = [] → x.queue = [] → h.windowMay g (addrs, ports) = true →
         exec (.tandemWindow g addrs ports) s = .next (s.become ((h.railWindow g).serveWindows g [])) ∧
         h.railWindow g = ((h.setGroup g { x with
           lastOp := h.now
           pauses := x.pauses.filter (fun p => !(x.bursts.any (fun b => b.1 = p.1))) ++ x.bursts.map (fun b => (b.1, h.now)) }).count
             .NFCNT 11 1).count .NFCNT 12 x.bursts.length) ∧
       (∀ w r, x.resync = [] → x.queue = w :: r → h.windowMay g w = false →
         exec (.tandemWindow g addrs ports) s = .next (s.become (h.setGroup g { x with queue := x.queue ++ [(addrs, ports)] }))) ∧
       (∀ d r, x.resync = d :: r → addrs = [false, true, false] →
         let ds := x.resync.filter (fun e => e % 16 = d % 16 && ports.getLsbD (diePort e % 4))
         exec (.tandemWindow g addrs ports) s =
           .next (s.become ((((h.railWindow g).emitAll ds .select).emitAll ds .status).resynced g ds)))) ∧
  (∀ (s : State),
     (∀ (band stripe pos : Nat) (res : List CwResult),
       exec (.nandReadDone band stripe pos res) s = .next (s.become (s.head.readDone band stripe pos res).flash)) ∧
     (∀ (die n r : Nat) (st : DieStatus),
       s.head.fl.ops.find? (fun o => match o with | .program d _ _ => d = die | .spill d _ => d = die | .late d => d = die | _ => false) =
         some (.program die n r) →
       let h := s.head.nandEnd (.program die n r)
       (st = .pass → exec (.nandProgramDone die st) s = .next (s.become
         (((h.updDie die (fun d => { d with touts := 0 })).memberDone n die true).space.flash))) ∧
       (∀ b, st ≠ .pass → h.band n = some b → exec (.nandProgramDone die st) s = .next (s.become
         ((((h.count .NFCNT 5 1).retire die ((b.members.find? (fun m => m.1 = die)).getD (0, 0)).2 b.pool b.side).memberDone n die
           false).space.flash)))) ∧
     (∀ (die n r : Nat), s.head.fl.ops.find? (fun o => match o with | .program d _ _ => d = die | _ => false) = some (.program die n r) →
       let h := s.head.setFl { s.head.fl with ops := s.head.fl.ops.map (fun o => if o = .program die n r then .late die else o) }
       exec (.programTimeout die) s = .next (s.become (((h.memberDone n die false).dieTimedOut die).flash))) ∧
     (∀ (die block : Nat) (st : DieStatus),
       exec (.nandEraseDone die block st) s =
         .next (s.become ((((s.head.eraseEnd die block (decide (st = .pass))).levelWear (dieSide die)).space).flash))) ∧
     (∀ (b : Band) (o : NOp) (stripe pos cw : Nat), s.head.band b.num = some b → s.head.readOf b.num stripe pos = some o → cw < b.cws →
       s.head.fl.late.contains (b.num, stripe, pos) = false →
       let h := (s.head.count .STCNT 4 1).setFl { s.head.fl with late := s.head.fl.late ++ [(b.num, stripe, pos)] }
       exec (.memberTimeout b.num stripe pos cw) s =
         .next (s.become (((h.memberGone b.num stripe pos).dieTimedOut o.die).flash))) ∧
     (∀ die, (s.head.group (dieGroup die)).own = true →
       exec (.dieBusyTimeout die) s = .next (s.become ((s.head.dieFailed die 2).flash))) ∧
     (∀ g, (s.head.group g).own = true → (s.head.group g).idle = false → (s.head.group g).resync = [] →
       exec (.zqShortCal g) s = .next (s.become ((s.head.groupDies g).foldl (fun h d => h.emit (.nand d .zqShort)) s.head))) ∧
     (∀ g, (s.head.group g).own = true → (s.head.group g).resync = [] → (s.head.group g).queue = [] → s.head.cfg .NFIDLE 0 31 0 ≠ 0 →
       s.head.coldGroup g = true → s.head.groupQuiet g = true →
       exec (.groupIdle g) s = .next (s.become (s.head.setGroup g { s.head.group g with idle := true }))) ∧
     (∃ u, exec .vccqNfFault s = .next u ∧ u.head = (({ s.head with sys := { s.head.sys with
         power := { s.head.sys.power with vccqOk := false } } } : Head).setFl { s.head.fl with vccqOff := true }).protect) ∧
     (∃ u, exec .vccqNfRecover s = .next u ∧ u.head = (({ s.head with sys := { s.head.sys with
         power := { s.head.sys.power with vccqOk := true } } } : Head).setFl { s.head.fl with vccqOff := false }).protect)) ∧
  (∀ (h : Head) (b : Band) (o : NOp) (stripe pos : Nat) (res : List CwResult), h.band b.num = some b → h.readOf b.num stripe pos = some o →
     let l := fit .hard b.cws res
     let shown := match o with | .read d blk row _ _ _ => h.decodeFlow d blk row l | _ => h
     let k := ((shown.nandEnd o).updDie o.die (fun d => { d with touts := 0 })).countRead l
     l.any k.dueRefresh = false →
     (k.fl.late.contains (b.num, stripe, pos) = true → h.readDone b.num stripe pos res = k.setFl { k.fl with late := k.fl.late.erase (b.num, stripe, pos) }) ∧
     (k.fl.late.contains (b.num, stripe, pos) = false → h.readDone b.num stripe pos res =
       (upto b.cws).foldl (fun h c => if nth .hard l c = .erased then h.cwGone b.num stripe pos c else h.cwCame b.num stripe pos c) k)) ∧
  (∀ (h : Head) (die block : Nat) (x : Die) (f : Family) (gc : Option (Nat × Nat)),
     h.fl.ops.find? (fun o => match o with | .erase d b _ => d = die && b = block | _ => false) = some (.erase die block gc) →
     let k := (h.updDie die (fun x => { x with ec := place 0 x.ec block (x.count block + 1), susp := false, touts := 0 })).nandEnd (.erase die block gc)
     let owner := ((k.fl.bands.find? (fun b => b.members.contains (die, block))).map (fun b => b.pool)).getD 0
     k.die die = some x → k.family die = some f →
     (x.count block < f.pelim →
       h.eraseEnd die block true = (k.updDie die (fun x => { x with free := x.free ++ [block] })).eraseOver die block gc) ∧
     (f.pelim ≤ x.count block → h.eraseEnd die block true = (k.retire die block owner (dieSide die)).eraseOver die block gc) ∧
     (h.eraseEnd die block false = ((k.count .NFCNT 6 1).retire die block owner (dieSide die)).eraseOver die block gc))

/-- Scrubbing, garbage collection and rebuild (R223, R236, R257, R258, R261): a closed band is read; the band that comes next is relocated and no other; a
victim whose MAP record has landed is erased.

The fills of a band (R251, R252): a whole stripe; a part of one for age, or above LHI of the lehr; and the clearing of the dirty-region bitmap (R257). -/
def Obligations.BandWork : Prop :=
  (∀ (s : State) (b : Band), s.head.band b.num = some b →
     (b.closed = true → s.head.working = true → s.head.serves b.side = true → s.head.handing b.side = false → s.head.spilling = false →
       exec (.scrubBandTimer b.num) s = .next (s.become (b.stripes.foldl (fun h t =>
         h.issueReads b t.n ((upto b.members.length).filter (fun m => !(b.lost.contains m))) false) s.head))) ∧
     (∀ p why, s.head.pool b.pool = some p → s.head.nextVictim p b.side = some (b.num, why) → s.head.working = true →
       exec (.gcStart b.num) s = .next (s.become (s.head.relocate b.num why).flash)) ∧
     (∀ p n why, s.head.pool b.pool = some p → s.head.nextVictim p b.side = some (n, why) → n ≠ b.num →
       exec (.gcStart b.num) s = .next s) ∧
     (∀ x, s.head.nextRebuild b.side = some x → x.num = b.num → s.head.working = true →
       exec (.rebuildBand b.num) s = .next (s.become (s.head.relocate b.num 3).flash)) ∧
     (b.num ∈ s.head.fl.unsync →
       exec (.bandResync b.num) s = .next (s.become
         (({ s.head with fl := { s.head.fl with unsync := s.head.fl.unsync.erase b.num } } : Head).count .STCNT 7 b.stripes.length))) ∧
     (∀ (g g' : GcSlot) (tag : Option Nat) (side idx : Nat), s.head.fl.gc.find? (fun g => g.side = side && g.idx = idx) = some g →
       g.st = .map tag → s.head.landed tag = true → s.head.working = true → s.head.bandRead g.victim = false → s.head.handing side = false →
       (s.head.eraseVictim g).fl.gc.find? (fun g => g.side = side && g.idx = idx) = some g' → g'.left ≠ [] →
       exec (.gcErase side idx) s = .next (s.become (s.head.eraseVictim g).flash))) ∧
  (∀ (s : State) (band : Nat),
     (s.head.working = true →
       exec (.fullFill band) s = .next (s.become (s.head.fill band false).flash) ∧
       exec (.stageAgeExpire band) s = .next (s.become (s.head.fill band true).flash) ∧
       (s.head.cfg .STCFG 0 31 24 < s.head.lehrFill →
         exec (.partialFill band) s = .next (s.become (s.head.fill band true).flash))) ∧
     (s.head.serves 0 = false → s.head.serves 1 = false → exec .bitmapClearTimer s =
       .next (s.become { s.head with fl := { s.head.fl with lastBitmap := s.head.now } })) ∧
     (s.head.serves 0 = true → s.head.serves 1 = false → s.head.fl.bands = [] → s.head.fl.bitmap.s0 = [] →
       ∃ u, exec .bitmapClearTimer s = .next u ∧ u.head.fl.bitmap = s.head.fl.bitmap ∧ u.head.fl.lastBitmap = s.head.now))

/-- DESTAGE_EXTENT of a range all of which undone writes of one epoch hold, none of it dropped (R171, R230, R238); lookups that end (R183, R185, R186);
the boundaries at which units change requests (R201). -/
def Obligations.Destage : Prop :=
  ∀ (s : State),
    (∀ (vol off len : Nat) (v : Volume) (a : Nat) (r : List Nat), s.head.vol vol = some v → s.head.working = true → s.head.serves v.home = true →
      s.head.spilling = false → s.head.handing v.home = false → v.deleting = false → 1 ≤ len → pastEnd off len = false →
      off / 4194304 = (off + len - 1) / 4194304 → s.head.rangeFree vol off len = true →
      (v.undone off len).map (fun w => w.epoch) = a :: r →
      let e := r.foldl min a
      let mine := (v.undone off len).filter (fun w => w.epoch = e)
      covered (mine.foldl (fun l w => addRange l w.off w.len) []) off len = true →
      (∀ i, i < len → v.dropped e (off + i) = false) →
      exec (.destageExtent vol off len) s = .next (s.become ((s.head.fineTurn vol off len).startExtent v off len e (srcsOf mine)).flash)) ∧
    (∀ (ext i : Nat) (e : Extent) (c : Chunk), s.head.extChunk ext i = some (e, c) → c.st = .looking →
      let pool := s.head.poolOf e.vol
      let ents := (((s.head.red.cold.filter (fun p => p.pool = pool && p.side = e.side)).map (fun p => p.ents)).flatten)
      (ents.find? (fun x => x.2.v && x.2.fp = c.fp) = none →
        exec (.coldLookupDone ext i) s =
          .next (s.become (((s.head.unique e c).1.setChunk ext i (s.head.unique e c).2).flash))) ∧
      (∀ x, ents.find? (fun x => x.2.v && x.2.fp = c.fp) = some x →
        let y := ((s.head.count .DRCNT 2 1).hotInsert { x.2 with c := true, age := s.head.work.epochs % 2 ^ 32 }).hit e i c x.2
        exec (.coldLookupDone ext i) s = .next (s.become ((y.1.setChunk ext i y.2).flash))) ∧
      (let y := (s.head.count .DRCNT 3 1).unique e c
       exec (.coldLookupTimeout ext i) s = .next (s.become ((y.1.setChunk ext i y.2).flash)))) ∧
    (∀ i, exec (.coldWriteTimeout i) s = .next (s.become (s.head.setRed { s.head.red with evicted := s.head.red.evicted.eraseIdx i }))) ∧
    (∀ pool side page p, s.head.pool pool = some p → page < 2 ^ p.cidxk →
      exec (.filterPageRead pool side page) s = .next (s.become (s.head.filterRead pool side page)) ∧
      ∀ x, x ∈ (s.head.filterRead pool side page).red.unread → x.1 = pool → x.2.1 = side → page ∈ x.2.2) ∧
    (∀ u, exec (.unitSwitch u) s = .next (s.become (s.head.unitSwitch u).flash))

/-- Pools and volumes (R225, R226, Tables 8-21 and 8-22): a record that passes every check creates or deletes the one it names. -/
def Obligations.PoolsAndVolumes : Prop :=
  ∀ (s : State) (c : Caller) (v : Word) (b : List Byte), s.head.tabref c v 32 = some b →
    let f := dword b 0
    let n := f 55 48
    (s.head.accepts c Reg.POOLCTL.row 0 v = true → (b.drop 8).all (fun x => x = 0) = true →
      (f 63 56 = 1 → s.head.pool n = none → f 46 40 = 0 → f 31 13 = 0 → f 7 2 = 0 → 10 ≤ f 39 32 → f 39 32 ≤ 26 →
        s.head.geoOk (f 12 8) (f 1 0) = true →
        exec (.poolCreate c v) s = .next (s.wrote (s.head.createPool n (decide (f 47 47 = 1)) (f 12 8) (f 1 0) (f 39 32)) c
          Reg.POOLCTL.row 0 .ok)) ∧
      (∀ p, f 63 56 = 2 → s.head.pool n = some p → p.deleting = false → f 47 0 = 0 → s.head.vols.vols.any (fun x => x.pool = n) = false →
        s.head.tape.weak.any (fun w => w.pool = n) = false →
        s.head.openContracts.any (fun k => (s.head.vol k.2.volume).any (fun x => x.pool = n)) = false →
        let k := (s.head.record' (.pool n none)).deletePool n
        let j := k.auditReg c Reg.POOLCTL.row 0 .ok false
        ((j.pool n).any (fun p => p.deleting) = false → exec (.poolDelete c v) s = .next (s.wrote k c Reg.POOLCTL.row 0 .ok)) ∧
        ((j.pool n).any (fun p => p.deleting) = true → exec (.poolDelete c v) s = .next (s.become
          ({ j with reply := none, vols := { j.vols with ends := j.vols.ends ++ [(true, n)] } } : Head).settle)))) ∧
    (s.head.accepts c Reg.VOLCTL.row 0 v = true → (b.drop 8).all (fun x => x = 0) = true → f 46 16 = 0 →
      (∀ p, f 63 56 = 1 → s.head.vol (f 15 0) = none → s.head.pool n = some p → p.deleting = false →
        ∃ x : Volume, x.num = f 15 0 ∧ x.pool = n ∧ x.home = f 47 47 ∧ x.vend = 0 ∧ x.vepoch = 1 ∧ x.group = 0 ∧ x.writes = [] ∧ x.snaps = [] ∧
          x.parent = none ∧ exec (.volumeCreate c v) s = .next (s.wrote
            ((s.head.setVols (s.head.vols.vols ++ [x])).record' (.epoch x)) c Reg.VOLCTL.row 0 .ok)) ∧
      (∀ x, f 63 56 = 2 → s.head.vol (f 15 0) = some x → x.deleting = false → f 55 47 = 0 → x.group = 0 → x.snaps = [] →
        s.head.openContracts.any (fun k => k.2.volume = f 15 0) = false → s.head.volReplicating x = false →
        let k := (s.head.updVol (f 15 0) (fun x => { x with
          deleting := true
          delFence := (s.head.work.cmds.filter (fun d => !d.isFinal && (d.side, d.seq) ≠ (c.side, c.seq))).map (fun d => (d.side, d.seq)) })).1
        let j := k.auditReg c Reg.VOLCTL.row 0 .ok false
        (j.vol (f 15 0)).any (fun x => x.deleting) = true → exec (.volumeDelete c v) s = .next (s.become
          ({ j with reply := none, vols := { j.vols with ends := j.vols.ends ++ [(false, f 15 0)] } } : Head).settle)))

/-- Consistency groups (R308): a volume's group is what VCG was last written with, one of 1 to 1,023 or 0 for none; a write that names no volume, or whose
volume, old group or new group is under REPLICATE, completes with INVALID and changes no volume. -/
def Obligations.VolumeGroups : Prop :=
  ∀ (h : Head) (c : Caller) (t : Option Nat) (n : Nat) (v : Word), h.accepts c Reg.VCG.row n v = true →
    let g := bits v.toNat 9 0
    g ≤ 1023 ∧
    (h.vol n = none → h.writeReg c t Reg.VCG.row n v = .ok (h.auditReg c Reg.VCG.row n .invalid false, .invalid)) ∧
    (∀ x, h.vol n = some x →
      (h.replicating false x.num = true ∨ (x.group ≠ 0 ∧ h.replicating true x.group = true) ∨ (g ≠ 0 ∧ h.replicating true g = true) →
        h.writeReg c t Reg.VCG.row n v = .ok (h.auditReg c Reg.VCG.row n .invalid false, .invalid)) ∧
      (h.replicating false x.num = false → (x.group = 0 ∨ h.replicating true x.group = false) → (g = 0 ∨ h.replicating true g = false) →
        ∃ k, h.writeReg c t Reg.VCG.row n v = .ok (k, .ok) ∧ k.vol n = some { x with group := g } ∧
          ∀ m, m ≠ n → k.vol m = h.vol m))

/-- CRC-32C (R194): polynomial 0x1EDC6F41 in its reflected form 0x82F63B78, initial value of all ones, every byte taken from its lowest bit, the result
exclusive-ORed with all ones; over "123456789" it gives 0xE3069283. -/
def Obligations.Crc32c : Prop :=
  crc32c [0x31, 0x32, 0x33, 0x34, 0x35, 0x36, 0x37, 0x38, 0x39] = 0xE3069283 ∧ crc32c [] ^^^ 0xFFFFFFFF = 0xFFFFFFFF ∧
  (∀ k, k < 32 → Nat.testBit 0x1EDC6F41 k = Nat.testBit 0x82F63B78 (31 - k)) ∧
  (∀ (l : List Byte) (b : Byte),
    crc32c (l ++ [b]) ^^^ 0xFFFFFFFF =
      (upto 8).foldl (fun r _ => if r % 2 = 1 then (r / 2) ^^^ 0x82F63B78 else r / 2) ((crc32c l ^^^ 0xFFFFFFFF) ^^^ b.toNat)) ∧
  (∀ l : List Byte, crc32c l < 2 ^ 32)

/-! ## The pair -/

/-- FENCE_IN_L (R265, R266): low for 20 ns or more it forces the pins and latches FENCED, on side 0 only where its own fence is not asserted;
rising, it releases the pins and leaves the latch.

The timers of a fence (R166, R267 to R269, R272, R273, R281, R384, R440): reset of a FENCED head, loss of heartbeats, FORCE, the takeover
after SETTLE, the end of a copy, a tape job that does not resume, a head that does not rejoin after an activation. -/
def Obligations.Fences : Prop :=
  (∀ (s : State) (low : Nat),
     let h := s.head.fenceInPin false
     (low < 5 → exec (.fenceInFall low) s = .next s) ∧
     (20 ≤ low → h.pair.fence.fenced = true → exec (.fenceInFall low) s = .next (s.become h)) ∧
     (20 ≤ low → h.pair.fence.fenced = false → h.sys.pins.fenceOut = false → h.side = 0 →
       exec (.fenceInFall low) s = .next (s.become (h.setFence { h.pair.fence with tie := true }))) ∧
     (20 ≤ low → h.pair.fence.fenced = false → (h.sys.pins.fenceOut = true ∨ h.side ≠ 0) →
       exec (.fenceInFall low) s = .next (s.become (h.latchFenced !h.sys.pins.fenceOut)) ∧
       (h.latchFenced !h.sys.pins.fenceOut).pair.fence.fenced = true) ∧
     (∃ u, exec .fenceInRise s = .next u ∧ u.head.sys.pins.fenceIn = true ∧ u.head.pair = s.head.pair ∧ u.head.core = s.head.core)) ∧
  (∀ (s : State),
     (s.head.pair.fence.fenced = true → s.head.cfg .FNCCFG 0 39 39 = 0 →
       exec .fencedResetTimer s = .next (s.become (s.head.pulseReset .watchdog))) ∧
     (s.head.pair.fence.fenced = false ∨ s.head.cfg .FNCCFG 0 39 39 ≠ 0 → exec .fencedResetTimer s = .next s) ∧
     (s.head.pair.handoff = none → s.head.pair.fence.peer = .inService →
       exec .heartbeatLoss s = .next (s.become s.head.assertFence)) ∧
     (∀ c v, s.head.accepts c Reg.FNCCTL.row 0 v = true → v.getLsbD 63 = true →
       exec (.fncctlForce c v) s = .next (s.wrote s.head.assertFence c Reg.FNCCTL.row 0 .ok)) ∧
     (s.head.pair.takeover = .settle → s.head.sys.pins.fenceIn = true → s.head.dark = false → s.head.spilling = false →
       exec .takeoverSettle s = .next (s.become s.head.takeOver.takeUp)) ∧
     (s.head.pair.remir = true → s.head.pair.link.state = .up → s.head.pair.link.bulk.unacked = [] → s.head.pair.link.bulk.waiting = [] →
       s.head.allMirrored = true →
       exec .remirrorDone s = .next (s.become s.head.endRemirror.settle)) ∧
     (∀ (p : Nat) (j : TJob) (v : HVerb), (s.head.tape.ports.at p).job = some j → (s.head.tape.ports.at p).link.state ≠ .run →
       s.head.work.verbs.find? (fun v => v.vid = j.vid) = some v →
       let x : Port := { s.head.tape.ports.at p with job := none, held := none, cur := none }
       let h : Head := { s.head with tape := { s.head.tape with ports := s.head.tape.ports.put p x } }
       exec (.tapeResumeTimeout p) s = .next (s.become (((h.sayJob p none).answerVerb v (.fail .headLost)).settle))) ∧
     (∀ (o : Handoff) (x : FwSlot), s.head.pair.handoff = some o → o.act = true → o.mine = false → 5 ≤ o.step → s.head.pair.remir = false →
       s.head.keys.fw.slot s.head.keys.fw.other = some x →
       let h := s.head.setPair { s.head.pair with handoff := none, fence := { s.head.pair.fence with peer := .absent } }
       exec .activateRejoinTimeout s = .next (s.become
         (((h.setFw (h.keys.fw.setSlot h.keys.fw.other (some { x with rejected := true, staged := false }))).endActivation false).settle))))

/-- A side that is handed over (R166): once all is mirrored, its groups free and its tapes between data sets, its head gives it up and holds itself in
reset, or restarts with the staged image; the other head takes on what was given. A head that gives a side back to its own head does so once all
is mirrored and the side's groups are free, and goes on serving.

A replication slot begins a cycle (R310, R311) when the next is due, or a second after a connection or a command of its failed. -/
def Obligations.HandOver : Prop :=
  (∀ (s : State) (o : Handoff), s.head.pair.handoff = some o →
     (o.mine = true → o.side = s.head.side → o.step = 2 → s.head.allMirrored = true → s.head.groupsFree s.head.side = true → s.head.tapeBoundary = true →
       (o.act = false → exec .handoffGiveUp s = .next (s.become (s.head.giveUp false).holdHot)) ∧
       (o.act = true → exec .handoffGiveUp s = .next (s.become ((s.head.giveUp true).startStaged.pulseReset .watchdog)))) ∧
     (o.mine = true → o.side ≠ s.head.side → s.head.allMirrored = true → s.head.groupsFree o.side = true →
       exec .handoffGiveUp s = .next (s.become (s.head.endReturn o.side (decide (o.step = 7)) o.act))) ∧
     (o.mine = false → o.step = 1 → exec .handoffGiveUp s = .next (s.become (s.head.takeOn o.side o.act)))) ∧
  (∀ (s : State) (r : Nat) (x : Rep), s.head.rep r = some x → s.head.serves (s.head.repSide x) = true →
     (x.state = 1 → x.phase = 0 → exec (.replicateCycle r) s = .next (s.become (s.head.repCycle r x).settle)) ∧
     (x.state = 2 → exec (.replicateRetry r) s = .next (s.become (s.head.repCycle r x).settle)))

/-- Training (R14, R284, R286, Table 10-3): both directions start at the width their good lanes give, with fresh credits and numbers, and the sides are
exchanged; lanes that go bad retrain the direction, which then sends again what is not acknowledged (R288, R289).

The power-fail warning and the spill's timers (R290, R292, R295, R513). -/
def Obligations.PairTraining : Prop :=
  (∀ (s : State),
     (∀ (tx rx : BitVec 32) (peerSide peerNewest : Nat) (peerAlone : Bool),
       s.head.runs 16 = true → s.head.dark = false → s.head.pair.link.state ≠ .up → linkWidth tx ≠ 0 → linkWidth rx ≠ 0 →
       let h := (s.head.setLink { Link.blank with
         state := .up, txGood := tx, rxGood := rx, txw := linkWidth tx, rxw := linkWidth rx, lastHb := s.head.now
         mir := { TxChan.blank with credit := 16384 }, bulk := { TxChan.blank with credit := 4096 } }).sendCtl (.control .side s.head.side)
       (peerSide % 2 = h.side → exec (.plTrainDone tx rx peerSide peerNewest peerAlone) s = .next (s.become h.sideConflict)) ∧
       (peerSide % 2 ≠ h.side →
         exec (.plTrainDone tx rx peerSide peerNewest peerAlone) s = .next (s.become (h.meet peerNewest peerAlone)))) ∧
     (∀ (tx rx : BitVec 32) (peerSide peerNewest : Nat) (peerAlone : Bool), (linkWidth tx = 0 ∨ linkWidth rx = 0) →
       exec (.plTrainDone tx rx peerSide peerNewest peerAlone) s = .next s) ∧
     (s.head.linked = true → ∀ (out : Bool) (good : BitVec 32),
       exec (.plLaneBad out good) s = .next (s.become (s.head.setLink (if out
         then { s.head.pair.link with state := .training, txGood := s.head.pair.link.txGood &&& good }
         else { s.head.pair.link with state := .training, rxGood := s.head.pair.link.rxGood &&& good })))) ∧
     (s.head.runs 16 = true → s.head.pair.link.state = .training → ∀ good : BitVec 32,
       let l := s.head.pair.link
       let g := l.txGood &&& good
       let h := (s.head.setLink { l with txGood := g, txw := linkWidth g, state := if linkWidth g = 0 then .down else .up }).event
         0x0706 1 0xFF 8 0 0 (linkWidth g) 0
       (linkWidth g = 0 → exec (.plRetrainDone true good) s = .next (s.become h)) ∧
       (linkWidth g ≠ 0 → s.head.side ≠ 0 → exec (.plRetrainDone true good) s = .next (s.become
         ((h.wire 1 h.pair.link.mir.unacked).wire 2 ((h.wire 1 h.pair.link.mir.unacked).pair.link.bulk.unacked)))))) ∧
  (∀ (s : State),
     (∀ low, (s.head.sys.pins.pwrOk = false ∨ low < 100) → exec (.pfailFall low) s = .next s) ∧
     (∀ low, s.head.sys.pins.pwrOk = true → 1000 ≤ low → exec (.pfailFall low) s = .next (s.become s.head.pfail) ∧
       s.head.pfail = (let g : Head := { s.head with sys := { s.head.sys with pins := { s.head.sys.pins with pfailL := false } } }
         if g.runs 0 then g.beginSpill.spillStep else g)) ∧
     (∀ n, s.head.pair.sphase = .exchange n → exec .spillExchangeTimeout s = .next (s.become s.head.spillGo)) ∧
     (s.head.pair.sphase = .done → s.head.sys.pins.pwrOk = true → s.head.sys.rst.after = none →
       exec .spillResetTimer s = .next (s.become (s.head.pulseReset .watchdog))))

/-- Control frames of the pair link (R14, R166, R218, R268, R273, R283, R286, R287, R290): each is taken where the link is up and its CHK holds, and
discarded otherwise.

Mirrored frames (R278, R281, R286, R287): the frame with the number that comes next takes effect, is acknowledged and gives its credits back; a
frame of the copy brings nothing where the mirror channel has since brought something newer; the first frame that is not next draws a NAK, and none
after it. -/
def Obligations.PairFrames : Prop :=
  (∀ (s : State) (x : PlHead),
     (s.head.linked = true → exec .plHeartbeatTx s = .next (s.become (s.head.sendCtl (.heartbeat (s.head.jour s.head.side).newest
       (match s.head.pair.handoff with | some o => if o.mine then 2 else 1 | none => bnat s.head.pair.solo))))) ∧
     (s.head.linked = true → x.chkOk = true →
       (∀ n st, exec (.plHeartbeatRx x n st) s = .next (s.become (s.head.setLink { s.head.pair.link with
         peerSeq := some n, lastHb := s.head.now }))) ∧
       (∀ m b, exec (.plAckRx x m b) s = .next (s.become ((s.head.setLink { s.head.pair.link with
         mir := s.head.pair.link.mir.acked m, bulk := s.head.pair.link.bulk.acked b }).spillStep.flash))) ∧
       (∀ q, exec (.plNakRx x 1 q) s = .next (s.become (s.head.wire 1 (s.head.pair.link.mir.from q))) ∧
         exec (.plNakRx x 2 q) s = .next (s.become (s.head.wire 2 (s.head.pair.link.bulk.from q)))) ∧
       (∀ m b, exec (.plCreditRx x m b) s = .next (s.become
         ((s.head.setLink { s.head.pair.link with
           mir := (s.head.pair.link.mir.credits m).1
           bulk := { s.head.pair.link.bulk with credit := s.head.pair.link.bulk.credit + b } }).wire 1
             (s.head.pair.link.mir.credits m).2).bulkGo)) ∧
       exec (.plPfailRx x) s = .next (s.become s.head.beginSpill.spillStep) ∧
       (∀ a, a % 2 = s.head.side → exec (.plControlRx x .side a) s = .next (s.become s.head.sideConflict)) ∧
       (∀ a, exec (.plControlRx x .fatal a) s = .next (s.become s.head.assertFence)) ∧
       (∀ a, a % 2 ≠ s.head.side → s.head.serves (1 - s.head.side) = false → s.head.pair.handoff = none → s.head.whole = true →
         exec (.plControlRx x .handoffBegin a) s = .next (s.become (s.head.beginHandoff (1 - s.head.side) (decide (a / 2 % 2 = 1))))) ∧
       (∀ a, s.head.pair.solo = true → s.head.pair.remir = false →
         exec (.plControlRx x .rejoin a) s = .next (s.become s.head.startRemirror))) ∧
     (s.head.linked = true → x.chkOk = false → ∀ (n m : Nat) (t : CtlStep),
       exec (.plHeartbeatRx x n m) s = .next s ∧ exec (.plAckRx x n m) s = .next s ∧ exec (.plNakRx x n m) s = .next s ∧
       exec (.plCreditRx x n m) s = .next s ∧ exec (.plPfailRx x) s = .next s ∧ exec (.plControlRx x t n) s = .next s)) ∧
  (∀ (s : State) (x : PlHead), s.head.linked = true →
     let l := s.head.pair.link
     let up := fun n => (n + 1) % 4294967296
     let mir := s.head.setLink { l with rxMir := up l.rxMir, nakMir := false }
     let bulk := s.head.setLink { l with rxBulk := up l.rxBulk, nakBulk := false }
     (x.chkOk = true → x.seq = l.rxMir →
       (∀ (o p off : Nat) (b : List Byte), s.head.pair.rejoin = false → exec (.plPlaceRx x o p off b) s =
         .next (s.become (((mir.pageIn o p off b).notePlaced o p off b.length).plAnswer false (PlFrame.place o p off b).flits).flash)) ∧
       (∀ (o p use key : Nat), exec (.plLpageRx x o p use key) s =
         .next (s.become (((mir.pageTab o p use key).noteNewer [(9, o, p), (27, o, p)]).plAnswer false (PlFrame.lpage o p use key).flits).flash)) ∧
       (∀ r : PRec, exec (.plPrecRx x r) s = .next (s.become
         ((((mir.noteNewer r.keys).applyRec r).settle).plAnswer false (PlFrame.prec r).flits).flash))) ∧
     (x.chkOk = true → x.seq = l.rxBulk →
       (∀ r : PRec,
         (bulk.outdated r.keys = false →
           exec (.plCopyrecRx x r) s = .next (s.become ((bulk.applyRec r).plAnswer true (PlFrame.copyrec r).flits).flash)) ∧
         (bulk.outdated r.keys = true →
           exec (.plCopyrecRx x r) s = .next (s.become (bulk.plAnswer true (PlFrame.copyrec r).flits).flash))) ∧
       (∀ (o p off : Nat) (b : List Byte),
         (bulk.outdated [(27, o, p)] = true →
           exec (.plCopypageRx x o p off b) s = .next (s.become (bulk.plAnswer true (PlFrame.copypage o p off b).flits).flash)) ∧
         (bulk.outdated [(27, o, p)] = false → (bulk.page (o * 1048576 + p)).isSome = true →
           (bulk.pageIn o p off b).work.cmds.any (fun c => c.await) = false →
           exec (.plCopypageRx x o p off b) s =
             .next (s.become ((bulk.pageIn o p off b).settle.plAnswer true (PlFrame.copypage o p off b).flits).flash)))) ∧
     ((x.chkOk = false ∨ x.seq ≠ l.rxMir) → ∀ r : PRec,
       (l.nakMir = true → exec (.plPrecRx x r) s = .next s) ∧
       (l.nakMir = false → exec (.plPrecRx x r) s =
         .next (s.become ((s.head.setLink { l with nakMir := true }).sendCtl (.nak 1 l.rxMir))))))

/-- The bound of R277 between ALIM.LEHR and LEHRCFG.SIZE: ALIM.LEHR is at most 1,024 × SIZE − 2,048 MiB; a write of either that would break it completes with
INVALID, whoever writes, and a write of SIZE that keeps it completes with OK and sets SIZE. -/
def Obligations.LehrBound : Prop :=
  ∀ (h : Head) (c : Caller) (t : Option Nat) (v : Word),
    (h.accepts c Reg.ALIM.row 0 v = true → 1024 * h.cfg .LEHRCFG 0 7 0 < bits v.toNat 47 32 + 2048 →
      h.writeReg c t Reg.ALIM.row 0 v = .ok (h.auditReg c Reg.ALIM.row 0 .invalid false, .invalid)) ∧
    (h.accepts c Reg.LEHRCFG.row 0 v = true →
      (1024 * bits v.toNat 7 0 < h.cfg .ALIM 0 47 32 + 2048 →
        h.writeReg c t Reg.LEHRCFG.row 0 v = .ok (h.auditReg c Reg.LEHRCFG.row 0 .invalid false, .invalid)) ∧
      (h.cfg .ALIM 0 47 32 + 2048 ≤ 1024 * bits v.toNat 7 0 →
        ∃ k, h.writeReg c t Reg.LEHRCFG.row 0 v = .ok (k, .ok) ∧ k.cfg .LEHRCFG 0 7 0 = bits v.toNat 7 0)) ∧
    (∀ k, h.writeReg c t Reg.ALIM.row 0 v = .ok (k, .ok) → bits v.toNat 47 32 + 2048 ≤ 1024 * h.cfg .LEHRCFG 0 7 0)

/-! ## Reset, power, temperature -/

/-- The machine right after reset (R25, R420, R454, R456, R463, R466): MI alone runs with its trims to load, no thread has run and every general
register and predicate of one reads 0, no key is enrolled, no connection or command exists; registers read their reset values, of which some from
each chapter are named. The straps and the moment taken as reset are the model's choice (log entry 1). -/
def Obligations.ResetState : Prop :=
  let h := State.reset.head
  State.reset.queueOk = true ∧ State.reset.memOk = true ∧ State.reset.pending = [] ∧
  (∀ i, h.runs i = true ↔ i = 0) ∧ h.sys.rst.trimLd = true ∧ h.sys.rst.trimv = false ∧
  (∀ t r, (h.thread t).reg r = 0) ∧ (∀ t n, 1 ≤ n → (h.thread t).pred n = false) ∧ (∀ t, (h.thread t).pc = 0) ∧ (∀ n, h.keyOf n = none) ∧
  h.net.conns = [] ∧ h.work.cmds = [] ∧ h.vols.vols = [] ∧ h.pair.fence.fenced = false ∧ h.serves 0 = false ∧ h.serves 1 = false ∧
  h.cfg .WDCFG 0 63 48 = 1000 ∧ h.cfg .WDCFG 0 47 47 = 1 ∧ h.cfg .THERMCFG 0 63 56 = 100 ∧ h.cfg .CVRCFG 0 55 48 = 150 ∧
  h.cfg .FNCCFG 0 63 48 = 1000 ∧ h.cfg .LEHRCFG 0 7 0 = 24 ∧ h.cfg .ALIM 0 47 32 = 16384 ∧ h.cfg .CPTCFG 0 63 48 = 6416 ∧
  h.cfg .TPCFG 0 63 48 = 60 ∧ h.cfg .ENGCFG 0 63 63 = 0

/-- Reset sources (R461, R464, R465, R513, R475): a pin asserts its source, from the width that always acts; its rise, or the fall of the temperature,
releases it; the watchdog asserts and releases its own.

A reset that is asserted first wipes the head, records its cause and counts a boot; MI runs again when the last source is released, with the straps
sampled and the trims to load (R456, R464, R466). -/
def Obligations.ResetSources : Prop :=
  (∀ (s : State),
     (∀ low, 1000 ≤ low → exec (.pwrOkFall low) s = .next (s.become
       ((s.head.tick.setPins { s.head.sys.pins with pwrOk := false }).assertReset .power))) ∧
     (∀ low, low < 100 → exec (.pwrOkFall low) s = .next (s.become s.head.tick) ∧ exec (.rstLFall low) s = .next (s.become s.head.tick)) ∧
     (∀ low, 2000 ≤ low → exec (.rstLFall low) s = .next (s.become
       ((s.head.tick.setPins { s.head.sys.pins with rstL := false }).assertReset .rstL))) ∧
     exec .rstLRise s = .next (s.become ((s.head.setPins { s.head.sys.pins with rstL := true }).releaseReset .rstL)) ∧
     (s.head.sys.pins.pwrOk = false → exec .pwrOkRise s = .next (s.become (({ s.head with
       now := 0, tset := false
       sys := { s.head.sys with pins := { s.head.sys.pins with pwrOk := true, pfailL := true }, rst := { s.head.sys.rst with pwrAt := 0 } } }
         : Head).releaseReset .power))) ∧
     (s.head.sys.rst.tflt = false → s.head.sys.rst.bflt = false → s.head.cfg .WDCFG 0 47 47 = 1 → s.head.sys.rst.active = [] →
       exec .watchdogExpire s = .next (s.become (s.head.pulseReset .watchdog))) ∧
     (s.head.cfg .WDCFG 0 47 47 = 0 → exec .watchdogExpire s = .next s) ∧
     (∀ c v, s.head.accepts c Reg.WDKICK.row 0 v = true → exec (.wdkick c v) s =
       .next (s.wrote (s.head.setRst { s.head.sys.rst with kicked := true }) c Reg.WDKICK.row 0 .ok)) ∧
     exec .thermalTrip s = .next (s.become ((s.head.assertReset .thermal).setPower
       { (s.head.assertReset .thermal).sys.power with trip := true })) ∧
     (s.head.sys.power.held = false → exec .thermalTripRelease s = .next (s.become (s.head.releaseReset .thermal)))) ∧
  (∀ (h : Head) (src : RSrc),
     (h.sys.rst.active = [] →
       (h.assertReset src).sys.rst.active = [src] ∧ (h.assertReset src).sys.rst.cause = src.cause ∧
       (h.assertReset src).sys.rst.bootn = (h.sys.rst.bootn + 1) % 2 ^ 32 ∧
       (h.assertReset src).core.threads = [] ∧ (h.assertReset src).core.l1 = [] ∧ (h.assertReset src).core.l2 = [] ∧
       (h.assertReset src).net.conns = [] ∧ (h.assertReset src).work.cmds = []) ∧
     (src ≠ .power → h.sys.rst.active.contains src = false → h.sys.rst.active ≠ [] →
       (h.assertReset src).core = h.core ∧ (h.assertReset src).sys.rst.cause = h.sys.rst.cause ∧
       (h.assertReset src).sys.rst.bootn = h.sys.rst.bootn) ∧
     (h.sys.rst.active = [src] →
       (h.releaseReset src).sys.rst.active = [] ∧ (h.releaseReset src).sys.rst.trimLd = true ∧
       (h.releaseReset src).sys.rst.straps = h.sys.pins.bootSel * 8 + h.sys.pins.clkSel * 2 + h.sys.pins.sideSel) ∧
     (h.releaseReset src).core = h.core)

/-- What a head comes up through (R210, R438, R441, R446, R454, R459, R463, R466, R467, R471): trims, islands in their order, the image or BOOT_FAULT, a peer that does not come. -/
def Obligations.BringUp : Prop :=
  ∀ (s : State),
    (s.head.sys.rst.trimLd = true → s.head.sys.rst.active = [] →
      exec (.trimLoadDone true) s = .next (s.become
        ((s.head.setRst { s.head.sys.rst with trimLd := false, trimv := true, fails := 0 }).releaseNext)) ∧
      (s.head.sys.rst.fails < 2 →
        exec (.trimLoadDone false) s = .next (s.become (s.head.setRst { s.head.sys.rst with fails := s.head.sys.rst.fails + 1 }))) ∧
      (2 ≤ s.head.sys.rst.fails → exec (.trimLoadDone false) s = .next (s.become
        ((s.head.setRst { s.head.sys.rst with fails := 3, trimLd := false, tflt := true }).headEvent 0x0304 3 3 0)))) ∧
    (∀ i dies, s.head.island i = .releasing → 1 ≤ i → i ≤ 16 → (i = 1 → s.head.core.psFail = false) →
      exec (.islandReady i dies) s = .next (s.become
        (((s.head.updIsland i (fun x => { x with st := .running })).releaseNext.takeUp).settle))) ∧
    (∀ i dies, s.head.island i = .releasing → 17 ≤ i → i ≤ 20 →
      exec (.islandReady i dies) s = .next (s.become
        ((((s.head.updIsland i (fun x => { x with st := .running })).initPorts i dies).releaseNext.takeUp).settle))) ∧
    (∀ dies, s.head.island 21 = .releasing → exec (.islandReady 21 dies) s = .next (s.become
      (((((s.head.updIsland 21 (fun x => { x with st := .running })).tryTrain 0).tryTrain 1).releaseNext.takeUp).settle))) ∧
    (∀ src im, s.head.sys.rst.active = [] → s.head.sys.rst.image = false → s.head.sys.rst.tflt = false → s.head.runs 1 = true →
      s.head.runs 2 = true → s.head.bootSource src = true →
      let h := if s.head.sys.rst.straps / 8 % 4 = 3 then s.head.fallBack else s.head
      (im.pass = true → exec (.bootImageReady src im) s = .next (s.become (h.imageUp src im))) ∧
      (im.pass = false → exec (.bootImageReady src im) s = .next (s.become h.bootFault))) ∧
    (s.head.sys.rst.active = [] → s.head.sys.rst.tflt = false → s.head.sys.rst.bflt = false → s.head.pair.link.state = .down →
      s.head.sys.pins.fenceOut = true → s.head.pair.rejoin = false → s.head.pair.fence.peer ≠ .inService → s.head.runs 1 = true →
      exec .pairwaitExpire s = .next (s.become ((s.head.recorderStart 0).assertFence)))

/-- Quiesce and reset of an island (R68, R162, R391, R469): a write of ISRST quiesces, resets what is quiesced, or does both; a quiesce ends when the
island's work and its crossings have, or after QTMO without a reset. -/
def Obligations.IslandResets : Prop :=
  ∀ (s : State) (c : Caller) (v : Word),
    let i := bits v.toNat 4 0
    (s.head.accepts c Reg.ISRST.row 0 v = true → s.head.islandRefused i = false →
      (bits v.toNat 63 62 = 1 → exec (.isrstQuiesce c v) s = .next (s.wrote (s.head.quiesce i false) c Reg.ISRST.row 0 .ok)) ∧
      (bits v.toNat 63 62 = 2 → exec (.isrstReset c v) s = .next (s.wrote (s.head.islandReset i) c Reg.ISRST.row 0 .ok)) ∧
      (bits v.toNat 63 62 = 3 → s.head.island i = .quiesced →
        exec (.isrstQuiesceReset c v) s = .next (s.wrote (s.head.islandReset i) c Reg.ISRST.row 0 .ok)) ∧
      (bits v.toNat 63 62 = 3 → s.head.island i ≠ .quiesced →
        exec (.isrstQuiesceReset c v) s = .next (s.wrote (s.head.quiesce i true) c Reg.ISRST.row 0 .ok))) ∧
    (∀ (n : Nat) (x : Island), s.head.sys.islands[n]? = some x → s.head.island n = .quiescing → (n < 17 ∨ 20 < n) →
      s.head.crossingBusy n = false → s.head.islandQuiet n = true →
      (x.rstAfter = false → exec (.quiesceDone n) s = .next (s.become (s.head.updIsland n (fun x => { x with st := .quiesced })))) ∧
      (x.rstAfter = true → exec (.quiesceDone n) s = .next (s.become ((s.head.suspendIsland n false).islandReset n)))) ∧
    (∀ n, s.head.island n = .quiescing → n ≠ 21 → exec (.quiesceTimeout n) s = .next (s.become
      (s.head.updIsland n (fun x => { x with st := .running, qto := true, rstAfter := false })).settle))

/-- Temperature, clocks, the regulator, PSTORE's supply (R394, R407, R455 to R457, R473 to R476, R508, R509).

The tell-tales (R458, R490): driven from 1 ms after the release of MI; BEAT changes its level where the watchdog was restarted, and holds still otherwise. -/
def Obligations.Supervision : Prop :=
  (∀ (s : State),
     (∀ tj hbm, s.head.sys.power.held = false → s.head.sys.rst.active = [] →
       let t := min 255 (max tj hbm)
       let h := s.head.setPower { s.head.sys.power with
         tj := t, tjpeak := max s.head.sys.power.tjpeak t
         thr := decide (s.head.cfg .THERMCFG 0 63 56 ≤ t) || decide (95 ≤ hbm), dblRef := decide (85 < hbm) }
       (t < s.head.cfg .THERMCFG 0 55 48 → hbm < 100 → exec (.thermalSample tj hbm) s = .next (s.become h)) ∧
       ((s.head.cfg .THERMCFG 0 55 48 ≤ t ∨ 100 ≤ hbm) → exec (.thermalSample tj hbm) s = .next (s.become h.critical))) ∧
     (∀ tj hbm, s.head.sys.power.held = true → min 255 (max tj hbm) + 10 < s.head.cfg .THERMCFG 0 63 56 →
       exec (.thermalSample tj hbm) s = .next (s.become
         ((s.head.setPower { s.head.sys.power with held := false, tj := min 255 (max tj hbm) }).releaseReset .thermal))) ∧
     (let gone := fun (refs : BitVec 5) => s.head.setPower { s.head.sys.power with loss := s.head.sys.power.loss ||| refs }
      (s.head.sys.rst.straps / 2 % 4 ≠ 1 ∨ s.head.sys.rst.active ≠ [] →
        exec (.clockLoss 1#5) s = .next (s.become ((gone 1#5).hostLinksDown 32 (fun l => decide (l < 16))))) ∧
      exec (.clockLoss 2#5) s = .next (s.become ((gone 2#5).hostLinksDown 32 (fun l => decide (16 ≤ l)))) ∧
      exec (.clockLoss 4#5) s = .next (s.become (gone 4#5).pairLinkDown) ∧
      exec (.clockLoss 8#5) s = .next (s.become (((gone 8#5).linkDown 0).linkDown 1)) ∧
      (s.head.sys.rst.straps / 2 % 4 ≠ 1 → s.head.sys.rst.active = [] →
        ∃ why, exec (.clockLoss 16#5) s = .next (s.become ((gone 16#5).tick.headFatal 0 0 why)))) ∧
     (s.head.runs 0 = true → s.head.sys.power.fault = false → ∀ stat,
       let p := s.head.sys.power
       exec (.cvrAlert true stat) s = .next (s.become (((((s.head.emit (.cvr 5 0)).emit (.cvr 7 0)).setPower
         { p with fails := 0, rstat := stat % 8 }).setPins { s.head.sys.pins with cvrAlertL := true })))) ∧
     (s.head.runs 0 = true → s.head.sys.power.fault = false → ∀ vid below iout, s.head.nextVid vid below = s.head.sys.power.vid →
       exec (.cvrVidStep vid below true iout) s = .next (s.become ((s.head.emit (.cvr 4 0)).setPower
         { s.head.sys.power with fails := 0, iout := iout % 65536 }))) ∧
     (s.head.runs 0 = true → s.head.sys.power.fault = true → ∀ vid acks iout,
       exec (.cvrVidStep vid false acks iout) s = .next s ∧
       ∃ why, exec (.cvrVidStep vid true acks iout) s = .next (s.become (s.head.tick.headFatal 0 0 why))) ∧
     exec .vddPsLow s = .next (s.become (s.head.psFailed 1).settle)) ∧
  (∀ (s : State),
     (s.head.sys.rst.active = [] → s.head.runs 0 = true →
       exec .telltaleEnable s = .next (s.become (s.head.setRst { s.head.sys.rst with ttOn := true }).showTells)) ∧
     (s.head.sys.rst.ttOn = true → s.head.sys.rst.kicked = true → s.head.pair.fence.fenced = false → s.head.sys.rst.tflt = false →
       s.head.sys.rst.bflt = false → exec .telltaleBeat s = .next (s.become
         (s.head.setRst { s.head.sys.rst with beat := !s.head.sys.rst.beat, kicked := false }).showTells)) ∧
     ((s.head.sys.rst.kicked = false ∨ s.head.pair.fence.fenced = true ∨ s.head.sys.rst.tflt = true ∨ s.head.sys.rst.bflt = true) →
       exec .telltaleBeat s = .next s))

/-! ## Tape -/

/-- Frames of a transport link (R348 to R350, R356): one that fails its check is counted and has no other effect; one that passes sets the number
expected next, and its payload takes effect. -/
def Obligations.TapeFrames : Prop :=
  ∀ (s : State) (p seq : Nat) (v : Word) (st : TfeStatus) (f : SampleFrame),
    let l := (s.head.port p).link
    let next := fun (typ n : Nat) => s.head.setTl p { l with rxSeq := place 0 l.rxSeq typ ((n + 1) % 65536) }
    (l.state = .run ∨ l.state = .config →
      exec (.tlRegrspRx p seq true v) s = .next (s.become ((next 0x13 seq).regRsp p v)) ∧
      exec (.tlRegrspRx p seq false v) s = .next (s.become (s.head.tcount p 11 1)) ∧
      exec (.tlStatusRx p seq false st) s = .next (s.become (s.head.tcount p 11 1)) ∧
      ((((next 0x12 seq).tfeStatus p st).port p).job = none →
        exec (.tlStatusRx p seq true st) s = .next (s.become (((next 0x12 seq).tfeStatus p st).kick p).settle)) ∧
      (f.chkOk = false ∨ f.lenOk = false → exec (.tlSampleRx p f) s = .next (s.become (s.head.tcount p 11 1))) ∧
      (f.chkOk = true → f.lenOk = true → f.seq = look 0 l.rxSeq 0x11 →
        let h := (next 0x11 f.seq).tfeStatus p f.status
        let x := h.port p
        x.state ≠ .writing → x.state ≠ .reading → exec (.tlSampleRx p f) s = .next (s.become
          (((h.setPort p x).setPort p (((h.setPort p x).port p).servoIn f.servo0 f.servo1)).settle)))) ∧
    (l.state ≠ .run → l.state ≠ .config →
      exec (.tlRegrspRx p seq true v) s = .next s ∧ exec (.tlStatusRx p seq true st) s = .next s ∧ exec (.tlSampleRx p f) s = .next s)

/-- Servo, shock and movement of a tape port (R365 to R368, R371, R385, R513).

The states of a transport link (R353, R354, R357): training, alignment, CONFIG with the read of TLID first, what ends each, and the wait before the next try. -/
def Obligations.TapePorts : Prop :=
  (∀ (s : State) (p : Nat),
     let x := s.head.port p
     (x.link.state = .run → x.state = .idle → exec (.tlCtrlTimer p) s = .next (s.become
       ((s.head.setServo p { x.servo with act := 0, reelA := 0, reelB := 0 }).sendCtrl p))) ∧
     (x.link.state ≠ .run → exec (.tlCtrlTimer p) s = .next s) ∧
     (x.state ≠ .noCartridge → x.state ≠ .idle → x.pesOf x.servo.smp0 = none → x.pesOf x.servo.smp1 = none →
       exec (.servoPesUpdate p) s =
         .next (s.become ((s.head.setServo p { x.servo with off := true, okAt := none }).inhibit p 3))) ∧
     (x.state = .idle → exec (.servoPesUpdate p) s = .next s) ∧
     (∀ low, 50 ≤ low → exec (.shockInput p low) s = .next (s.become
       ((s.head.setServo p { x.servo with shkAt := s.head.now + 1 }).inhibit p 4))) ∧
     (∀ low, low < 10 → exec (.shockInput p low) s = .next s) ∧
     (∀ j, x.state = .backhitch → x.link.state = .run → x.job = some j → j.writing = true →
       exec (.backhitchDone p) s = .next (s.become
         ((s.head.setPort p { x with state := .writing, chans := [], servo := { x.servo with speeds := [], since := 0 } }).sendCtrl p))) ∧
     (x.state = .stopped → x.job = none → s.head.cfg .TPCFG p 63 48 ≠ 0 → exec (.tapePortIdle p) s = .next (s.become
       ((s.head.setPort p { x with state := .idle, chans := [], servo := { x.servo with
         act := 0, reelA := 0, reelB := 0, smp0 := [], smp1 := [] } }).sendCtrl p))) ∧
     exec (.datasetStart p) s = .next (s.become (s.head.datasetStart p).settle) ∧
     ((((s.head.fillBuf p).closeData p).port p).job = none → (((s.head.fillBuf p).closeData p).port p).cur = none →
       s.head.datasetStart p = (s.head.fillBuf p).closeData p) ∧
     (let h := (s.head.fillBuf p).closeData p
      let x := h.port p
      ∀ j d rest, x.job = some j → x.cur = none → x.buf = d :: rest → x.state = .writing → j.writing = true → x.link.state = .run →
       h.tapeHold = false → x.mayStart h.now = true → x.distOf x.wrap x.servo.lpos + 330 ≤ x.wrapLen →
       s.head.datasetStart p = h.startSet p d rest)) ∧
  (∀ (s : State) (p : Nat),
     let l := (s.head.port p).link
     (l.state = .down ∨ l.state = .fault → exec (.tlLinkLoss p) s = .next s ∧ exec (.tlStateTimeout p) s = .next s) ∧
     (l.state ≠ .run → exec (.tlStateTimeout p) s = .next (s.become (s.head.linkDown p))) ∧
     exec (.tlLinkLoss p) s = .next (s.become (s.head.linkDown p)) ∧
     (∀ rx tx, l.state = .run → exec (.tlLaneBad p rx tx) s = .next (s.become
       ((s.head.linkDown p).setTl p { ((s.head.linkDown p).port p).link with rxGood := rx, txGood := tx }))) ∧
     (∀ rx tx, l.state ≠ .run → exec (.tlLaneBad p rx tx) s = .next (s.become (s.head.setTl p { l with rxGood := rx, txGood := tx }))) ∧
     (∀ (rx : BitVec 8) (tx : BitVec 4), l.state = .train →
       (4 ≤ lanes 8 rx.toNat → 2 ≤ lanes 4 tx.toNat → exec (.tlTrainDone p rx tx) s = .next (s.become (s.head.setTl p { l with
         state := .align, rxGood := rx, txGood := tx
         rxw := if 8 ≤ lanes 8 rx.toNat then 8 else 4, txw := if 4 ≤ lanes 4 tx.toNat then 4 else 2 }))) ∧
       ((lanes 8 rx.toNat < 4 ∨ lanes 4 tx.toNat < 2) → exec (.tlTrainDone p rx tx) s = .next (s.become (s.head.setTl p { l with
         rxGood := rx, txGood := tx })))) ∧
     (l.state = .align → exec (.tlAlignDone p) s = .next (s.become
       ((s.head.setTl p { l with state := .config, entry := 0, txSeq := [], rxSeq := [] }).sendTl p 0x04 [regWord true 0 0]))) ∧
     (exec (.tlRetryWait p) s = .next (s.become ((s.head.setTl p { l with ready := true }).tryTrain p))))

/-! ## Caches, registers, keys, SMBus -/

/-- Caches and memory (R396, R397, R399 to R401, R404 to R408): write-backs acknowledged, the merging buffer's timer, patrol scrubbing, PSTORE errors, and the raw
accesses of the checker tests.

Cache enables (R396, R400, R401): an invalidate empties its cache and its bit is not stored; an enable without the invalidate that R396 asks for is
undefined, and stops; at most 8 ways are locked, none of them disabled. -/
def Obligations.CachesAndMemory : Prop :=
  (∀ (s : State),
     (∀ n line, exec (.writebackAck 2 n line) s = .next (s.become (s.head.ackL2 n line))) ∧
     (∀ n line c h, cached (s.head.l1 n).evict line = some c →
       (s.head.setL1 n { s.head.l1 n with evict := dropLine (s.head.l1 n).evict line }).putBelow (pelotonOf n) line c.ln = some h →
       exec (.writebackAck 1 n line) s = .next (s.become h)) ∧
     (∀ e h, s.head.drainOne e = some h → exec (.wtBufferDrain e) s = .next (s.become h)) ∧
     (∀ e, s.head.drainOne e = none → exec (.wtBufferDrain e) s = .next s) ∧
     (∀ m addr, addr ≠ 0 → exec (.patrolScrub m addr .clean) s = .next s) ∧
     (∀ m addr, addr ≠ 0 → m ≠ 0 →
       exec (.patrolScrub m addr .corrected) s = .next (s.become ((s.head.scrubWord m (addr / 8)).eccCorrected m addr))) ∧
     (∀ addr, addr ≠ 0 → exec (.patrolScrub 4 addr .uncorrectable) s = .next (s.become
       ((s.head.putWord 4 (addr / 8) (s.head.memWord 4 (addr / 8)).1 true).eccNote 4 3 addr))) ∧
     (∀ why mir, why = 1 ∨ why = 3 → exec (.pstoreUncorrectable why mir) s = .next (s.become (s.head.psFailed why).settle)) ∧
     (∀ mir, let l := s.head.now :: s.head.core.psUnc.filter (fun t => decide (s.head.now < t + 86400000000000))
       let h := (s.head.setCore { s.head.core with psUnc := l }).eccNote 5 3 0
       (l.length ≤ h.cfg .PSCFG 0 63 56 → exec (.pstoreUncorrectable 0 mir) s = .next (s.become h.settle)) ∧
       (h.cfg .PSCFG 0 63 56 < l.length → exec (.pstoreUncorrectable 0 mir) s = .next (s.become (h.psFailed 2).settle))) ∧
     (∀ c v, s.head.accepts c Reg.ECCTCTL.row 0 v = true → s.head.cfg .ECCTA 0 47 0 % 8 = 0 →
       let m := s.head.cfg .ECCTA 0 63 60
       let a := s.head.cfg .ECCTA 0 47 0
       let x := s.head.rawRead m a
       (bits v.toNat 63 62 = 1 → exec (.ecctRawWrite c v) s = .next (s.wrote
         (s.head.rawWrite m a (s.head.stored 0 .ECCTD 0) (s.head.cfg .ECCTC 0 7 0) (decide (s.head.cfg .ECCTC 0 8 8 = 1))) c
           Reg.ECCTCTL.row 0 .ok)) ∧
       (bits v.toNat 63 62 = 2 → exec (.ecctRawRead c v) s = .next (s.wrote
         (((s.head.store 0 .ECCTD 0 x.1).setFld 0 .ECCTC 0 7 0 x.2.1).setFld 0 .ECCTC 0 8 8 (bnat x.2.2)) c Reg.ECCTCTL.row 0 .ok)))) ∧
  (∀ (s : State) (c : Caller) (v : Word),
     (∀ e, s.head.accepts c Reg.ENGCFG.row e v = true →
       let x := s.head.l1 e
       let up := fun (b : Nat) => decide (bit v.toNat b = true ∧ s.head.cfg .ENGCFG e b b = 0)
       let down := fun (b : Nat) => decide (bit v.toNat b = false ∧ s.head.cfg .ENGCFG e b b = 1)
       let kept := s.head.setReg c Reg.ENGCFG.row e (v &&& ~~~(BitVec.ofNat 64 (maskBits 59 58)))
       ((up 63 = true ∧ x.ivi = false) ∨ (up 62 = true ∧ x.ivd = false) →
         exec (.engcfgInvi c e v) s = .fault .cacheEnabledWithoutInvalidate ∧
         exec (.engcfgInvd c e v) s = .fault .cacheEnabledWithoutInvalidate) ∧
       ((up 63 = true → x.ivi = true) → (up 62 = true → x.ivd = true) →
         let t := s.wrote (kept.setL1 e { x with
           iline := if bit v.toNat 59 then [] else x.iline, lines := if bit v.toNat 58 then [] else x.lines
           scount := if bit v.toNat 58 then 0 else x.scount
           ivi := (x.ivi || bit v.toNat 59) && !(down 63), ivd := (x.ivd || bit v.toNat 58) && !(down 62) }) c Reg.ENGCFG.row e .ok
         exec (.engcfgInvi c e v) s = .next t ∧ exec (.engcfgInvd c e v) s = .next t)) ∧
     (∀ k, s.head.accepts c Reg.L2CFG.row k v = true →
       (8 < lanes 16 (bits v.toNat 15 0) ∨ bits v.toNat 15 0 &&& bits v.toNat 31 16 ≠ 0 →
         exec (.l2cfgInv c k v) s = .next (s.wrote s.head c Reg.L2CFG.row k .invalid) ∧
         exec (.l2cfgLockDisWrite c k v) s = .next (s.wrote s.head c Reg.L2CFG.row k .invalid)) ∧
       (lanes 16 (bits v.toNat 15 0) ≤ 8 → bits v.toNat 15 0 &&& bits v.toNat 31 16 = 0 →
         (bit v.toNat 63 = true → s.head.cfg .L2CFG k 63 63 ≠ 1 → (s.head.l2 k).iv = false →
           exec (.l2cfgInv c k v) s = .fault .cacheEnabledWithoutInvalidate ∧
           exec (.l2cfgLockDisWrite c k v) s = .fault .cacheEnabledWithoutInvalidate) ∧
         (bit v.toNat 63 = false ∨ s.head.cfg .L2CFG k 63 63 = 1 ∨ (s.head.l2 k).iv = true →
           let off := decide (s.head.cfg .L2CFG k 63 63 = 1) && !(bit v.toNat 63)
           let h := s.head.setL2 k { s.head.l2 k with
             lines := if bit v.toNat 62 then [] else (s.head.l2 k).lines, iv := ((s.head.l2 k).iv || bit v.toNat 62) && !off }
           let t := s.wrote ((((upto 16).filter (fun w => bit (bits v.toNat 31 16) w && !h.wayOff k w)).foldl
             (fun h w => h.wayLost k w) h).setReg c Reg.L2CFG.row k (v &&& ~~~(BitVec.ofNat 64 (maskBits 62 62)))) c Reg.L2CFG.row k .ok
           exec (.l2cfgInv c k v) s = .next t ∧ exec (.l2cfgLockDisWrite c k v) s = .next t))))

/-- The register map (R498): an address that names a register is a multiple of 8 below 2^31 and is that register's address at an index of its row; no two
rows name one address; a state-space address above 32 bits, or one whose bits [30:0] name no register, reaches none. -/
def Obligations.RegisterMap : Prop :=
  (∀ a d i, regOf a = some (d, i) → a % 8 = 0 ∧ a < 2 ^ 31 ∧ i < d.count * d.count2 ∧ d.addr i = a) ∧
  (∀ (a : Nat) (d e : RegDef) (i j : Nat), d ∈ regsAt (a >>> 24) → e ∈ regsAt (a >>> 24) → d.index a = some i → e.index a = some j → d = e) ∧
  (∀ (h : Head) (c : Caller) (t : Option Nat) (a : Nat) (v : Word), (2 ^ 32 ≤ a ∨ regOf (a % 2 ^ 31) = none) →
    h.readState c t a = (h.auditAccess c a .invalid, .invalid, 0) ∧
    h.writeState c t a v = .ok (h.auditAccess c a .invalid, .invalid))

/-- A write of a register is checked in the order of R40: not served, a field above the tier, a locked field, a reserved field, a value out of range; the
first that fails is its status, and nothing but its record changes. HPCFG stands for the rows that write one register. -/
def Obligations.WriteChecks : Prop :=
  (∀ (h : Head) (c : Caller) (d : RegDef) (i : Nat) (v : Word),
    let old := (h.present (d.copy c.side) d i).toNat
    let gone := decide (h.served d i = false ∨ (d.scope = .S ∧ (h.serves c.side = false ∨ h.moving c.side = true)))
    let low := d.flds.any (fun f => f.reach old v.toNat && !f.tier.le c.tier)
    let locked := d.flds.any (fun f => h.lockedFld d i f && f.reach old v.toNat)
    let wide := d.flds.any (fun f => !f.inRange v.toNat)
    (gone = true → h.writeCheck c d i v = some .invalid) ∧
    (gone = false → low = true → h.writeCheck c d i v = some .tier) ∧
    (gone = false → low = false → (locked = true ∨ v.toNat &&& d.known ≠ v.toNat ∨ wide = true) → h.writeCheck c d i v = some .invalid) ∧
    (gone = false → low = false → locked = false → v.toNat &&& d.known = v.toNat → wide = false → h.writeCheck c d i v = none)) ∧
  (∀ (s : State) (c : Caller) (v : Word) (st : Status), s.head.writeCheck c Reg.HPCFG.row 0 v = some st →
    exec (.hpcfgWrite c v) s = .next (s.wrote s.head c Reg.HPCFG.row 0 st))

/-- Writes whose effect is one register or one link (R349, R354, R356, R425, R426, R452, R488).

Tables (R5, R91, R178, R193, R212, R221, R355, R375, R376): a table that passes its form, and what it must suit, is in force on both heads; one that does not
is refused and changes nothing. -/
def Obligations.RegisterWrites : Prop :=
  (∀ (s : State) (c : Caller) (v : Word),
     (s.head.accepts c Reg.HPCFG.row 0 v = true →
       let old := (s.head.stored 0 .HPCFG 0).toNat
       exec (.hpcfgWrite c v) s = .next (s.wrote ((s.head.setReg c Reg.HPCFG.row 0 v).hostLinksDown 32 (fun l =>
         decide (bit old (l / 4) ≠ bit v.toNat (l / 4)) || decide (bit old (8 + l / 4) ≠ bit v.toNat (8 + l / 4)))) c Reg.HPCFG.row 0 .ok)) ∧
     (s.head.accepts c Reg.HPOL.row 0 v = true →
       exec (.hpolWrite c v) s = .next (s.wrote (s.head.setReg c Reg.HPOL.row 0 v) c Reg.HPOL.row 0 .ok)) ∧
     (s.head.accepts c Reg.EVTIME.row 0 v = true →
       exec (.evtimeWrite c v) s = .next (s.wrote { s.head with now := v.toNat, tset := true } c Reg.EVTIME.row 0 .ok)) ∧
     (∀ p, s.head.accepts c Reg.TLCFG.row p v = true →
       let h := s.head.setReg c Reg.TLCFG.row p v
       let l := (h.port p).link
       (v.getLsbD 63 = false → exec (.tlcfgEnWrite c p v) s = .next (s.wrote (h.setTl p { l with enOff := true }) c Reg.TLCFG.row p .ok)) ∧
       (v.getLsbD 63 = true → l.state = .fault → l.enOff = true → exec (.tlcfgEnWrite c p v) s = .next (s.wrote
         ((h.setTl p { l with state := .down, tries := 0, ready := true, enOff := false }).tryTrain p) c Reg.TLCFG.row p .ok)) ∧
       (v.getLsbD 63 = true → (l.state ≠ .fault ∨ l.enOff = false) → exec (.tlcfgEnWrite c p v) s = .next (s.wrote
         ((h.setTl p { l with enOff := false }).tryTrain p) c Reg.TLCFG.row p .ok))) ∧
     (∀ p, s.head.accepts c Reg.TLREG.row p v = true → (s.head.port p).link.state = .run →
       exec (.tlregWrite c p v) s = .next (s.wrote
         (s.head.sendTl p 0x04 [regWord (bit v.toNat 63) (bits v.toNat 47 32) (bits v.toNat 31 0)]) c Reg.TLREG.row p .ok)) ∧
     (s.head.accepts c Reg.MKACC.row 0 v = true →
       let h := s.head.setReg c Reg.MKACC.row 0 v
       ((c.tier ≠ .M ∨ bit v.toNat 63 = s.head.makerClosed) → (s.head.makerClosed = true ∨ bit v.toNat 63 = false) →
         exec (.mkaccWrite c v) s = .next (s.wrote h c Reg.MKACC.row 0 .ok)) ∧
       (c.tier ≠ .M → s.head.makerClosed = false → bit v.toNat 63 = true →
         exec (.mkaccWrite c v) s = .next (s.wrote (h.endSessions (fun n => decide (72 ≤ n ∧ n ≤ 73))) c Reg.MKACC.row 0 .ok)) ∧
       (c.tier = .M → s.head.served Reg.MKACC.row 0 = true → bit v.toNat 63 ≠ s.head.makerClosed →
         exec (.mkaccWrite c v) s = .next (s.become ((s.head.answered (s.head.auditReg c Reg.MKACC.row 0 .tier true) .tier).settle))))) ∧
  (∀ (s : State) (c : Caller) (v : Word) (b : List Byte),
     let up := fun (typ : Nat) (d : RegDef) => s.wrote ((s.head.putTable typ b).record' (.table typ b)) c d 0 .ok
     (s.head.accepts c Reg.DRGEAR.row 0 v = true → s.head.table c v 1 gearForm = .ok b → exec (.drgearLoad c v) s = .next (up 1 Reg.DRGEAR.row)) ∧
     (s.head.accepts c Reg.DRHUF.row 0 v = true → s.head.table c v 2 huffForm = .ok b → exec (.drhufLoad c v) s = .next (up 2 Reg.DRHUF.row)) ∧
     (s.head.accepts c Reg.NFFAM.row 0 v = true → s.head.table c v 3 famForm = .ok b →
       (s.head.famsFit (famOf b) = true → exec (.nffamLoad c v) s = .next (up 3 Reg.NFFAM.row)) ∧
       (s.head.famsFit (famOf b) = false → exec (.nffamLoad c v) s = .next (s.wrote s.head c Reg.NFFAM.row 0 .invalid))) ∧
     (s.head.accepts c Reg.NFLDPC.row 0 v = true → s.head.table c v 4 ldpcForm = .ok b →
       (s.head.sideDies 0 ++ s.head.sideDies 1).all (fun d => (ldpcSel (ldpcOf b) d.spare).isSome) = true →
       exec (.nfldpcLoad c v) s = .next (up 4 Reg.NFLDPC.row)) ∧
     (s.head.accepts c Reg.TPLAD.row 0 v = true → s.head.table c v 5 ladderForm = .ok b → exec (.tpladLoad c v) s = .next (up 5 Reg.TPLAD.row)) ∧
     (s.head.accepts c Reg.TPEQ.row 0 v = true → s.head.table c v 6 eqForm = .ok b → spliceOf (eqOf b).rwdist ≤ 8 →
       exec (.tpeqLoad c v) s = .next (up 6 Reg.TPEQ.row)) ∧
     (s.head.accepts c Reg.TPLNK.row 0 v = true → s.head.table c v 7 linkForm = .ok b → exec (.tplnkLoad c v) s = .next (up 7 Reg.TPLNK.row)) ∧
     (s.head.accepts c Reg.ADMTAB.row 0 v = true → s.head.table c v 8 costForm = .ok b →
       (s.head.capsReach (costOf b) = true → exec (.admtabLoad c v) s = .next (s.wrote
         (({ s.head with work := { s.head.work with cost := costOf b } } : Head).record' (.costTab (costOf b))) c Reg.ADMTAB.row 0 .ok)) ∧
       (s.head.capsReach (costOf b) = false → exec (.admtabLoad c v) s = .next (s.wrote s.head c Reg.ADMTAB.row 0 .invalid))) ∧
     (∀ st, s.head.accepts c Reg.DRGEAR.row 0 v = true → s.head.table c v 1 gearForm = .error st →
       exec (.drgearLoad c v) s = .next (s.wrote s.head c Reg.DRGEAR.row 0 st)))

/-- STATE.GET and STATE.SET (R40, R41, R499, R500, R503): the access at RA + IMM is made and logged, and its status and value go to the thread; a write
waits for the peer's copy of what it set (R501). The instruction waits, as a verb does, where its command's log has no page for one more entry (log 89). -/
def Obligations.RegisterAccess : Prop :=
  ∀ (s : State) (t : Nat) (w : GWord),
    let h := s.head.fetched t
    let x := s.head.thread t
    let a := stateAddr x w
    let g := h.logGrown x.cmd x.outs
    (s.head.takesEffect t (w.common 0x20) (w.rb = 0 && w.fn = 0) .O [w.rd.toNat, w.ra.toNat] = true →
      (h.loggedAccess x 0x20 = none → h.logWaits x.cmd x.outs = true →
        exec (.stateGet t w) s = .next (s.issued t (w.common 0x20) .wait)) ∧
      (h.loggedAccess x 0x20 = none → h.logWaits x.cmd x.outs = false →
        let r := g.readState (h.threadCaller x) (some t) a
        exec (.stateGet t w) s = .next (s.issued t (w.common 0x20) (.act ((r.1.logAccess x 0x20 r.2.1 r.2.2).accessDone t (some w.rd.toNat) r.2.1 r.2.2)))) ∧
      (∀ e, h.loggedAccess x 0x20 = some e → exec (.stateGet t w) s =
        .next (s.issued t (w.common 0x20) (.act (e.1.accessDone t (some w.rd.toNat) e.2.status e.2.result))))) ∧
    (s.head.takesEffect t (w.common 0x21) (w.rd = 0 && w.fn = 0) .O [w.ra.toNat, w.rb.toNat] = true → h.loggedAccess x 0x21 = none →
      (h.logWaits x.cmd x.outs = true → exec (.stateSet t w) s = .next (s.issued t (w.common 0x21) .wait)) ∧
      (h.logWaits x.cmd x.outs = false → g.setForbidden x a = true →
        exec (.stateSet t w) s = .next (s.issued t (w.common 0x21) (.act ((g.logAccess x 0x21 .invalid 0).accessDone t none .invalid 0)))) ∧
      (∀ k st, h.logWaits x.cmd x.outs = false → g.setForbidden x a = false → g.writeState (g.threadCaller x) (some t) a (x.reg w.rb.toNat) = .ok (k, st) →
        k.runs (islandOf t) = true → (st = .ok → g.deletion (g.threadCaller x) a (x.reg w.rb.toNat) = none) →
        (k.landed (g.sentSince k) = true →
          exec (.stateSet t w) s = .next (s.issued t (w.common 0x21) (.act ((k.logAccess x 0x21 st 0).accessDone t none st 0)))) ∧
        (k.landed (g.sentSince k) = false →
          exec (.stateSet t w) s = .next (s.issued t (w.common 0x21) (.act (k.awaitWrite t x .nothing (g.sentSince k))))))) ∧
    (∀ (c : Caller) (b : Nat),
      (4294967295 < b → s.head.readState c (some t) b = (s.head.auditAccess c b .invalid, .invalid, 0)) ∧
      (∀ d i, b ≤ 4294967295 → regOf (b % 2147483648) = some (d, i) → d.scope = .S → s.head.served d i = true →
        let side := if bit b 31 then 1 - c.side else c.side
        s.head.readState c (some t) b = (s.head.auditAccess c b .ok, .ok,
          if s.head.serves side then s.head.view c d i side else s.head.view c d i side &&& BitVec.ofNat 64 (keepMask d true))))

/-- The key table (R419, R421, R442): an enrolment record that passes its checks enrols its slot's key, or removes it with its sessions and windows; one that
fails is refused with the first status of R419.

Keys for pools and HMAC (R435, R436), digest contexts (R429), and the health window of an image (R441, R442). -/
def Obligations.Keys : Prop :=
  (∀ (s : State) (c : Caller) (v : Word) (b : List Byte), s.head.accepts c Reg.KEYENR.row 0 v = true → s.head.tabref c v 64 = some b →
     (s.head.keyCheck c.tier b = none → dword b 0 63 56 = 1 → exec (.keyEnrol c v) s = .next (s.wrote
       (s.head.setKey (dword b 0 55 48) (some ⟨(b.drop 16).take 32, c.slot⟩)) c Reg.KEYENR.row 0 .ok)) ∧
     (s.head.keyCheck c.tier b = none → dword b 0 63 56 = 2 → exec (.keyRemove c v) s = .next (s.wrote
       (s.head.removeKey (dword b 0 55 48)) c Reg.KEYENR.row 0 .ok)) ∧
     (∀ st, s.head.keyCheck c.tier b = some st → keyRefused c.tier b = false →
       exec (.keyEnrol c v) s = .next (s.wrote s.head c Reg.KEYENR.row 0 st) ∧
       exec (.keyRemove c v) s = .next (s.wrote s.head c Reg.KEYENR.row 0 st)) ∧
     (∀ n, 64 ≤ n → n ≤ 71 → dword b 0 63 56 = 2 → dword b 0 55 48 = n → dword b 0 47 0 = 0 → dword b 1 63 0 = 0 → dword b 6 63 0 = 0 →
       dword b 7 63 0 = 0 → ((b.drop 16).take 32).all (fun x => x = 0) = true → s.head.liveKeys 64 71 ≤ 1 →
       s.head.keyCheck .I b = some .invalid)) ∧
  (∀ (s : State) (c : Caller) (v : Word),
     (∀ b p, s.head.accepts c Reg.KEYIMP.row 0 v = true → c.tier ≠ .M → s.head.tabref c v 208 = some b → s.head.importOpen c.conn b = some p →
       let f := dword b 0
       f 63 32 = 0 → dword b 1 63 0 = 0 → leNat ((b.drop 60).take 4) = 0 →
       (∀ k st, f 7 0 = 1 → f 31 24 = 64 → s.head.importPool (f 15 8) (p.take 64) = .ok (k, st) →
         exec (.keyimpPoolKey c v) s = .next (s.wrote k c Reg.KEYIMP.row 0 st)) ∧
       (f 7 0 = 2 → 1 ≤ f 31 24 → f 31 24 ≤ 128 → f 15 8 ≤ 15 → f 23 16 ≤ 3 → exec (.keyimpHmacKey c v) s = .next (s.wrote
         (s.head.setHkey (f 15 8) (some ⟨f 31 24, f 23 16, p.take (f 31 24)⟩)) c Reg.KEYIMP.row 0 .ok)) ∧
       (f 7 0 = 3 → f 31 24 = 0 → f 15 8 ≤ 15 →
         exec (.keyimpErase c v) s = .next (s.wrote (s.head.setHkey (f 15 8) none) c Reg.KEYIMP.row 0 .ok))) ∧
     (∀ i, s.head.accepts c Reg.DGCTX.row i v = true → bits v.toNat 61 60 ≤ 1 → s.head.dgOwned i c.slot = false →
       let alg := bits v.toNat 61 60
       let ks := bits v.toNat 59 56
       let new := fun (st : List Byte) => s.head.setDgctx i { s.head.dgctx i with st := st, alg := alg, kslot := ks, owner := c.slot, bytes := 0 }
       (bits v.toNat 63 62 = 1 → exec (.dgctxHashInit c i v) s = .next (s.wrote (new (hashInit alg)) c Reg.DGCTX.row i .ok)) ∧
       (∀ k, look none s.head.keys.hkeys ks = some k → k.use ≤ c.tier.num → k.len ≤ blockOf alg →
         (bits v.toNat 63 62 = 2 → exec (.dgctxHmacInner c i v) s = .next (s.wrote (new (hmacInit alg 0x36 k.key)) c Reg.DGCTX.row i .ok)) ∧
         (bits v.toNat 63 62 = 3 → exec (.dgctxHmacOuter c i v) s = .next (s.wrote (new (hmacInit alg 0x5C k.key)) c Reg.DGCTX.row i .ok)))) ∧
     (s.head.keys.fw.conf = false → s.head.keys.fw.hleft ≠ 0 → s.head.pair.solo = false → s.head.pair.fence.peer ≠ .rejoining →
       exec .hwinExpire s = .next (s.become (s.head.pulseReset .watchdog))) ∧
     ((s.head.keys.fw.conf = true ∨ s.head.keys.fw.hleft = 0 ∨ s.head.pair.solo = true ∨ s.head.pair.fence.peer = .rejoining) →
       exec .hwinExpire s = .next s))

/-- Transfers of the SMBus port (R424, R436, R491 to R494): no acknowledge while MI is in reset, CHECK_FAIL for a wrong PEC; sessions, registers, the
recorder, each with its read part; a session that times out ends with its KEYX key.

Resets, images, the claim and boundary scan over SMBus (R68, R161, R417 to R420, R438, R491 to R493, R495, R496): what each needs, and what begins once
its read part is given. -/
def Obligations.SmbCommands : Prop :=
  (∀ (s : State),
     (s.head.runs 0 = false → ∀ pec n, exec (.smbStateGet pec n) s = .next (s.become (s.head.emit .smbNak).settle) ∧
       exec (.smbEventClear pec) s = .next (s.become (s.head.emit .smbNak).settle)) ∧
     (s.head.runs 0 = true → ∀ n v,
       exec (.smbStateGet false n) s = .next (s.become (s.head.readPart .checkFail []).settle) ∧
       exec (.smbStateSet false n v) s = .next (s.become (s.head.readPart .checkFail []).settle)) ∧
     (s.head.runs 0 = true →
       (∀ pay k st b, (s.head.smbHello pay = .ok (k, st, b) → exec (.smbSession true 1 pay) s = .next (s.become (k.readPart st b).settle)) ∧
         (s.head.smbProof pay = .ok (k, st, b) → exec (.smbSession true 3 pay) s = .next (s.become (k.readPart st b).settle))) ∧
       (∀ a, s.head.trimLocked = false → (s.head.smbSlot.isSome = true ∨ openRead a = true) →
         let r := s.head.readState s.head.smbCaller none a
         exec (.smbStateGet true a) s = .next (s.become (r.1.readPart r.2.1 (leBytes 8 r.2.2.toNat)).settle)) ∧
       (∀ a, s.head.smbSlot = none → openRead a = false →
         exec (.smbStateGet true a) s = .next (s.become (s.head.readPart .tier (leBytes 8 0)).settle)) ∧
       (∀ a v k st, s.head.smbSlot.isSome = true → s.head.trimLocked = false → s.head.writeState s.head.smbCaller none a v = .ok (k, st) →
         exec (.smbStateSet true a v) s = .next (s.become (k.readPart st []).settle)) ∧
       (∀ seq part e, s.head.trimLocked = false → part ≤ 1 → s.head.eventAt seq = some e →
         exec (.smbEventPart true seq part) s = .next (s.become
           (((s.head.setSmb { s.head.sys.smb with read := max s.head.sys.smb.read seq }).makerAudit 4 .ok).readPart .ok
             ((e.bytes.drop (32 * part)).take 32)).settle)) ∧
       (s.head.trimLocked = false → s.head.smbInstaller = true → s.head.smbMaker = false →
         let x := s.head.clearEvents (s.head.smbSlot.getD 255)
         exec (.smbEventClear true) s = .next (s.become ((x.1.smbAudit 0x16 .ok false).readPart .ok (leBytes 8 x.2)).settle))) ∧
     (let h := s.head.setSmb { s.head.sys.smb with sess := none, hello := none };
       exec .smbSessionTimeout s = .next (s.become { h with keys := { h.keys with keyx := place [] h.keys.keyx smbConn [] } })) ∧
     (s.head.alert = true → exec .smbAlertResponse s = .next (s.become
       ((s.head.setSmb { s.head.sys.smb with read := s.head.severeNew.foldl (fun m e => max m e.seq) 0 }).emit
         (.smb [BitVec.ofNat 8 (2 * s.head.smbAddress)])))) ∧
     (s.head.alert = false → exec .smbAlertResponse s = .next (s.become (s.head.emit .smbNak)))) ∧
  (∀ (s : State), s.head.runs 0 = true →
     (∀ scope n, s.head.trimLocked = false → s.head.smbInstaller = true → s.head.smbResetCheck scope n = .ok →
       exec (.smbReset true scope n) s = .next (s.become ((((s.head.smbAudit 0x18 .ok false).readPart .ok []).smbResetGo scope n).settle))) ∧
     (∀ scope n, s.head.smbInstaller = false →
       exec (.smbReset true scope n) s = .next (s.become ((s.head.smbAudit 0x18 .tier false).readPart .tier []).settle)) ∧
     (s.head.mayImage = true →
       (∀ off b, 1 ≤ b.length → b.length ≤ 240 → off + b.length ≤ 33554432 →
         let f := s.head.keys.fw
         let old := match f.slot f.other with | some x => x.bytes | none => []
         exec (.smbImageWrite true off b) s = .next (s.become
           (((s.head.setFw (f.setSlot f.other (some (slotOf (padOver old off b) false)))).makerAudit 7 .ok).readPart .ok []).settle)) ∧
       (∀ len, let f := s.head.keys.fw
         let b := fit 0 (min len 33554432) (match f.slot f.other with | some x => x.bytes | none => [])
         (∀ st, s.head.imageCheck b len = some st → st ≠ .ok →
           exec (.smbImageEnd true len) s = .next (s.become ((s.head.makerAudit 8 st).readPart st []).settle)) ∧
         (s.head.imageCheck b len = none →
           let conf := !((f.slot (1 - f.other)).any (fun x => s.head.imagePasses x.bytes))
           let g : Fw := { f.setSlot f.other (some (slotOf b true)) with inForce := some f.other, conf := conf, hleft := 0 }
           exec (.smbImageEnd true len) s = .next (s.become
             (((((s.head.setFw g).makerAudit 8 .ok).readPart .ok []).pulseReset .watchdog).settle))))) ∧
     (∀ b, s.head.trimLocked = false → s.head.noMaker = true → s.head.claimCheck b = none →
       exec (.claim true b) s = .next (s.become ((s.head.applyKey b 255).readPart .ok []).settle)) ∧
     (s.head.smbMaker = true →
       exec (.smbBscanEnter true) s = .next (s.become
         (let h := ((s.head.makerAudit 10 .ok).readPart .ok []).pulseReset .watchdog
          (h.setSmb { h.sys.smb with bscan := true }).settle)) ∧
       exec (.smbBscanLeave true) s = .next (s.become ((((s.head.makerAudit 10 .ok).readPart .ok []).pulseReset .watchdog).settle)) ∧
       (∀ n tms tdi, s.head.sys.smb.bscan = true → 1 ≤ n → n ≤ 1000 → tms.length = n → tdi.length = n →
         let x := s.head.tapClocks (List.zip tms tdi)
         exec (.smbTap true n tms tdi) s = .next (s.become ((x.1.makerAudit 11 .ok).readPart .ok (packBits x.2)).settle))) ∧
     (s.head.smbMaker = false → exec (.smbBscanEnter true) s = .next (s.become (s.head.readPart .tier []).settle)))

/-! ## Encodings -/

/-- Every word of a Twizon instruction decodes to that instruction, with its thread and checks as the command gives them (R28, R30 to R42): no bit of an
encoding is dropped. -/
def Obligations.EncodeDecode : Prop := ∀ i : Instr, Sys2Proof.Laws.Shape.Statement i

/-- Words written out bit by bit from Tables 2-2 to 2-12: OP, PN, PS, RD, RA, then RB, FN and IMM, or IMM48, or NO, VC, W and IMM. -/
def Obligations.SpelledWords : Prop :=
  -- ALU g3 := g1 + g2
  twDecode 5 .none 0b000001_0_000_00011_00001_00010_0000000_00000000000000000000000000000000#64 =
    some (.aluReg 5 ⟨false, false, 0, 3, 1, 2, 0, 0, none⟩) ∧
  -- LI g7 := −1 under not p2
  twDecode 5 .none 0b000011_1_010_00111_0_111111111111111111111111111111111111111111111111#64 =
    some (.li 5 ⟨false, true, 2, 7, false, 0xFFFFFFFFFFFF⟩) ∧
  -- BR two words back
  twDecode 5 .none 0b010000_0_000_00000_00000_00000_0000000_11111111111111111111111111111110#64 =
    some (.br 5 ⟨false, false, 0, 0, 0, 0, 0, 0xFFFFFFFE, none⟩) ∧
  -- QGET g9 from queue g4, SIG and WAITS share the opcode
  twDecode 5 .none 0b011000_0_000_01001_00100_00000_0000001_00000000000000000000000000000000#64 =
    some (.qget 5 ⟨false, false, 0, 9, 4, 0, 1, 0, none⟩) ∧
  -- IINV of g5 bytes at g6
  twDecode 5 .none 0b101000_0_000_00000_00110_00101_0000100_00000000000000000000000000000000#64 =
    some (.iinv 5 ⟨false, false, 0, 0, 6, 5, 4, 0, none⟩) ∧
  -- STATE.GET g2 := state[g0 + 0x04A00008]
  twDecode 5 .none 0b100000_0_000_00010_00000_00000_0000000_00000100101000000000000000001000#64 =
    some (.stateGet 5 ⟨false, false, 0, 2, 0, 0, 0, 0x04A00008, none⟩) ∧
  -- PUT with five operands from g10 on, waiting
  twDecode 5 .none 0b110000_0_000_00001_01010_101_00000001_1_00000000000000000000000000000000#64 =
    some (.put 5 ⟨false, false, 0, 1, 10, 5, true, 0, none⟩) ∧
  -- a word whose OP no instruction has, and a verb word whose VC no verb has: they raise ILLEGAL
  twDecode 5 .none 0b111111_0_000_00000_00000_00000_0000000_00000000000000000000000000000000#64 =
    some (.nop 5 ⟨false, false, 0, 0, 0, 0, 0, 0, some 0x3F⟩) ∧
  twDecode 5 .none 0b110000_0_000_00001_01010_101_01111111_1_00000000000000000000000000000000#64 =
    some (.put 5 ⟨false, false, 0, 1, 10, 5, true, 0, some 0x7F⟩)
end

