-- ==== Sys2Proof/Tests/Slice0.lean ====
section
/-! SUPPORT. Tests of the model: commands that nothing could send are refused by `wf`; words spelled from the encoding tables decode to the
instructions they stand for; and for each statement of Obligations.lean a state and operands that meet its premises. Where a premise asks
for the answer of a constant without a value (a signature, a tone amplitude, the place of the instruction region), the witness shows the
rest. -/

namespace Sys2Proof

open Sys2Proof.Machine

/-! ## Small states -/

/-- A head of which every island runs. -/
def Tests.up : Head := { Head.blank with sys := { Sys.blank with islands := List.replicate 22 { Island.blank with st := .running } } }

/-- Thread 5 of a head runs, as `f` has it. -/
def Tests.run5 (h : Head) (f : Thread → Thread) : State := ⟨[], h.setThread 5 (f { h.thread 5 with run := .running, tier := .F })⟩

/-- A firmware thread with general registers given, and a host program of 8 words. -/
def Tests.fw (g : Sparse Word) : State := Tests.run5 Tests.up (fun x => { x with g := g })
def Tests.host (g : Sparse Word) : State := Tests.run5 Tests.up (fun x => { x with tier := .O, buf := true, len := 8, g := g })

/-- A G word that always executes. -/
def Tests.gw (rd ra rb : BitVec 5) (fn : BitVec 7) (imm : BitVec 32) : GWord := ⟨false, false, 0, rd, ra, rb, fn, imm, none⟩

/-- A V word that always executes. -/
def Tests.vw (rd ra : BitVec 5) (no : BitVec 3) (w : Bool) (imm : BitVec 32) : VWord := ⟨false, false, 0, rd, ra, no, w, imm, none⟩

open Tests

/-! ## Commands that nothing could send -/

theorem test_wf_thread : (Instr.nop 776 (gw 0 0 0 0 0)).wf = false ∧ (Instr.nop 775 (gw 0 0 0 0 0)).wf = true := by decide
theorem test_wf_verb : (Instr.verbComplete 776 8).wf = false ∧ (Instr.verbComplete 775 8).wf = true := by decide
theorem test_wf_side : (Instr.entryAccept 2 0).wf = false ∧ (Instr.entryAccept 1 65536).wf = false ∧ (Instr.entryAccept 1 65535).wf = true := by
  decide
theorem test_wf_caller : (Instr.hpolWrite ⟨.I, 256, 0, none, 0, 0⟩ 0).wf = false ∧ (Instr.hpolWrite ⟨.I, 64, 2, none, 0, 0⟩ 0).wf = false ∧
    (Instr.hpolWrite ⟨.I, 64, 1, some 65536, 0, 0⟩ 0).wf = false ∧ (Instr.hpolWrite ⟨.I, 64, 1, some 3, 0, 0⟩ 0).wf = true := by decide
theorem test_wf_pause : (Instr.pauseRx 32 0).wf = false ∧ (Instr.pauseRx 31 65536).wf = false ∧ (Instr.pauseRx 31 65535).wf = true := by decide
theorem test_wf_island : (Instr.quiesceDone 22).wf = false ∧ (Instr.quiesceDone 21).wf = true := by decide

/-! ## Words -/

theorem test_word_add : twDecode 5 .none 0b000001_0_000_00011_00001_00010_0000000_00000000000000000000000000000000#64 =
    some (.aluReg 5 (gw 3 1 2 0 0)) := by decide
theorem test_word_st : twDecode 5 .none 0b001001_0_000_00000_00001_00010_0001011_00000000000000000000000000010000#64 =
    some (.st 5 (gw 0 1 2 0x0B 16)) := by decide
theorem test_word_end : twDecode 5 .none 0b010011_0_000_00000_00100_00000_0000000_00000000000000000000000000000000#64 =
    some (.endp 5 (gw 0 4 0 0 0)) := by decide
theorem test_word_waits : twDecode 5 .none 0b011000_0_000_00011_00000_00100_0001001_00000000000000000000000000000000#64 =
    some (.waits 5 (gw 3 0 4 9 0)) := by decide
theorem test_word_eret : twDecode 5 .none 0b101000_0_000_00000_00000_00000_0000000_00000000000000000000000000000000#64 =
    some (.eret 5 (gw 0 0 0 0 0)) := by decide
theorem test_word_state_set : twDecode 5 .none 0b100001_0_000_00000_00001_00010_0000000_00000000000000000000000000001000#64 =
    some (.stateSet 5 (gw 0 1 2 0 8)) := by decide
theorem test_word_get : twDecode 5 .none 0b110000_0_000_00001_01010_100_00000011_0_00000000000000000000000000000000#64 =
    some (.get 5 (vw 1 10 4 false 0)) := by decide
theorem test_word_unassigned_op : twDecode 5 .none 0b000111_0_000_00000_00000_00000_0000000_00000000000000000000000000000000#64 =
    some (.nop 5 { gw 0 0 0 0 0 with other := some 7 }) := by decide

/-! ## States and operands that meet the premises of the statements -/

theorem witness_StepTakesFront : ({ fw [] with pending := [.cadenceEpoch] } : State).pending = .cadenceEpoch :: [] ∧ (fw []).pending = [] := by
  decide

theorem witness_QueueOkKept : ({ fw [] with pending := [.li 5 ⟨false, false, 0, 1, false, 7⟩] } : State).queueOk = true ∧
    ((fw []).head.thread 5).run = .running := by decide

theorem witness_ComputingInstructions :
    let h := (host []).head
    h.steps 5 ((gw 31 1 2 0x14 0).common 0x01) (aluRegLegal (gw 31 1 2 0x14 0)) .O [31, 1, 2] = true ∧
    h.steps 5 ((gw 31 1 0 0x28 0x3F00).common 0x02) (aluImmLegal (gw 31 1 0 0x28 0x3F00)) .O [31, 1] = true ∧
    h.steps 5 ((gw 31 1 0 0x29 0x3F00).common 0x02) (aluImmLegal (gw 31 1 0 0x29 0x3F00)) .O [31, 1] = true ∧
    h.steps 5 ((⟨false, false, 0, 31, false, 0xFFFFFFFFFFFF⟩ : WWord).common 0x03) true .O [31] = true ∧
    h.steps 5 ((gw 31 0 0 0 0xFFFF).common 0x04) (bits (0xFFFF : BitVec 32).toNat 31 16 = 0) .O [31] = true ∧
    h.steps 5 ((gw 7 1 2 0x07 0).common 0x05) (cmpRegLegal (gw 7 1 2 0x07 0)) .O [1, 2] = true ∧
    h.steps 5 ((gw 7 1 0 0x07 0).common 0x06) (cmpImmLegal (gw 7 1 0 0x07 0)) .O [1] = true ∧
    h.steps 5 ((gw 0 0 0 0 0).common 0x16) (bare (gw 0 0 0 0 0) 0) .O [] = true ∧
    h.steps 5 ((gw 0 0 0 0 0).common 0x17) (bare (gw 0 0 0 0 0) 0) .O [] = true := by decide

theorem witness_GeneralRegisters : canon 0 ((fw [(3, 9)]).head.thread 5).g = true := by decide

theorem witness_ProgramCounter :
    let s := run5 up (fun x => { x with tier := .O, buf := true, len := 8, g := [(1, 64)] })
    (s.head.thread 5).buf = true ∧ (s.head.thread 5).outside 56 = false ∧ (s.head.thread 5).outside 64 = true ∧
    8 * (s.head.thread 5).len ≤ ((s.head.thread 5).pc + 8 * (8 : BitVec 32).signExtend 64).toNat ∧
    s.head.takesEffect 5 ((gw 0 0 0 0 8).common 0x10) true .O [] = true ∧
    8 * (s.head.thread 5).len ≤ ((s.head.thread 5).reg 1).toNat ∧ ((s.head.thread 5).reg 1).toNat % 8 = 0 := by decide

theorem witness_PrivateMemory :
    let s := host [(1, 4088)]
    let x := s.head.thread 5
    x.tier ≠ .F ∧ (effAddr x (gw 2 1 0 0x03 0)).toNat + accBytes (gw 2 1 0 0x03 0) ≤ 4096 ∧
    (effAddr x (gw 2 1 0 0x03 0)).toNat % accBytes (gw 2 1 0 0x03 0) = 0 ∧
    s.head.steps 5 ((gw 2 1 0 0x03 0).common 0x08) (ldLegal (gw 2 1 0 0x03 0)) .O [2, 1] = true ∧
    s.head.steps 5 ((gw 0 1 3 0x03 0).common 0x09) (stLegal (gw 0 1 3 0x03 0)) .O [1, 3] = true ∧
    (effAddr x (gw 2 1 3 0x40 0)).toNat + 8 ≤ 4096 ∧
    s.head.steps 5 ((gw 2 1 3 0x40 0).common 0x0A) (amoLegal (gw 2 1 3 0x40 0)) .O [2, 1, 3] = true := by decide

theorem witness_FirmwareMemory :
    let s := fw [(1, 0x1FFFFF8)]
    let w := gw 0 1 3 0x0B 0
    (s.head.thread 5).tier = .F ∧ w.fn.getLsbD 3 = true ∧ (effAddr (s.head.thread 5) w).toNat + accBytes w ≤ 0x2000000 ∧
    look false s.head.core.scrP ((effAddr (s.head.thread 5) w).toNat / 8) = false ∧
    look 0 s.head.core.chk (chkKey 1 ((effAddr (s.head.thread 5) w).toNat / 8)) = 0 ∧ Memory.wf s.head.core.scr = true ∧
    s.head.steps 5 (w.common 0x09) (stLegal w) .O [1, 3] = true ∧
    s.head.steps 5 ((gw 2 1 0 0x0B 0).common 0x08) (ldLegal (gw 2 1 0 0x0B 0)) .O [2, 1] = true := by decide

/-- The instruction region lies at one place: one of these two areas is outside it. -/
theorem witness_hbm : hbmOk 0x1000 4096 = true ∨ hbmOk 0x20001000 4096 = true := by
  have e : hbmLimit = 0x1800000000 := rfl
  simp only [hbmOk, inInstr, e, Bool.and_eq_true, Bool.not_eq_true', Bool.and_eq_false_iff, decide_eq_true_eq, decide_eq_false_iff_not]
  omega
theorem witness_hbm_line : inInstr 0x1000 64 = false ∨ inInstr 0x20001000 64 = false := by
  simp only [inInstr, Bool.and_eq_false_iff, decide_eq_false_iff_not]; omega

/-- A firmware thread, and a head whose HBM holds a byte 1 at each of two addresses. -/
def Tests.marked (d : Word) : State :=
  run5 { up with core := { up.core with hbm := [(0x1008, 1), (0x20001008, 1)] } } (fun x => { x with g := [(1, 770), (3, d)] })

/-- At either address all premises but the place of the region hold (witness_hbm_line). -/
theorem witness_FirmwareMemory_hbm :
    let s := fw [(1, 0x20001000)]
    let n := 0x20001000 / 64
    s.head.l1d (engineOf 5) = false ∧ s.head.l2on (pelotonOf (engineOf 5)) = false ∧ s.head.newest n = none ∧ s.head.evicting n = false ∧
    cached (s.head.l2 (pelotonOf (engineOf 5))).lines n = none ∧ (effAddr (s.head.thread 5) (gw 2 1 3 0x40 0)).toNat = 64 * n ∧
    (∀ i, i < 8 → look false s.head.core.hbmP (8 * n + i) = false ∧ look 0 s.head.core.chk (chkKey 4 (8 * n + i)) = 0) ∧
    Memory.wf s.head.core.hbm = true ∧ s.head.steps 5 ((gw 2 1 3 0x40 0).common 0x0A) (amoLegal (gw 2 1 3 0x40 0)) .O [2, 1, 3] = true := by
  decide

theorem witness_Branches :
    let s := host [(1, 56), (2, 60), (3, 64)]
    s.head.goesOn 5 ((gw 0 0 0 0 7).common 0x10) true .O [] 56 = true ∧ s.head.goesOn 5 ((gw 4 0 0 0 7).common 0x11) true .O [4] 56 = true ∧
    s.head.goesOn 5 ((gw 0 1 0 0 0).common 0x12) true .O [1] ((s.head.thread 5).reg 1) = true ∧
    ((s.head.thread 5).reg 2).toNat % 8 ≠ 0 ∧ (s.head.thread 5).outside ((s.head.thread 5).reg 3) = true := by decide

theorem witness_FencesAndEnds :
    let s := host [(4, 7)]
    ((s.head.fetched 5).drainWt (engineOf 5)).isSome = true ∧ (s.head.thread 5).verbsDone = true ∧
    s.head.takesEffect 5 ((gw 0 0 0 0 0).common 0x14) (bare (gw 0 0 0 0 0) 0) .O [] = true ∧
    ((run5 up (fun x => { x with verbs := [⟨1, 3, 2, none, false⟩] })).head.thread 5).verbsDone = false := by decide

theorem witness_TrapsAndReturns :
    let s := run5 up (fun x => { x with xw := 3, tvec := 0x400 })
    bit (s.head.thread 5).tcause.toNat 17 = false ∧ (s.head.thread 5).xw.getLsbD 0 = true ∧
    s.head.takesEffect 5 ((gw 0 0 0 0 255).common 0x15) true .O [] = true ∧
    s.head.goesOn 5 ((gw 0 0 0 0 0).common 0x28) (bare (gw 0 0 0 0 0) 0x00) .F [] (s.head.thread 5).tpc = true := by decide

theorem witness_TrapOrder : (fw []).head.canIssue 5 = true := by decide

theorem witness_QueueInstructions :
    let s := fw [(1, 4079), (2, 5)]
    let e := run5 { up with core := { up.core with hwq := [(4079, [7])] } } (fun x => { x with g := [(1, 4079)] })
    queueOf (s.head.thread 5) (gw 0 1 2 0 0) = 4079 ∧ s.head.hwq 4079 = [] ∧ e.head.hwq 4079 = 7 :: [] ∧
    s.head.takesEffect 5 ((gw 0 1 2 0 0).common 0x18) true .F [1, 2] = true ∧
    s.head.takesEffect 5 ((gw 3 1 0 2 0).common 0x18) true .F [3, 1] = true ∧
    4080 ≤ queueOf ((fw [(1, 4095)]).head.thread 5) (gw 0 1 2 0 0) ∧ queueOf ((fw [(1, 4095)]).head.thread 5) (gw 0 1 2 0 0) < 4096 := by decide

theorem witness_ThreadControl :
    let s := run5 up (fun x => { x with sigs := 1, g := [(1, 775), (2, 1), (3, 4096)] })
    ((s.head.thread 5).reg 1).toNat < 776 ∧ s.head.takesEffect 5 ((gw 0 1 0 8 63).common 0x18) true .F [1] = true ∧
    (s.head.thread 5).sigs &&& (s.head.thread 5).reg 2 ≠ 0 ∧ s.head.steps 5 ((gw 4 0 2 9 0).common 0x18) true .F [4, 2] = true ∧
    s.head.takesEffect 5 ((gw 0 0 0 8 0).common 0x28) (bare (gw 0 0 0 8 0) 8) .F [] = true ∧
    s.head.takesEffect 5 ((gw 0 1 3 10 3).common 0x28) true .F [1, 3] = true ∧ s.head.startable 775 = true := by decide

theorem witness_ThreadControl_dispatch :
    (marked 0x1000).head.takesEffect 5 ((gw 0 1 3 10 3).common 0x28) true .F [1, 3] = true ∧
    dispatchOut (((marked 0x1000).head.fetched 5).current (pelotonOf (engineOf 5)) (0x1000 / 64)) 770 (tierOf 3) = false ∧
    (marked 0x20001000).head.takesEffect 5 ((gw 0 1 3 10 3).common 0x28) true .F [1, 3] = true ∧
    dispatchOut (((marked 0x20001000).head.fetched 5).current (pelotonOf (engineOf 5)) (0x20001000 / 64)) 770 (tierOf 3) = false := by decide

theorem witness_CacheOperations :
    let s := fw [(1, 0x17FFFFFFC0), (2, 64), (3, 65)]
    ((s.head.thread 5).reg 1).toNat + ((s.head.thread 5).reg 2).toNat ≤ 0x1800000000 ∧
    0x1800000000 < ((s.head.thread 5).reg 1).toNat + ((s.head.thread 5).reg 3).toNat ∧
    s.head.takesEffect 5 ((gw 0 1 2 3 3).common 0x28) true .F [1, 2] = true ∧
    s.head.takesEffect 5 ((gw 0 1 2 4 0).common 0x28) true .F [1, 2] = true := by decide


/-! ### Verbs -/

/-- Registers g1, g2 … hold the values of a list. -/
def Tests.regs (l : List Word) : Sparse Word := (upto l.length).map (fun k => (k + 1, nth 0 l k))

/-- Firmware about to issue a verb with the operands of a list, on a head as `h` has it. -/
def Tests.asks (h : Head) (l : List Word) : State := run5 h (fun x => { x with g := regs l })

/-- Its verb word. -/
def Tests.word (no : BitVec 3) (imm : BitVec 32) : VWord := vw 20 (if no = 0 then 0 else 1) no false imm

/-- A command under way on thread 5, tier O, ordered, with 32 bytes inline. -/
def Tests.cmd : Cmd :=
  { side := 0, seq := 1, origin := 0, queue := 8, tag := 0, stream := 0, ord := true, con := false, quiet := false, contract := 0, cred := 3
    conn := 1, cls := 0, prog := [], inl := List.replicate 32 0, regs := [], pages := [], thread := some 5, ended := false, phase := .accepted
    passed := false, log := [], replay := [], vs := 0, result := 0, aux := 0, pmap := false, tko := false, accAt := 0, bound := none
    conform := true, allow := none, mute := false, cover := [], markQ := 0, markS := 0, marksQ := 0, marksS := 0, wrote := false, again := false, await := false, srcs := [], returned := false
    issued := 0, cp := false }

/-- The same thread, running that command. -/
def Tests.orders (h : Head) (l : List Word) (b : List Byte := List.replicate 32 0) : State :=
  run5 { h with work := { h.work with cmds := [{ cmd with inl := b }] } } (fun x => { x with cmd := some (0, 1), g := regs l })

/-- A volume without writes, and one with a snapshot. -/
def Tests.vol : Volume :=
  { num := 2, pool := 1, home := 0, vend := 0, vepoch := 1, group := 0, writes := [], snaps := [], parent := none, map := [], emap := []
    deleting := false, delFence := [], fixed := [] }

/-- An inbound window of 4,096 bytes on side 0. -/
def Tests.win : Window :=
  { side := 0, idx := 3, salt := 0, gen := 1, size := 4096, out := false, strict := false, recycle := false, unmir := false, rgen := 0, rkey := 0
    slot := 3, conn := 0, state := .opened, pages := [], placed := [], msgEnd := none, sealAt := 0, retired := none, armed := none, users := []
    waitAdv := false, revBy := none, olds := [] }

def Tests.stored : Head := { up with vols := { up.vols with vols := [vol] }, net := { up.net with windows := [win] } }

theorem witness_OutstandingVerbs :
    let s := run5 up (fun x => { x with verbs := [⟨1, 3, 2, some (.ok 9), false⟩] })
    (s.head.thread 5).verbs[0]? = some ⟨1, 3, 2, some (.ok 9), false⟩ ∧ (s.head.thread 5).run ≠ .waitVerb 1 ∧ s.head.canIssue 5 = true := by
  decide

theorem witness_EffectVerbsStart :
    let s := asks up [2, 0, 0]
    let o := orders up []
    s.head.verbStarts 5 0x06 0 [3] (word 3 0) = true ∧ s.head.verbStarts 5 0x07 0 [1] (word 1 0) = true ∧
    s.head.verbStarts 5 0x08 1 [1] (word 1 1) = true ∧ s.head.verbStarts 5 0x0A 3 [2] (word 2 2) = true ∧
    s.head.verbStarts 5 0x0E 0 [2] (word 2 0) = true ∧ s.head.verbStarts 5 0x16 0 [0] (word 0 0) = true ∧
    s.head.verbStarts 5 0x1C 0 [0] (word 0 0) = true ∧
    o.head.verbStarts 5 0x04 1 [0] (word 0 1) = true ∧ o.head.verbStarts 5 0x05 1 [0] (word 0 1) = true ∧
    (o.verbHead 5 0x04 (word 0 1)).caller (o.verbNew 5 0x04 (word 0 1)) = some { cmd with issued := 1 } := by decide +kernel

theorem witness_EffectsAtCommit :
    let h := { stored with vols := { up.vols with vols := [{ vol with snaps := [⟨1, 0, 0, true, [], none⟩], vepoch := 2 }] } }
    let v := fun (vc : Nat) (l : List Word) =>
      ({ vid := 1, vc := vc, t := 5, cmd := none, ops := l, imm := 0, ans := none, tag := none, aw := .effect, past := false, codeC := false
         op := none, res := .ok 0, k := 0 } : HVerb)
    h.verbMay (v 0x06 [2, 0, 0]) = true ∧ ((h.effect (v 0x06 [2, 0, 0])).map (fun e => e.passes)) = some true ∧
    (h.effect (v 0x0C [0])).map (fun e => e.passes) = some false ∧
    h.handle (mkHandle 2 false 1) = [(2, 1)] ∧ h.vol 7 = none ∧ cloneDepth 9 h.vols.vols 2 + 1 ≤ 8 ∧
    h.volFor (v 0x06 [2, 0, 0]) 2 ≠ none ∧ pastEnd (2 ^ 50) 0 = true ∧ pastEnd (2 ^ 50 - 1) 1 = false ∧
    h.window (h.vside (v 0x0C [0])) win.key = some win ∧ mayWindow (h.vslot (v 0x0C [0])) win = true := by decide +kernel

theorem witness_WriteVerbs :
    let s := orders stored [2, 0, 0, 32]
    let n := s.verbNew 5 0x01 (word 4 1)
    let h := s.verbHead 5 0x01 (word 4 1)
    s.head.verbStarts 5 0x01 1 [4] (word 4 1) = true ∧ (h.volFor n (n.arg 0)).isSome = true ∧ pastEnd (n.arg 1) (n.arg 3) = false ∧
    s.head.verbIssues 5 1 (word 4 1) = true ∧ h.fromLog n = none ∧ (h.setVerbs [{ n with vid := 99, past := true }]).resumeVerb n ≠ none ∧
    h.atomOf n 2 32 = none ∧
    (h.writeSource n (nth 0 n.ops 2) (n.arg 3)).isOk = true ∧ h.atomsFull = false ∧
    { h with pair := { h.pair with serve := Two.both true }, vols := { h.vols with atoms := List.replicate 64 ⟨0, 1, 1, 2, 0, 0, .opened, 0, 0⟩ } }.atomsFull = true ∧
    (orders stored [2, 0, 32]).head.verbStarts 5 0x02 1 [3] (word 3 0) = true := by decide +kernel

theorem witness_ReadVerbs :
    let s := asks stored [2, 0, 0, 0]
    let n := s.verbNew 5 0x03 (word 4 0)
    let h := s.verbHead 5 0x03 (word 4 0)
    s.head.verbStarts 5 0x03 0 [4, 5] (word 4 0) = true ∧ (h.volFor n (n.arg 0)).isSome = true ∧ n.arg 3 = 0 ∧
    (asks up [1, 0, 0, 0]).head.verbStarts 5 0x14 1 [4] (word 4 0) = true ∧
    (asks up [0, 0, 0]).head.verbStarts 5 0x15 0 [3] (word 3 0) = true := by decide +kernel


/-- A pair both of whose heads hold a confirmed image and a staged one. -/
def Tests.staged : Head :=
  { up with
    keys := { up.keys with fw := { up.keys.fw with a := some ⟨1, 1, 1, 1, [], false, false⟩, b := some ⟨2, 1, 1, 1, [], true, false⟩, inForce := some 0
                                                   peerStaged := some 2 } }
    pair := { up.pair with link := { up.pair.link with state := .up }, fence := { up.pair.fence with peer := .inService } } }

/-- A port that takes jobs: its link runs, a cartridge with a label is there. -/
def Tests.taping : Head :=
  { stored with
    vols := { up.vols with vols := [{ vol with snaps := [⟨1, 0, 0, true, [], none⟩], vepoch := 2 }] }
    tape := { up.tape with ports := { up.tape.ports with s0 := { Port.blank with
      link := { Port.blank.link with state := .run }, state := .stopped, status := 1#64 <<< 59 } } } }

theorem witness_JobVerbs :
    let q := orders up [9]
    let r := orders up [2, 65535]
    let i := orders up [1, 3]
    let d := orders { stored with keys := { stored.keys with dg := [(1, { DgCtx.blank with owner := 3 })] } } [0, 1]
      (leBytes 8 (mkRef 3 1).toNat ++ leBytes 8 128)
    q.head.verbStarts 5 0x17 0 [1] (word 1 0) = true ∧ (q.verbHead 5 0x17 (word 1 0)).ownQueue (q.verbNew 5 0x17 (word 1 0)) 9 = false ∧
    r.head.verbStarts 5 0x18 0 [2] (word 2 0) = true ∧ i.head.verbStarts 5 0x18 0 [2] (word 2 0) = true ∧
    (i.verbHead 5 0x18 (word 2 0)).islandRefused 3 = false ∧ (i.verbHead 5 0x18 (word 2 0)).pair.handoff = none ∧
    (i.verbNew 5 0x18 (word 2 0)).cmd = some (0, 1) ∧
    d.head.verbStarts 5 0x12 15 [2] (word 2 1) = true ∧ (d.verbHead 5 0x12 (word 2 1)).vslot (d.verbNew 5 0x12 (word 2 1)) = 3 ∧
    ((d.verbHead 5 0x12 (word 2 1)).digestList (d.verbNew 5 0x12 (word 2 1)) 16).isOk = true ∧
    ((d.verbHead 5 0x12 (word 2 1)).digestInto 1 (gather ((d.verbHead 5 0x12 (word 2 1)).digestFrag (d.verbNew 5 0x12 (word 2 1)) true)
      (leBytes 8 (mkRef 3 1).toNat ++ leBytes 8 128) 1)).isOk = true ∧
    (asks stored [mkRef 3 1, mkRef 3 1]).head.verbStarts 5 0x13 0 [2] (word 2 0) = true := by decide +kernel

theorem witness_JobVerbs_tape :
    let s := asks taping [mkHandle 2 false 1, 0, mkRef 3 1]
    let h := s.verbHead 5 0x10 (word 3 0)
    let v := s.verbNew 5 0x10 (word 3 0)
    let r := asks taping [0, 2, mkRef 3 1]
    s.head.verbStarts 5 0x10 0 [3] (word 3 0) = true ∧ (h.attachJob 0 v true).isNone = true ∧
    h.source (h.vside v) (h.vreplay v) (mkRef 3 1) 64 = .ok (List.replicate 64 0, false) ∧ h.handle (mkHandle 2 false 1) ≠ [] ∧
    h.portTakes 0 0 true = true ∧ h.snapRanges (h.handle (mkHandle 2 false 1)) = [] ∧
    r.head.verbStarts 5 0x11 0 [3] (word 3 0) = true ∧ h.portTakes 0 0 false = true ∧ h.work.readMostly = false := by decide +kernel

theorem witness_JobVerbs_activate :
    let s := asks staged []
    let h := s.verbHead 5 0x1B (word 0 0)
    s.head.verbStarts 5 0x1B 0 [0] (word 0 0) = true ∧ h.whole = true ∧ h.bothStaged = true ∧ h.keys.fw.conf = true ∧
    h.keys.fw.peerConf = true ∧ h.side = 0 := by decide +kernel


/-- The premises of the unit verbs' statement beside the place of the instruction region, for operands in the page at an address. -/
def Tests.unitOk (a : Nat) : Bool :=
  let w : Word := BitVec.ofNat 64 a
  let c := asks up [w, 1, w, 1]
  let s4 := asks up [w, 16, w, 32]
  let e := asks { up with core := { up.core with hbm := [] } } [w, w, 4096]
  c.head.unitStarts 5 0x80 0 [4] (word 4 0) &&
  decide (((c.verbHead 5 0x80 (word 4 0)).red.gear.cut ((c.verbHead 5 0x80 (word 4 0)).unitRead false a 1).1).length ≤ 1) &&
  s4.head.unitStarts 5 0x81 0 [3] (word 3 0) && !((s4.verbHead 5 0x81 (word 3 0)).unitRead false a 16).2 &&
  (asks up [1, w, 16, w, 32]).head.unitStarts 5 0x82 0x3FF [5] (word 5 0) && (asks up [1, w, 16, w, 32]).head.unitStarts 5 0x83 7 [5] (word 5 1) &&
  (asks up [w]).head.unitStarts 5 0x86 0 (upto 32) (word 1 0) && (asks up []).head.unitStarts 5 0x8A 0 (upto 32) (word 0 0) &&
  (asks up [w]).head.unitStarts 5 0x8B 0 (upto 32) (word 1 0) &&
  (asks up [w, 0]).head.unitStarts 5 0x87 15 [2] (word 2 15) && s4.head.unitStarts 5 0x88 0 [3] (word 3 0) &&
  s4.head.unitStarts 5 0x89 0 [4] (word 4 0) && (asks up [w, w, 64]).head.unitStarts 5 0x8C 0 [3] (word 3 0) && decide (a < 2 ^ 37) &&
  e.head.unitStarts 5 0x84 0xFF [3] (word 3 0x21) && ecLen 4096 && ecLen 98304 && !(ecLen 4095) && !(ecLen 98305) &&
  (asks up [w, 0, 4096, w]).head.unitStarts 5 0x85 0xFF [4] (word 4 0x21)

theorem witness_UnitVerbs : ∃ a, hbmOk a 4096 = true ∧ unitOk a = true := by
  rcases witness_hbm with h | h
  · exact ⟨_, h, by decide +kernel⟩
  · exact ⟨_, h, by decide +kernel⟩

/-! ### Queues, fabric -/

/-- A head that serves side 0 under address 10.0.0.1, with queue 9 of credential slot 3, and connection 1 with a session. -/
def Tests.conn : Conn :=
  { num := 1, side := 0, addr := mapped4 5, far := 7, isn := 0, isnFar := 0, dport := 0, state := .opened, init := false, maxpay := 4096, tclass := 0, evsub := true
    slot := some 3, txNext := 0, unacked := [⟨9, 0, 0, 0, .keepalive, true⟩], cum := 0, recv := [], ackCnt := 1, ackAt := 0, newest := (0, 0, 0)
    rate := ⟨100, [], 0, 0, 0, 0⟩, held := [], strict := [], once := [], openAt := 0, lastRx := 0, lastTx := 0, progAt := 0, tries := 0
    closeWith := 0, firedAt := 0 }
def Tests.net : Head :=
  let h := { up with pair := { up.pair with serve := ⟨true, false⟩ }, vols := { up.vols with vols := [vol] }
                     net := { up.net with addrs := ⟨true, false⟩, conns := [conn], windows := [win] } }
  (h.store 0 .HADDR4 0 0x0A000001).store 0 .QCFG 9 0xC003000000000000

/-- An entry whose program is one END. -/
def Tests.entry : Entry := ⟨9 <<< 16, (3 <<< 40) + 1, 0, 0, leBytes 8 0x4C00040000000000 ++ List.replicate 88 0⟩

/-- A frame that carries a CPT packet from 0.0.0.5 to 10.0.0.1 (Table 5-1): Ethernet II, IPv4, UDP without a checksum, the packet, FCS. -/
def Tests.frame (packet : List Byte) : List Byte :=
  let ip := [0x45, 0] ++ Sha.beBytes 2 (28 + packet.length) ++ [0, 0, 0x40, 0, 64, 17]
  let adr : List Byte := [0, 0, 0, 5, 10, 0, 0, 1]
  let f := List.replicate 12 0 ++ [0x08, 0x00] ++ ip ++ Sha.beBytes 2 (0xFFFF - fold16 (sum16 (ip ++ adr))) ++ adr ++
    Sha.beBytes 2 50000 ++ Sha.beBytes 2 6416 ++ Sha.beBytes 2 (8 + packet.length) ++ [0, 0] ++ packet
  f ++ leBytes 4 (crc32 f)

/-- A packet as received: connection, PSN, what it carries. -/
def Tests.rx (n psn : Nat) (m : CptMsg) : Rx := ⟨100, frame (cptPacket n psn 0 false false m)⟩

/-- The header of the last-flag packet of Table 5-20, byte by byte. -/
theorem test_table_5_20 :
    (cptPacket 0x0A400123 0x3A2C91F0 0x01527F40 true false (.write 0x9C413A17 5 0x0BDD6000 (List.replicate 8192 0) true)).take 32 =
      [0x11, 0xC0, 0x20, 0x00, 0x0A, 0x40, 0x01, 0x23, 0x3A, 0x2C, 0x91, 0xF0, 0x01, 0x52, 0x7F, 0x40,
       0x9C, 0x41, 0x3A, 0x17, 0x00, 0x05, 0x00, 0x00, 0x00, 0x00, 0x00, 0x00, 0x0B, 0xDD, 0x60, 0x00] := by decide +kernel

/-- A received frame says what was sent; a byte of it changed fails CHK or the frame check. -/
theorem test_rx_parses :
    let k := (rx 1 1 (.write 3 1 4095 [7] true)).pkt
    k.frame = ⟨true, 83, 0, 0x0800, true, mapped4 0x0A000001, 6416, true, 1, true, true, true⟩ ∧
    (k.src, k.sport, k.dconn, k.psn, k.typ) = (mapped4 5, 50000, 1, 1, 1) ∧
    (k.last, k.th 0 4, k.th 4 2, k.th 8 8, k.pay) = (true, 3, 1, 4095, [7]) ∧
    (Rx.pkt ⟨0, frame ((cptPacket 1 1 0 false false (.close 0)).set 16 1)⟩).frame.chkOk = false ∧
    (Rx.pkt ⟨0, (frame (cptPacket 1 1 0 false false (.close 0))).set 60 1⟩).frame.fcsOk = false ∧
    Rx.fits (rx 1 1 (.close 0)) (fun k => k.typ = 1) = false := by decide +kernel

theorem witness_QueueEvents :
    let s : State := ⟨[], net.setQueue 0 9 { net.queue 0 9 with slots := [(0, (entry, 1))] }⟩
    let x := (s.head.updQueue 0 9 Queue.moved).queue 0 9
    let r := net.setQueue 0 9 { net.queue 0 9 with slots := [(0, (entry, 1))], rst := true, conn := some 1, said := 5 }
    (s.head.queue 0 9).first = some (entry, 1) ∧ (s.head.queue 0 9).rst = false ∧ s.head.acceptHeld 0 9 = false ∧ s.head.entryWaits entry = false ∧
    { s.head with work := { s.head.work with spent := [0, 0, 0, 1000000] } }.entryWaits entry = true ∧ x.qnext = 1 ∧
    s.head.checkEntry 0 9 entry true none = .ok [] ∧ (s.head.checkRun entry []).isOk = true ∧
    s.head.checkEntry 0 9 entry false none = .error .tier ∧
    (r.queue 0 9).first = some (entry, 1) ∧ (r.queue 0 9).rst = true ∧ (r.queue 0 9).fence = false ∧ r.working = true ∧
    r.fenceWaits 0 9 = false ∧ (r.queue 0 9).conn = some 1 ∧ (r.queue 0 9).said ≠ (r.queue 0 9).qnext ∧
    net.serves 0 = true ∧ net.cfgS 0 .QCFG 9 62 62 = 1 ∧ (net.store 0 .QIDLE 9 7).cfgS 0 .QIDLE 9 31 0 ≠ 0 ∧
    (net.queue 0 9).slots = [] ∧ net.inflight 0 9 = [] := by decide +kernel

theorem witness_ReceiveChecks :
    let h := net
    let k := (rx 1 1 .keepalive).pkt
    h.listens = true ∧ (h.seen 100).frameFails k.frame = none ∧ ((h.seen 100).addrSide k.frame.dst).isSome = true ∧
    (h.seen 100).frameFails { k.frame with length := 9217 } = some 0 ∧ (h.seen 100).frameFails { k.frame with tags := 2 } = some 0 ∧
    (h.seen 100).frameFails { k.frame with dst := 1 } = some 1 ∧ (h.seen 100).frameFails { k.frame with udpPort := 1 } = some 2 ∧
    (h.seen 100).frameFails { k.frame with ver := 2 } = some 3 ∧ h.net.conns.all (fun c => c.num ≠ 2) = true := by decide +kernel

theorem witness_WritesArePlaced :
    let h := net
    let k := (rx 1 1 (.write 3 1 4095 [7] false)).pkt
    let g := (h.heard k conn).marked k conn
    let late := { conn with held := [⟨0, 3, 1, 0, [7], true⟩], strict := [⟨0, 3, 1, 0, [7], false⟩] }
    (h.seen k.arr).frameFails k.frame = none ∧ (h.seen k.arr).connOf k = some conn ∧ k.typ = 1 ∧ k.pay.length ≤ conn.maxpay ∧
    conn.isNew k = true ∧ (h.heard k conn).strictFull conn k 3 = false ∧ g.spilling = false ∧
    (g.placeCheck conn k.heldWrite).isOk = true ∧ (g.placeCheck conn { k.heldWrite with bytes := [7, 7] }).isOk = false ∧ g.placeHeld 0 = false ∧
    conn.ready 0 = true ∧ conn.ready 1 = false ∧ late.behind 0 = false ∧ late.behind 1 = true ∧
    late.held.find? (fun q => q.psn = 0) = some ⟨0, 3, 1, 0, [7], true⟩ ∧ late.strict.find? (fun q => q.psn = 0) = some ⟨0, 3, 1, 0, [7], false⟩ ∧
    (h.window 0 3).isSome = true ∧ win.takes 1 = true ∧ win.takes 2 = false := by decide +kernel

theorem witness_PacketsHeard :
    let k := (rx 1 1 (.submit 9 0 [])).pkt
    net.listens = true ∧ (net.seen k.arr).frameFails k.frame = none ∧ (net.seen k.arr).connOf k = some conn ∧ k.typ = 2 ∧ k.th 0 2 = 9 ∧ k.th 2 1 = 0 ∧
    conn.isNew k = true ∧ ((net.heard k conn).marked k conn).mayUse 0 9 3 = true ∧ ((net.heard k conn).marked k conn).mayUse 0 9 4 = false := by decide +kernel

/-- Packets of each other TYPE and kind meet the premises as well: what the checks and the connection ask of them. -/
theorem witness_PacketKinds :
    let good := fun (m : CptMsg) (typ : Nat) => let k := (rx 1 1 m).pkt; (net.seen k.arr).frameFails k.frame = none && k.typ = typ && (net.seen k.arr).connOf k = some conn
    good (.ack 0 0 0 [(1, 2)]) 4 = true ∧ good .keepalive 9 = true ∧ good (.close 0) 6 = true ∧ good (.event 6 9 0) 7 = true ∧
    good (.submit 9 0 [List.replicate 128 0]) 2 = true ∧ good (.complete 9 0 [⟨0, 0, 0, 0⟩]) 3 = true ∧
    (rx 1 1 (.session 1 (List.replicate 40 0))).pkt.sessionStep = 1 ∧ (rx 1 1 (.session 2 (List.replicate 128 0))).pkt.sessionStep = 2 ∧
    (rx 1 1 (.session 3 (List.replicate 64 0))).pkt.sessionStep = 3 ∧ (rx 1 1 (.session 4 (List.replicate 8 0))).pkt.sessionStep = 4 := by decide +kernel

theorem witness_ConnectionsAndSessions :
    let k := (rx 0 0 (.connect 8 1 0 1024 (connFlags false false false true 3) 0)).pkt
    let k' := (rx 1 0 (.connect 8 1 0 1024 (connFlags true false false false 0) 0)).pkt
    let u := (rx 7 0 (.close 3)).pkt
    let m := (rx 1 1 (.session 1 (3 :: List.replicate 39 0))).pkt
    let c := { conn with slot := none }
    let h := { net with net := { net.net with conns := [c], hellos := [⟨some 1, 5, 3, List.replicate 32 0, List.replicate 32 0⟩] } }
    let i := { conn with init := true, state := .opening }
    let g := (h.heard m c).marked m c
    net.listens = true ∧ (net.seen k.arr).frameFails k.frame = none ∧ (net.seen k.arr).addrSide k.frame.dst = some 0 ∧ k.typ = 5 ∧ k.dconn = 0 ∧
    bit (k.th 14 1) 7 = false ∧ bit (k'.th 14 1) 7 = true ∧ bit (k'.th 14 1) 6 = false ∧ maxpayOk (k.th 12 2) = true ∧ maxpayOk 8192 = true ∧
    (net.seen k.arr).net.conns.find? (fun c => c.state = .opened && c.addr = k.src && c.far = k.th 0 4 && c.isnFar = k.th 4 4) = none ∧
    i.init = true ∧ i.state = .opening ∧ u.typ = 6 ∧ u.th 0 1 = 3 ∧
    (net.seen u.arr).net.conns.find? (fun c => c.far = u.dconn && c.addr = u.src) = some conn ∧
    c.isNew m = true ∧ g.proofsFull = false ∧
    (g.countProof.net.hellos.find? (fun x => x.conn = some 1)).isSome = true := by decide +kernel

theorem witness_ConnectionTimers :
    net.conn 1 = some conn ∧ 0 < conn.ackCnt ∧ conn.unacked.find? (fun q => q.psn = 9 && q.out) = some ⟨9, 0, 0, 0, .keepalive, true⟩ ∧
    ({ net with now := 100000000 } : Head).now ≤ 0 + 100000000 ∧ 0 + 100000000 < ({ net with now := 100000001 } : Head).now := by decide +kernel

theorem witness_LinksAndWindows :
    let h := { net with net := { net.net with up := 1, windows := [{ win with waitAdv := true, state := .sealed, users := [(0, 9)] }, { win with idx := 4, state := .revoking, slot := 4, revBy := some 1 }] } }
    net.listens = true ∧ (net.addrSide (mapped4 0x0A000001)).isSome = true ∧ ({ net with net := { net.net with paused := [(0, 9)] } } : Head).now < look 0 [(0, 9)] 0 ∧ h.net.up.getLsbD 0 = true ∧ h.net.up.getLsbD 31 = false ∧
    h.runs 16 = true ∧ h.windowAt 0 3 = some { win with waitAdv := true, state := .sealed, users := [(0, 9)] } ∧
    h.consumed { win with waitAdv := true, state := .sealed, users := [(0, 9)] } = true ∧
    h.windowAt 0 4 = some { win with idx := 4, state := .revoking, slot := 4, revBy := some 1 } ∧ h.net.conns.any (fun c => c.slot = some 4) = false := by decide +kernel


/-! ### Flash -/

/-- A die, its family of 3,000 erases, a closed band of one member, a pool, an extent with one chunk looked up, an owned group. -/
def Tests.die : Die :=
  { num := 4, id := 0, fam := 0, planes := 1, blocks := 100, rows := 64, spare := 0, state := .inService, ec := [(7, 2998)], free := [], bad := []
    touts := 0, susp := false }
def Tests.fam : Family :=
  { id := 0, mask := 0, planes := 1, levels := 2, nstep := 0, softd := 0, tslot := 0, feat := 0, pelim := 3000, trTyp := 0, trMax := 0
    tprogTyp := 0, tprogMax := 0, tbersTyp := 0, tbersMax := 0, poll := 0, mode := 0, rate := 0, flags := 0, susp := 0, resume := 0, slcpfx := 0, steps := [] }
def Tests.band : Band :=
  { num := 6, side := 0, pool := 1, cls := .data, members := [(4, 7)], w := 1, p := 1, planes := 1, rows := 64, isOpen := false, closed := true
    order := 1, stripes := [], fills := [⟨0, 0, 1⟩], wseq := 0, cells := [], lost := [], refresh := true, rebuild := true, stage := []
    filling := none }
def Tests.pool : Pool := ⟨1, false, 1, 1, 10, true, none, none, Two.both 0, Two.both false, false⟩
def Tests.media : Head :=
  { net with
    fl := { net.fl with
      fams := [fam], dies := [(4, some die)], bands := [band], pools := [pool]
      groups := [(0, { own := true, wp := true, idle := false, resync := [], queue := [], bursts := [], pauses := [], lastOp := 0 })] }
    red := { net.red with extents := [⟨1, 2, 0, 4096, 1, 0, 0, false, [⟨0, 4096, [], [1, 2], [], [], .looking⟩], 0, [], none⟩] } }

theorem witness_FlashEvents :
    let h := media
    let p := { h with fl := { h.fl with ops := [.program 4 6 0] } }
    let e := { h with fl := { h.fl with ops := [.erase 4 7 none] } }
    let l := { h with fl := { h.fl with ops := [.read 4 7 0 6 0 0], late := [(6, 0, 0)] } }
    let g := fun (x : Group) => h.setGroup 0 x
    (h.group 0).own = true ∧ (h.group 0).resync = [] ∧ (h.group 0).queue = [] ∧ (h.group 0).idle = false ∧ h.working = true ∧
    h.windowMay 0 ([false], 1) = true ∧ (g { h.group 0 with bursts := [(0, 0)] }).windowMay 0 ([false, true, false], 2) = false ∧
    (g { h.group 0 with queue := [([false, true, false], 2)] }).working = true ∧ (g { h.group 0 with resync := [4] }).group 0 = { h.group 0 with resync := [4] } ∧
    l.readOf 6 0 0 = some (.read 4 7 0 6 0 0) ∧ 0 < band.cws ∧ ([.hard] : List CwResult).any l.dueRefresh = false ∧ l.fl.late.contains (6, 0, 0) = true ∧ h.cfg .NFIDLE 0 31 0 = h.cfg .NFIDLE 0 31 0 ∧ dieGroup 4 = 0 ∧ h.groupQuiet 0 = true ∧
    ({ h with fl := { h.fl with bands := [] } } : Head).coldGroup 0 = true ∧
    p.fl.ops.find? (fun o => match o with | .program d _ _ => d = 4 | .spill d _ => d = 4 | .late d => d = 4 | _ => false) = some (.program 4 6 0) ∧
    h.band 6 = some band ∧
    e.fl.ops.find? (fun o => match o with | .erase d b _ => d = 4 && b = 7 | _ => false) = some (.erase 4 7 none) ∧
    e.die 4 = some die ∧ e.family 4 = some fam ∧ ({ die with ec := [(7, 2999)] } : Die).count 7 < fam.pelim ∧ ¬ ({ die with ec := [(7, 3000)] } : Die).count 7 < fam.pelim := by
  decide +kernel

theorem witness_BandWork :
    let h := media
    let g : GcSlot := ⟨0, 0, 6, some 8, .map none, [(4, 7)], 0⟩
    let r := { h with fl := { h.fl with gc := [g] } }
    h.band 6 = some band ∧ h.pool 1 ≠ none ∧ h.nextVictim pool 0 = some (6, 1) ∧ r.bandRead 6 = false ∧ r.handing 0 = false ∧ h.spilling = false ∧ band.closed = true ∧
    h.nextRebuild 0 = some band ∧ h.working = true ∧ r.fl.gc.find? (fun g => g.side = 0 && g.idx = 0) = some g ∧ r.landed none = true ∧
    (r.eraseVictim g).fl.gc.find? (fun g => g.side = 0 && g.idx = 0) = some { g with st := .erase } ∧
    h.serves 0 = true ∧ h.serves 1 = false ∧ up.serves 0 = false ∧
    ({ h with core := { h.core with psFail := true } } : Head).mirroring = false := by decide +kernel

theorem witness_Destage :
    let v := { vol with writes := [⟨1, 0, 4096, .bytes [1], (0, 1), [], false, (0, 0)⟩] }
    let h := { media with vols := { media.vols with vols := [v] }, red := { media.red with extents := [] } }
    h.vol 2 = some v ∧ h.working = true ∧ h.serves v.home = true ∧ pastEnd 0 4096 = false ∧ (v.undone 0 4096).map (fun w => w.epoch) = [1] ∧
    covered ((v.undone 0 4096).foldl (fun l w => addRange l w.off w.len) []) 0 4096 = true ∧ v.dropped 1 0 = false ∧ v.dropped 1 4095 = false ∧
    h.rangeFree 2 0 4096 = true ∧ h.spilling = false ∧ h.handing 0 = false ∧ media.pool 1 = some pool ∧ 1023 < 2 ^ pool.cidxk ∧
    (media.extChunk 1 0).isSome = true := by decide +kernel

/-- A window whose memory begins with the bytes of a list, on a head that serves side 0 and holds a pool or a volume or none. -/
def Tests.table (h : Head) (b : List Byte) : Head :=
  let w := { win with pages := [1] }
  { h with net := { h.net with windows := [w] }, pair := { h.pair with lehr := [⟨0, 1, .window, 3, (upto b.length).map (fun i => (i, nth 0 b i)), []⟩] } }
def Tests.maker : Caller := ⟨.M, 72, 0, none, 0, 0⟩
def Tests.installer : Caller := ⟨.I, 64, 0, none, 0, 0⟩

theorem witness_PoolsAndVolumes :
    let mk := leBytes 8 (pack [(56, 1), (48, 5), (32, 26), (8, 1), (0, 1)]).toNat ++ List.replicate 24 0
    let de := leBytes 8 (pack [(56, 2), (48, 1)]).toNat ++ List.replicate 24 0
    let dies := fun (n : Nat) => (n, some { die with num := n })
    let h := table { net with vols := { net.vols with vols := [] }, fl := { net.fl with dies := [dies 0, dies 16, dies 1024, dies 1040] } } mk
    let d := table { media with vols := { net.vols with vols := [] } } de
    let vc := leBytes 8 (pack [(56, 1), (48, 1), (0, 7)]).toNat ++ List.replicate 24 0
    let vd := leBytes 8 (pack [(56, 2), (0, 2)]).toNat ++ List.replicate 24 0
    h.tabref installer (mkRef 3 1) 32 = some mk ∧ h.accepts installer Reg.POOLCTL.row 0 (mkRef 3 1) = true ∧ h.pool 5 = none ∧ h.geoOk 1 1 = true ∧
    d.tabref installer (mkRef 3 1) 32 = some de ∧ (d.pool 1).isSome = true ∧
    (table media vc).tabref installer (mkRef 3 1) 32 = some vc ∧ (table media vc).accepts installer Reg.VOLCTL.row 0 (mkRef 3 1) = true ∧
    (table media vc).vol 7 = none ∧ (table media vd).tabref installer (mkRef 3 1) 32 = some vd ∧ (table media vd).vol 2 = some vol ∧
    (table media vd).volReplicating vol = false := by decide +kernel

theorem witness_VolumeGroups :
    net.accepts installer Reg.VCG.row 2 1023 = true ∧ net.accepts installer Reg.VCG.row 3 0 = true ∧ net.vol 3 = none ∧ net.vol 2 = some vol ∧
    net.replicating false 2 = false ∧ net.replicating true 1023 = false ∧ net.accepts installer Reg.VCG.row 2 1024 = false := by decide +kernel

/-! ### The pair -/

theorem witness_Fences :
    let f := { up with pair := { up.pair with fence := { up.pair.fence with fenced := true } } }
    let t := { up with pair := { up.pair with takeover := .settle } }
    let r := { up with pair := { up.pair with remir := true, link := { up.pair.link with state := .up } } }
    f.pair.fence.fenced = true ∧ f.cfg .FNCCFG 0 39 39 ≤ 1 ∧ (f.store 0 .FNCCFG 0 0).cfg .FNCCFG 0 39 39 = 0 ∧
    (up.fenceInPin false).pair.fence.fenced = false ∧ (up.fenceInPin false).sys.pins.fenceOut = true ∧ (up.fenceInPin false).side = 0 ∧
    staged.pair.handoff = none ∧ staged.pair.fence.peer = .inService ∧
    net.accepts maker Reg.FNCCTL.row 0 0x8000000000000000 = true ∧ t.pair.takeover = .settle ∧ t.sys.pins.fenceIn = true ∧ t.spilling = false ∧
    r.pair.remir = true ∧ r.pair.link.bulk.unacked = [] ∧ r.pair.link.bulk.waiting = [] := by decide +kernel

theorem witness_HandOver :
    let h := fun (o : Handoff) => { up with pair := { up.pair with handoff := some o } }
    let x : Rep := { state := 1, group := false, subj := 2, base := 0, cycles := 0, cur := none, descr := [], conn := none, phase := 0, left := 0
                     startAt := 0, stopBy := none, todo := [], win := 0, slot := 0, tag := 0, handles := [] }
    let r := { net with pair := { net.pair with reps := [(4, some x)] } }
    (h ⟨0, 2, true, false⟩).pair.handoff = some ⟨0, 2, true, false⟩ ∧ (h ⟨0, 2, true, true⟩).allMirrored = true ∧
    (h ⟨0, 2, true, true⟩).groupsFree 0 = true ∧ (h ⟨0, 2, true, true⟩).tapeBoundary = true ∧
    r.rep 4 = some x ∧ r.serves (r.repSide x) = true := by decide +kernel

theorem witness_PairTraining :
    let t := { up with pair := { up.pair with link := { up.pair.link with state := .training, txGood := 0xFFFFFFFF } } }
    up.runs 16 = true ∧ up.pair.fence.fenced = false ∧ up.pair.link.state ≠ .up ∧ linkWidth 0xFFFFFFFF ≠ 0 ∧ linkWidth 0 = 0 ∧ 0 % 2 = up.side ∧
    1 % 2 ≠ up.side ∧ staged.linked = true ∧ t.runs 16 = true ∧ t.pair.link.state = .training ∧ linkWidth (t.pair.link.txGood &&& 0) = 0 ∧
    up.sys.pins.pwrOk = true ∧ up.sys.rst.after = none := by decide +kernel

theorem witness_PairFrames :
    staged.linked = true ∧ ({ staged with pair := { staged.pair with solo := true } } : Head).pair.solo = true ∧ staged.pair.remir = false ∧
    staged.pair.link.rxMir = 0 ∧ staged.pair.link.nakMir = false ∧
    ((table staged []).page 1).isSome = true ∧ ((table staged []).pageIn 0 1 0 [7]).serves 0 = false := by decide +kernel

theorem witness_LehrBound :
    let c := installer
    let big := (net.store 0 .LEHRCFG 0 32).store 0 .ALIM 0 (pack [(32, 30720), (0, 1)])
    net.cfg .LEHRCFG 0 7 0 = 24 ∧ net.accepts c Reg.ALIM.row 0 (pack [(32, 22529), (0, 1)]) = true ∧ 1024 * net.cfg .LEHRCFG 0 7 0 < 22529 + 2048 ∧
    net.accepts c Reg.ALIM.row 0 (pack [(32, 22528), (0, 1)]) = true ∧ big.accepts c Reg.LEHRCFG.row 0 24 = true ∧
    1024 * 24 < big.cfg .ALIM 0 47 32 + 2048 ∧ big.accepts c Reg.LEHRCFG.row 0 32 = true ∧ big.cfg .ALIM 0 47 32 + 2048 ≤ 1024 * 32 := by
  decide +kernel


/-! ### Reset, power -/

def Tests.isles (n : Nat) (st : IState) (h : Head) : Head := h.updIsland n (fun x => { x with st := st })

theorem witness_ResetSources :
    let a := { up with sys := { up.sys with rst := { up.sys.rst with active := [.rstL] } } }
    up.sys.rst.active = [] ∧ up.sys.rst.tflt = false ∧ up.sys.rst.bflt = false ∧ up.cfg .WDCFG 0 47 47 = 1 ∧
    (up.store 0 .WDCFG 0 0).cfg .WDCFG 0 47 47 = 0 ∧ net.accepts ⟨.F, 255, 0, none, 0, 0⟩ Reg.WDKICK.row 0 0 = true ∧ up.sys.power.held = false ∧
    a.sys.rst.active.contains .thermal = false ∧ a.sys.rst.active ≠ [] ∧ a.sys.rst.active = [.rstL] ∧
    ({ up with sys := { up.sys with pins := { up.sys.pins with pwrOk := false } } } : Head).sys.pins.pwrOk = false := by decide +kernel

theorem witness_BringUp :
    let h := State.reset.head
    let p := { up with sys := { up.sys with pins := { up.sys.pins with fenceOut := true } } }
    h.sys.rst.trimLd = true ∧ h.sys.rst.active = [] ∧ h.sys.rst.fails < 2 ∧ (isles 1 .releasing up).island 1 = .releasing ∧ up.core.psFail = false ∧
    (isles 20 .releasing up).island 20 = .releasing ∧ (isles 21 .releasing up).island 21 = .releasing ∧
    up.sys.rst.image = false ∧ up.runs 1 = true ∧ up.runs 2 = true ∧ up.bootSource 2 = true ∧ up.bootSource 3 = false ∧
    p.pair.link.state = .down ∧ p.sys.pins.fenceOut = true ∧ p.pair.rejoin = false ∧ p.pair.fence.peer ≠ .inService := by decide +kernel

theorem witness_IslandResets :
    let v := fun (op n : Nat) => pack [(62, op), (0, n)]
    let b := up.setThread 5 { up.thread 5 with verbs := [⟨1, 3, 2, none, false⟩] }
    let q := isles 3 .quiescing up
    net.accepts maker Reg.ISRST.row 0 (v 1 3) = true ∧ net.accepts maker Reg.ISRST.row 0 (v 3 21) = true ∧ net.islandRefused 3 = false ∧
    net.islandRefused 2 = true ∧ net.islandRefused 22 = true ∧ net.islandRefused 21 = false ∧
    (isles 3 .quiesced up).island 3 = .quiesced ∧ up.crossingBusy 3 = false ∧ b.crossingBusy (islandOf 5) = true ∧
    b.island (islandOf 5) ≠ .quiesced ∧ q.island 3 = .quiescing ∧ q.islandQuiet 3 = true ∧ (q.sys.islands[3]?).isSome = true := by decide +kernel

theorem witness_Supervision :
    let p := { up with sys := { up.sys with power := { up.sys.power with held := true } } }
    up.sys.power.held = false ∧ 104 < up.cfg .THERMCFG 0 55 48 ∧ p.sys.power.held = true ∧
    min 255 (max 89 0) + 10 < up.cfg .THERMCFG 0 63 56 ∧ up.sys.rst.straps / 2 % 4 ≠ 1 ∧ up.sys.rst.active = [] ∧ up.runs 0 = true ∧
    up.sys.power.fault = false ∧ up.nextVid 150 false = up.sys.power.vid ∧
    ({ up with sys := { up.sys with rst := { up.sys.rst with ttOn := true, kicked := true } } } : Head).sys.rst.kicked = true := by decide +kernel

/-! ### Tape -/

theorem witness_TapeFrames :
    let f : SampleFrame := ⟨0, true, true, [], [], [], ⟨false, false, false, false, true, false, 0, 0, 0, 0⟩⟩
    (taping.port 0).link.state = .run ∧ (up.port 0).link.state = .down ∧ f.seq = look 0 (taping.port 0).link.rxSeq 0x11 ∧
    (taping.port 0).state ≠ .writing ∧ (taping.port 0).state ≠ .reading ∧ (taping.port 0).job = none := by decide +kernel

/-- Whether a servo element gives a position hangs on the tone amplitudes, which are a constant without a value: not shown here. -/
theorem witness_TapePorts :
    let on := fun (x : Port) => ({ up with tape := { up.tape with ports := { up.tape.ports with s0 := x } } } : Head)
    let t := on { Port.blank with link := { Port.blank.link with state := .train } }
    let i := on { Port.blank with state := .idle, link := { Port.blank.link with state := .run } }
    let b := on { Port.blank with state := .backhitch, link := { Port.blank.link with state := .run }, job := some { TJob.blank with stage := .labelw } }
    (i.port 0).link.state = .run ∧ (i.port 0).state = .idle ∧ (taping.port 0).state = .stopped ∧ taping.cfg .TPCFG 0 63 48 ≠ 0 ∧
    (b.port 0).state = .backhitch ∧ ((b.port 0).job.map (fun j => j.writing)) = some true ∧ (t.port 0).link.state = .train ∧
    4 ≤ lanes 8 0x0F ∧ lanes 8 0x07 < 4 ∧ 2 ≤ lanes 4 0x3 ∧ lanes 4 0x1 < 2 ∧
    (taping.port 0).job = none ∧ (taping.port 0).cur = none := by decide +kernel

/-! ### Caches, registers, keys, SMBus -/

theorem witness_CachesAndMemory :
    let v := fun (b : Nat) => pack [(b, 1)]
    let w := (net.store 0 .ECCTA 0 (pack [(60, 1), (0, 8)]))
    (net.l1 0).wt = [] ∧ w.accepts maker Reg.ECCTCTL.row 0 (v 62) = true ∧ w.cfg .ECCTA 0 47 0 % 8 = 0 ∧
    net.accepts ⟨.F, 255, 0, none, 0, 0⟩ Reg.ENGCFG.row 0 (v 63) = true ∧ (net.l1 0).ivi = false ∧ net.cfg .ENGCFG 0 63 63 = 0 ∧
    net.accepts ⟨.F, 255, 0, none, 0, 0⟩ Reg.ENGCFG.row 0 (v 59) = true ∧
    net.accepts ⟨.F, 255, 0, none, 0, 0⟩ Reg.L2CFG.row 0 (pack [(0, 0xFF)]) = true ∧ lanes 16 0xFF ≤ 8 ∧ 8 < lanes 16 0x1FF ∧
    net.accepts ⟨.F, 255, 0, none, 0, 0⟩ Reg.L2CFG.row 0 (v 63) = true ∧ net.cfg .L2CFG 0 63 63 ≠ 1 ∧ (net.l2 0).iv = false ∧
    (net.l2 0).iv = false := by decide +kernel

theorem witness_RegisterMap :
    (regOf 0x08000000).map (fun x => (x.1.reg, x.2)) = some (.LEHRCFG, 0) ∧ (regOf 0x08000004).isNone = true ∧
    (regOf (0xFFFFFFFF % 2 ^ 31)).isNone = true := by decide +kernel

theorem witness_WriteChecks :
    net.writeCheck ⟨.O, 3, 0, none, 0, 0⟩ Reg.LEHRCFG.row 0 25 = some .tier ∧ net.writeCheck installer Reg.LEHRCFG.row 0 0x100 = some .invalid ∧
    net.writeCheck installer Reg.LEHRCFG.row 0 33 = some .invalid ∧ net.writeCheck installer Reg.LEHRCFG.row 0 32 = none ∧
    State.reset.head.writeCheck installer Reg.LEHRCFG.row 0 32 = some .invalid ∧
    net.writeCheck installer Reg.HPCFG.row 0 (pack [(63, 1)]) = some .invalid := by decide +kernel

/-- A TPLNK table without entries, with its CHK. -/
def Tests.linkBytes : List Byte :=
  let b := leBytes 8 (pack [(48, 7), (32, 1), (0, 64)]).toNat ++ List.replicate 24 0 ++
    leBytes 8 (pack [(48, 1), (32, 10), (16, 1), (8, 1)]).toNat ++ leBytes 8 (pack [(48, 1)]).toNat ++ List.replicate 16 0
  overlay b 8 (leBytes 4 (crc32c b))

theorem witness_RegisterWrites :
    let v := mkRef 3 1
    let h := table net linkBytes
    let run := { net with tape := taping.tape }
    net.accepts installer Reg.HPCFG.row 0 0 = true ∧ net.accepts installer Reg.HPOL.row 0 0 = true ∧ net.accepts installer Reg.EVTIME.row 0 7 = true ∧
    net.accepts ⟨.F, 255, 0, none, 0, 0⟩ Reg.TLCFG.row 0 (net.present 0 Reg.TLCFG.row 0) = true ∧
    run.accepts maker Reg.TLREG.row 0 0 = true ∧ (run.port 0).link.state = .run ∧ net.accepts installer Reg.MKACC.row 0 0 = true ∧
    h.accepts installer Reg.TPLNK.row 0 v = true ∧ h.table installer v 7 linkForm = .ok linkBytes ∧
    h.accepts installer Reg.DRGEAR.row 0 v = true ∧ h.table installer v 1 gearForm = .error .invalid := by decide +kernel

theorem witness_RegisterAccess :
    let s := run5 net (fun x => { x with g := [(1, 0x08000000), (2, 25)] })
    let h := s.head.fetched 5
    s.head.takesEffect 5 ((gw 3 1 0 0 0).common 0x20) true .O [3, 1] = true ∧ s.head.takesEffect 5 ((gw 0 1 2 0 0).common 0x21) true .O [1, 2] = true ∧
    (h.loggedAccess (s.head.thread 5) 0x20).isNone = true ∧ (h.loggedAccess (s.head.thread 5) 0x21).isNone = true ∧
    h.setForbidden (s.head.thread 5) 0x08000000 = false ∧
    (regOf 0x08000000).isSome = true ∧ net.served Reg.LEHRCFG.row 0 = true := by decide +kernel

theorem witness_Keys :
    let rec' := fun (op slot : Nat) (k : List Byte) => leBytes 8 (pack [(56, op), (48, slot)]).toNat ++ List.replicate 8 0 ++ k ++ List.replicate 16 0
    let k := List.replicate 32 (1 : Byte)
    let z := List.replicate 32 (0 : Byte)
    let h := table net (rec' 1 3 k)
    let one := { net with keys := { net.keys with slots := [(64, some ⟨k, 72⟩), (3, some ⟨z.set 0 2, 64⟩)], hkeys := [(3, some ⟨8, 0, [1]⟩)] } }
    h.accepts installer Reg.KEYENR.row 0 (mkRef 3 1) = true ∧ h.tabref installer (mkRef 3 1) 64 = some (rec' 1 3 k) ∧
    h.keyCheck .I (rec' 1 3 k) = none ∧ one.keyCheck .I (rec' 2 3 z) = none ∧ one.keyCheck .I (rec' 1 3 k) = some .invalid ∧
    keyRefused .I (rec' 1 3 k) = false ∧ one.liveKeys 64 71 ≤ 1 ∧ one.keyCheck .I (rec' 2 64 z) = some .invalid ∧
    one.accepts installer Reg.DGCTX.row 1 (pack [(62, 2), (56, 3)]) = true ∧ one.dgOwned 1 64 = false ∧
    (look none one.keys.hkeys 3).isSome = true ∧ one.keys.fw.conf = true := by decide +kernel

theorem witness_SmbCommands :
    let m := { up with sys := { up.sys with smb := { up.sys.smb with sess := some ⟨72⟩, bscan := true } } }
    let i := { up with sys := { up.sys with smb := { up.sys.smb with sess := some ⟨64⟩ } } }
    (isles 0 .inReset up).runs 0 = false ∧ up.runs 0 = true ∧ m.trimLocked = false ∧ i.smbInstaller = true ∧ i.smbMaker = false ∧
    m.smbMaker = true ∧ m.sys.smb.bscan = true ∧ up.smbSlot = none ∧ openRead 0x08000000 = openRead 0x08000000 ∧
    i.smbResetCheck 0 0 = .ok ∧ i.smbResetCheck 1 3 = .ok ∧ i.smbResetCheck 3 0 = .invalid ∧ up.mayImage = true ∧ up.noMaker = true ∧
    up.claimCheck (leBytes 8 (pack [(56, 1), (48, 72)]).toNat ++ List.replicate 8 0 ++ List.replicate 32 1 ++ List.replicate 16 0) = none ∧
    up.alert = false := by decide +kernel

/-! ### Further premises, clause by clause -/

theorem witness_CacheOperations_lockfill :
    let s := run5 ({ up with core := up.core }.store 0 .L2CFG 0 (pack [(0, 1)])) (fun x => { x with g := [(1, 4096), (2, 128), (3, 100)] })
    let x := s.head.thread 5
    let h := s.head.fetched 5
    s.head.takesEffect 5 ((gw 0 1 2 5 0).common 0x28) true .F [1, 2] = true ∧ s.head.takesEffect 5 ((gw 0 1 3 5 1).common 0x28) true .F [1, 3] = true ∧
    engineOf 5 < 96 ∧ h.wayLocked (pelotonOf (engineOf 5)) 0 = true ∧ h.wayLocked (pelotonOf (engineOf 5)) 1 = false ∧
    (x.reg 1).toNat % 64 = 0 ∧ (x.reg 2).toNat % 64 = 0 ∧ (x.reg 3).toNat % 64 ≠ 0 := by decide +kernel

/-- A head whose L1 D and L2 hold a clean line 1 and a dirty line 2, in way 0 of the L2 unlocked and in way 1 locked. -/
def Tests.lined : Head :=
  let l := fun (n w : Nat) (d : Bool) => (⟨n, w, d, List.replicate 64 0, 0⟩ : CLine)
  let ls := [l 1 0 false, l 2 0 true, l 3 1 true]
  ({ up with core := { up.core with
    l1 := [(0, { (up.l1 0) with lines := [l 1 0 false, l 2 0 true] })]
    l2 := [(0, { (up.l2 0) with lines := ls, evict := [l 9 0 true] })] } }).store 0 .L2CFG 0 (pack [(0, 2)])

theorem witness_CacheLines :
    let h := lined
    (cached (h.l1 0).evict 1).isNone = true ∧ (cached (h.l1 0).lines 1).map (fun c => c.dirty) = some false ∧
    (cached (h.l1 0).lines 2).map (fun c => c.dirty) = some true ∧ (h.putBelow (pelotonOf 0) 2 ⟨List.replicate 64 0, 0⟩).isSome = true ∧
    (cached (h.l1 0).lines 7).isNone = true ∧ pelotonOf 0 = 0 ∧ (cached (h.l2 0).evict 1).isNone = true ∧
    (cached (h.l2 0).lines 1).map (fun c => c.dirty) = some false ∧ (cached (h.l2 0).lines 2).map (fun c => (c.dirty, h.wayLocked 0 c.way)) = some (true, false) ∧
    (cached (h.l2 0).lines 3).map (fun c => (c.dirty, h.wayLocked 0 c.way)) = some (true, true) ∧
    canon L2.fresh h.core.l2 = true ∧ (cached (h.l2 0).evict 9).isSome = true ∧ (cached (h.l2 0).lines 9).isNone = true := by decide +kernel

theorem witness_VerbsAreHeld_log :
    let h := (orders up []).head
    let f := { h with work := { h.work with cmds := [{ cmd with pages := [7], log := List.replicate 3958 ⟨0, .ok, 3, 0⟩ }] } }
    h.logFull (some (0, 1)) 0 = false ∧ h.logWaits none 0 = false ∧ f.logFull (some (0, 1)) 0 = true := by decide +kernel

theorem witness_EffectsAtCommit_ledger :
    let k : Contract := ⟨0, 0, 0, 0, 0, 2, 0, 1, 9, .opened, [], 0, 0, 0, 0, 0, [], 0, 0, 0, false, [], [], 0⟩
    let held := ({ up with work := { up.work with contracts := [(1000, some k)] } }).store 1 .QCFG 9 (pack [(48, 255)])
    let v := fun (vc : Nat) (k : Option (Nat × Nat)) =>
      ({ vid := 1, vc := vc, t := 5, cmd := k, ops := [1000, 0], imm := 0, ans := none, tag := none, aw := .effect, past := false, codeC := false
         op := none, res := .ok 0, k := 0 } : HVerb)
    up.ledger = false ∧ net.ledger = true ∧ up.verbMay (v 0x0E none) = true ∧ up.verbMay (v 0x0F none) = true ∧
    (held.askLedger (v 0x0F none)).isOk = true ∧ (up.askLedger (v 0x0F none)).isOk = false ∧ (net.effect (v 0x16 (some (0, 1)))).map (fun e => e.passes) = some true ∧
    (up.askLedger (v 0x0E none)).isOk = false := by decide +kernel

theorem witness_ReadVerbs_get :
    let go := fun (s : State) (no : BitVec 3) =>
      let v := s.verbNew 5 0x03 (word no 0)
      let h := s.verbHead 5 0x03 (word no 0)
      (s.head.verbStarts 5 0x03 0 [4, 5] (word no 0), h.reaches (h.vside v) (h.vreplay v) (nth 0 v.ops 2) (v.arg 3),
        (h.pushC v (.reads false) (.ok 0)).flashPieces (v.arg 0) lastEpoch (v.arg 1) (v.arg 3), h.reaches (h.vside v) (h.vreplay v) (nth 0 v.ops 4) 1)
    go (asks stored [2, 0, mkRef 3 1, 0]) 4 = (true, true, [], false) ∧ go (asks stored [2, 4096, mkRef 3 1, 64]) 4 = (true, true, [], false) ∧
    go (asks stored [2, 0, mkRef 3 1, 64, mkRef 3 1]) 5 = (true, true, [], true) ∧
    go (asks stored [2, 0, mkRef 3 1, 64, mkRef 4 1]) 5 = (true, true, [], false) ∧ go (asks stored [2, 0, mkRef 3 1, 4097]) 4 = (true, false, [], false) ∧
    stored.fl.wants = [] := by decide +kernel

theorem witness_RecordVerbs :
    let go := fun (vc : Nat) (no : BitVec 3) (s : State) (i n : Nat) =>
      let v := s.verbNew 5 vc (word no 0)
      let h := s.verbHead 5 vc (word no 0)
      (v.arg (i - 1), h.reaches (h.vside v) (h.vreplay v) (nth 0 v.ops i) (n * v.arg (i - 1)), h.dest (h.vside v) (h.vreplay v) (nth 0 v.ops i) (n * v.arg (i - 1)) |>.isOk)
    (asks stored [1, 1, 128, mkRef 3 1]).head.verbStarts 5 0x14 1 [4] (word 4 1) = true ∧
    go 0x14 4 (asks stored [1, 1, 128, mkRef 3 1]) 3 32 = (128, true, true) ∧ go 0x14 4 (asks stored [1, 1, 65536, mkRef 3 1]) 3 32 = (65536, false, false) ∧
    (asks stored [1, 64, mkRef 3 1]).head.verbStarts 5 0x15 0 [3] (word 3 0) = true ∧
    go 0x15 3 (asks stored [1, 64, mkRef 3 1]) 2 64 = (64, true, true) ∧ go 0x15 3 (asks stored [1, 65, mkRef 3 1]) 2 64 = (65, false, false) := by decide +kernel

theorem witness_QueueEvents_refused :
    let s := { net with work := { net.work with readMostly := true } }
    let e := { entry with inl := leBytes 8 0b110000_0_000_00001_01010_101_00000001_1_00000000000000000000000000000000 ++ List.replicate 88 0 }
    (s.checkRun e []).isOk = false ∧ (net.checkRun e []).isOk = true := by decide +kernel

theorem witness_CadenceEpoch :
    net.fl.groups.all (fun e => e.2.queue.isEmpty) = true ∧ media.fl.groups.all (fun e => e.2.queue.isEmpty) = true := by decide +kernel

theorem witness_PageReads :
    let h := { media with fl := { media.fl with ops := [.read 4 7 0 6 0 0] } }
    h.band band.num = some band ∧ h.readOf band.num 0 0 = some (.read 4 7 0 6 0 0) ∧ h.fl.late.contains (band.num, 0, 0) = false := by decide +kernel

theorem witness_Relocation :
    let h := { media with fl := { media.fl with unsync := [6], bands := media.fl.bands ++ [{ band with num := 7, order := 2 }] } }
    6 ∈ h.fl.unsync ∧ h.band 7 = some { band with num := 7, order := 2 } ∧ h.nextVictim pool 0 = some (6, 1) := by decide +kernel

theorem witness_PoolsAndVolumes_ends :
    let d := table media []
    let e := table { media with fl := { media.fl with bands := [] } } []
    let k := fun (h : Head) => (((h.record' (.pool 1 none)).deletePool 1).auditReg installer Reg.POOLCTL.row 0 .ok false)
    ((k d).pool 1).any (fun p => p.deleting) = true ∧ ((k e).pool 1).any (fun p => p.deleting) = false := by decide +kernel

theorem witness_PairTraining_dark : up.dark = false ∧ (up.sideConflict).dark = true := by decide +kernel

theorem witness_PairFrames_more :
    let h := { table staged [] with pair := { (table staged []).pair with rejoin := true, newer := [(27, 0, 1), (9, 0, 1)] } }
    staged.serves 1 = false ∧ staged.pair.handoff = none ∧ staged.whole = true ∧ 1 % 2 ≠ staged.side ∧
    h.outdated [(27, 0, 1)] = true ∧ h.outdated [(27, 0, 2)] = false ∧ (h.page 1).isSome = true ∧
    ((table staged []).pageIn 0 1 0 [7]).work.cmds.any (fun c => c.await) = false ∧ (table staged []).outdated [(27, 0, 1)] = false := by decide +kernel

theorem witness_RegisterAccess_log :
    let s := run5 net (fun x => { x with g := [(1, 0x08000000), (2, 25)] })
    let h := s.head.fetched 5
    let x := s.head.thread 5
    h.logWaits x.cmd x.outs = false ∧ (h.logGrown x.cmd x.outs).setForbidden x 0x08000000 = false ∧
    ((h.logGrown x.cmd x.outs).writeState ((h.logGrown x.cmd x.outs).threadCaller x) (some 5) 0x08000000 25).isOk = true := by decide +kernel

end Sys2Proof
end

section
/-! PROOFS. The program counter of a bounded program (R37): where a thread that is moved to a PC ends, what BR, CALL and JR do where they
take effect, and the statement about both. -/

namespace Sys2Proof.Machine

/-! ## The bound -/

/-- What lies outside a bounded program starts at its length in bytes. -/
theorem outside_iff_of_buf {x : Thread} (hb : x.buf = true) (pc : Word) : x.outside pc = true ↔ 8 * x.len ≤ pc.toNat := by
  simp only [Thread.outside, hb, Bool.true_and, decide_eq_true_eq]

/-- A bounded program has the words below its length. -/
theorem inside_iff_of_buf {x : Thread} (hb : x.buf = true) (pc : Word) : x.outside pc = false ↔ pc.toNat < 8 * x.len := by
  rw [← Bool.not_eq_true, outside_iff_of_buf hb, Nat.not_le]

/-! ## A thread moved to a PC -/

/-- A replaced thread reads as it was written unless it is one that runs no program. -/
theorem thread_setThread_of_run_ne_free (h : Head) (t : Nat) {x : Thread} (hx : x.run ≠ .free) : (h.setThread t x).thread t = x :=
  look_place_new _ _ _ _ (fun e => hx (congrArg Thread.run e))

/-- A running thread that passes the last word of its program ends as by END g0. -/
theorem moveTo_outside {h : Head} {t : Nat} {pc : Word} (hr : (h.thread t).run = .running) (hp : (h.thread t).outside pc = true) :
    (h.moveTo t pc).thread t = { h.thread t with pc := pc, run := .ending 0 } := by
  have hp' : ((h.thread t).buf && decide (8 * (h.thread t).len ≤ pc.toNat)) = true := hp
  have hm : h.moveTo t pc = h.setThread t { h.thread t with pc := pc, run := .ending 0 } := by
    simp only [Head.moveTo, hp', hr, decide_true, Bool.and_self, if_true]
  rw [hm]
  exact thread_setThread_of_run_ne_free h t (by simp only [ne_eq, reduceCtorEq, not_false_eq_true])

/-- A running thread that stays inside its program goes on from the new PC. -/
theorem moveTo_inside {h : Head} {t : Nat} {pc : Word} (hr : (h.thread t).run = .running) (hp : (h.thread t).outside pc = false) :
    (h.moveTo t pc).thread t = { h.thread t with pc := pc } := by
  have hp' : ((h.thread t).buf && decide (8 * (h.thread t).len ≤ pc.toNat)) = false := hp
  have hm : h.moveTo t pc = h.setThread t { h.thread t with pc := pc } := by
    simp only [Head.moveTo, hp', Bool.false_and, Bool.false_eq_true, if_false]
  rw [hm]
  exact thread_setThread h t _ hr

/-! ## BR, CALL and JR where they take effect -/

/-- An instruction that takes effect, as a command. -/
theorem run_issue_takesEffect (s : State) {t : Nat} {c : Common} {legal : Bool} {low : Tier} {uses : List Nat}
    (body : Head → Thread → Iss) (hr : s.head.takesEffect t c legal low uses = true) :
    s.run (fun h => h.issue t c legal low uses body) = .next (s.issued t c (body (s.head.fetched t) (s.head.thread t))) := by
  rw [run_eq, issue_takesEffect _ _ _ _ _ _ _ hr]
  rfl

/-- A jump out of the program raises BOUNDS. -/
theorem jumpTo_outside (h : Head) {x : Thread} {pc : Word} (hp : x.outside pc = true) : jumpTo h x pc = .trap h .bounds (some pc) :=
  if_pos hp

/-- BR out of the program raises BOUNDS at the branch. -/
theorem exec_br_outside {s : State} {t : Nat} {w : GWord}
    (hr : s.head.takesEffect t (w.common 0x10) (w.rd = 0 && w.ra = 0 && w.rb = 0 && w.fn = 0) .O [] = true)
    (hp : (s.head.thread t).outside (branchTarget (s.head.thread t) w.imm) = true) :
    exec (.br t w) s = .next (s.issued t (w.common 0x10)
      (.trap (s.head.fetched t) .bounds (some (branchTarget (s.head.thread t) w.imm)))) := by
  rw [← jumpTo_outside _ hp]
  exact run_issue_takesEffect s (fun h x => jumpTo h x (branchTarget x w.imm)) hr

/-- CALL out of the program raises BOUNDS at the branch. -/
theorem exec_call_outside {s : State} {t : Nat} {w : GWord}
    (hr : s.head.takesEffect t (w.common 0x11) (w.ra = 0 && w.rb = 0 && w.fn = 0) .O [w.rd.toNat] = true)
    (hp : (s.head.thread t).outside (branchTarget (s.head.thread t) w.imm) = true) :
    exec (.call t w) s = .next (s.issued t (w.common 0x11)
      (.trap (s.head.fetched t) .bounds (some (branchTarget (s.head.thread t) w.imm)))) := by
  have he : exec (.call t w) s = execCall t w s := rfl
  rw [he, execCall, run_issue_takesEffect s _ hr]
  simp only [hp, if_true]

/-- JR to a word out of the program raises BOUNDS at the branch. -/
theorem exec_jr_outside {s : State} {t : Nat} {w : GWord}
    (hr : s.head.takesEffect t (w.common 0x12) (w.rd = 0 && w.rb = 0 && w.fn = 0 && w.imm = 0) .O [w.ra.toNat] = true)
    (ha : ((s.head.thread t).reg w.ra.toNat).toNat % 8 = 0)
    (hp : (s.head.thread t).outside ((s.head.thread t).reg w.ra.toNat) = true) :
    exec (.jr t w) s = .next (s.issued t (w.common 0x12)
      (.trap (s.head.fetched t) .bounds (some ((s.head.thread t).reg w.ra.toNat)))) := by
  have he : exec (.jr t w) s = execJr t w s := rfl
  rw [he, execJr, run_issue_takesEffect s _ hr]
  simp only [ha, ne_eq, not_true_eq_false, if_false, jumpTo_outside _ hp]

/-! ## The statement -/

/-- Settles O8: the bound by `outside`, the last word by where `moveTo` leaves the thread, the branches by what each does out of the
program. -/
theorem programCounter : Obligations.ProgramCounter := by
  intro h t x w hx
  refine ⟨inside_iff_of_buf hx, fun hb hr pc => ⟨fun hpc => ?_, fun hpc => ?_⟩, ?_⟩
  · rw [moveTo_outside hr ((outside_iff_of_buf hb pc).mpr hpc)]
  · rw [moveTo_inside hr ((inside_iff_of_buf hb pc).mpr hpc)]
    exact ⟨hr, rfl⟩
  · rintro s rfl
    have out : ∀ pc : Word, 8 * (s.head.thread t).len ≤ pc.toNat → (s.head.thread t).outside pc = true :=
      fun pc => (outside_iff_of_buf hx pc).mpr
    exact ⟨fun hpc => ⟨fun hr => exec_br_outside hr (out _ hpc), fun hr => exec_call_outside hr (out _ hpc)⟩,
      fun hpc ha hr => exec_jr_outside hr ha (out _ hpc)⟩

end Sys2Proof.Machine
end

section
/-! PROOFS. The reflected 32-bit CRCs (R194): the register before the final inversion, what one more byte does to it, its width, and the
statement about CRC-32C. -/

namespace Sys2Proof.Machine

/-! ## The register of a reflected CRC -/

/-- Undoing the final inversion gives the register. -/
theorem crcR32_xor_ones (p : Nat) (l : List Byte) : crcR32 p l ^^^ 0xFFFFFFFF = l.foldl (crcByte p) 0xFFFFFFFF :=
  Nat.xor_xor_cancel_right _ _

/-- A further byte goes through the register that the bytes before it left. -/
theorem crcR32_append_byte (p : Nat) (l : List Byte) (b : Byte) :
    crcR32 p (l ++ [b]) ^^^ 0xFFFFFFFF = crcByte p (crcR32 p l ^^^ 0xFFFFFFFF) b := by
  rw [crcR32_xor_ones, crcR32_xor_ones, List.foldl_concat]

/-! ## Its width -/

/-- A step of one bit keeps the register within 32 bits, where the polynomial is. -/
theorem crcStep_lt {p c : Nat} (hp : p < 2 ^ 32) (hc : c < 2 ^ 32) : crcStep p c < 2 ^ 32 := by
  have half : c / 2 < 2 ^ 32 := (Nat.div_le_self c 2).trans_lt hc
  unfold crcStep
  split
  · exact Nat.xor_lt_two_pow half hp
  · exact half

/-- A byte keeps the register within 32 bits. -/
theorem crcByte_lt {p c : Nat} (b : Byte) (hp : p < 2 ^ 32) (hc : c < 2 ^ 32) : crcByte p c b < 2 ^ 32 :=
  foldl_keeps (· < 2 ^ 32) _ (fun _ _ => crcStep_lt hp) _ _
    (Nat.xor_lt_two_pow hc (b.isLt.trans (by decide)))

/-- A reflected 32-bit CRC has 32 bits. -/
theorem crcR32_lt {p : Nat} (hp : p < 2 ^ 32) (l : List Byte) : crcR32 p l < 2 ^ 32 :=
  Nat.xor_lt_two_pow (foldl_keeps (· < 2 ^ 32) _ (fun _ b => crcByte_lt b hp) l _ (by decide)) (by decide)

/-! ## The statement -/

/-- The check value of CRC-32C, over the ASCII bytes "123456789". -/
theorem crc32c_check : crc32c [0x31, 0x32, 0x33, 0x34, 0x35, 0x36, 0x37, 0x38, 0x39] = 0xE3069283 := by decide +kernel

/-- The two forms of the polynomial are each other's bits in reverse. -/
theorem crc32c_poly_reflected : ∀ k, k < 32 → Nat.testBit 0x1EDC6F41 k = Nat.testBit 0x82F63B78 (31 - k) := by decide

/-- Settles O38: the check value and the polynomial by evaluation, the initial value and a further byte by the register before the final
inversion, the bound by its width. -/
theorem crc32c_holds : Obligations.Crc32c :=
  ⟨crc32c_check, crcR32_xor_ones _ [], crc32c_poly_reflected, crcR32_append_byte _, crcR32_lt (by decide)⟩

end Sys2Proof.Machine
end

section
/-! PROOFS. Register writes: the record of an access and of a setting leave the register file and the volumes as they are, what a
refused write answers, and what a settable field holds after a write. -/

namespace Sys2Proof.Machine

/-! ## What records leave unchanged -/

/-- Two heads have the same register file and the same volumes. -/
structure Head.sameFiles (k h : Head) : Prop where
  regs : k.regs = h.regs
  vols : k.vols = h.vols

theorem Head.sameFiles.refl (h : Head) : h.sameFiles h := ⟨rfl, rfl⟩

theorem Head.sameFiles.trans {h k j : Head} (hjk : j.sameFiles k) (hkh : k.sameFiles h) : j.sameFiles h :=
  ⟨hjk.regs.trans hkh.regs, hjk.vols.trans hkh.vols⟩

/-- The stored fields are read from the register file alone. -/
theorem Head.sameFiles.cfg {h k : Head} (hk : k.sameFiles h) (r : Reg) (i hi lo : Nat) : k.cfg r i hi lo = h.cfg r i hi lo := by
  simp only [Head.cfg, Head.stored, hk.regs]

/-- A volume is read from the volumes alone. -/
theorem Head.sameFiles.vol {h k : Head} (hk : k.sameFiles h) (n : Nat) : k.vol n = h.vol n := by
  simp only [Head.vol, hk.vols]

theorem setRcd_sameFiles (h : Head) (r : Recorder) : (h.setRcd r).sameFiles h := ⟨rfl, rfl⟩

theorem draw_sameFiles (h : Head) (r n : Nat) (con : Option Nat) : (h.draw r n con).sameFiles h := by
  cases con <;> exact ⟨rfl, rfl⟩

theorem wire_sameFiles (h : Head) (chan : Nat) (fs : List (Nat × PlFrame)) : (h.wire chan fs).sameFiles h := by
  unfold Head.wire
  split
  · exact foldl_keeps (·.sameFiles h) (fun k f => k.emit (.pl (f.2.bytes chan f.1) f.2))
      (fun _ _ hk => ⟨hk.regs, hk.vols⟩) fs h (.refl h)
  · exact .refl h

/-- A mirrored frame changes the link and the budgets, and what is on the wire. -/
theorem mirror_sameFiles (h : Head) (f : PlFrame) : (h.mirror f).1.sameFiles h := by
  unfold Head.mirror
  split
  · exact (wire_sameFiles _ _ _).trans ((draw_sameFiles _ _ _ _).trans ⟨rfl, rfl⟩)
  · exact .refl h

theorem record_sameFiles (h : Head) (r : PRec) : (h.record r).1.sameFiles h := mirror_sameFiles h _

theorem volNumber_sameFiles (h : Head) : h.volNumber.1.sameFiles h := by
  unfold Head.volNumber
  extract_lets
  split
  · exact setRcd_sameFiles _ _
  · split
    · exact (setRcd_sameFiles _ _).trans ((record_sameFiles _ _).trans ⟨rfl, rfl⟩)
    · exact setRcd_sameFiles _ _

theorem newRecord_sameFiles (h : Head) (e : Event) : (h.newRecord e).sameFiles h := by
  unfold Head.newRecord
  extract_lets
  split
  · exact (setRcd_sameFiles _ _).trans (volNumber_sameFiles h)
  · split
    · exact setRcd_sameFiles _ _
    · split <;> exact setRcd_sameFiles _ _

theorem event_sameFiles (h : Head) (code sev slot srck srci a0 a1 a2 : Nat) :
    (h.event code sev slot srck srci a0 a1 a2).sameFiles h := by
  unfold Head.event
  extract_lets
  split
  · split
    · exact setRcd_sameFiles _ _
    · exact newRecord_sameFiles h _
  · exact newRecord_sameFiles h _

theorem audit_sameFiles (h : Head) (slot : Nat) (queue : Option Nat) (action status : Nat) (refused : Bool) :
    (h.audit slot queue action status refused).sameFiles h := by
  cases queue <;> exact event_sameFiles h _ _ _ _ _ _ _ _

/-- The record of a register access (R418) is an event at most. -/
theorem auditReg_sameFiles (h : Head) (c : Caller) (d : RegDef) (i : Nat) (s : Status) (refused : Bool) :
    (h.auditReg c d i s refused).sameFiles h := by
  unfold Head.auditReg
  split
  · exact audit_sameFiles h _ _ _ _ _
  · exact .refl h

/-! ## What a write answers -/

/-- A check that fails answers INVALID or TIER, never OK. -/
theorem writeCheck_ne_ok (h : Head) (c : Caller) (d : RegDef) (i : Nat) (v : Word) : h.writeCheck c d i v ≠ some .ok := by
  unfold Head.writeCheck
  dsimp only
  split_ifs <;> simp only [ne_eq, Option.some.injEq, reduceCtorEq, not_false_eq_true]

/-- A write that answers OK passed the checks of R40. -/
theorem accepts_of_writeWith_ok {h k : Head} {c : Caller} {d : RegDef} {i : Nat} {v : Word} {act : Head → WriteResult}
    (hk : h.writeWith c d i v act = .ok (k, .ok)) : h.accepts c d i v = true := by
  cases hs : h.writeCheck c d i v with
  | none => simp only [Head.accepts, hs, Option.isNone_none]
  | some s =>
    rw [writeWith_refused _ _ _ _ _ _ _ hs] at hk
    injection hk with hk
    exact absurd ((Prod.mk.inj hk).2 ▸ hs) (writeCheck_ne_ok h c d i v)

/-! ## What a field holds after a write -/

/-- The bits of a field. -/
theorem testBit_bits (x hi lo j : Nat) : (bits x hi lo).testBit j = (decide (j < hi + 1 - lo) && x.testBit (lo + j)) := by
  simp only [bits, Nat.testBit_mod_two_pow, Nat.testBit_shiftRight]

/-- A field whose bits a mask takes from the word written holds the value written. -/
theorem bits_merge {m : Word} {hi lo : Nat} (hm : ∀ j, j < hi + 1 - lo → m.getLsbD (lo + j) = true) (old v : Word) :
    bits (old &&& ~~~m ||| v &&& m).toNat hi lo = bits v.toNat hi lo := by
  refine Nat.eq_of_testBit_eq fun j => ?_
  simp only [testBit_bits, BitVec.testBit_toNat]
  by_cases hj : j < hi + 1 - lo
  · simp [hm j hj]
  · simp [hj]

/-- A stored register reads as it was written, in a register file in canonical form. -/
theorem stored_store {h : Head} (hc : canon 0 h.regs = true) (copy : Nat) (r : Reg) (i : Nat) (v : Word) :
    (h.store copy r i v).stored copy r i = v := by
  simp only [Head.store, Head.stored, look_place_same 0 _ _ _ hc, BitVec.xor_assoc, BitVec.xor_self, BitVec.xor_zero]

/-- The register file after a write: the mirrored setting leaves it as stored. -/
theorem setReg_sameFiles (h : Head) (c : Caller) (d : RegDef) (i : Nat) (v : Word) :
    (h.setReg c d i v).sameFiles (h.store (d.copy c.side) d.reg i
      (h.stored (d.copy c.side) d.reg i &&& ~~~BitVec.ofNat 64 d.rwBits ||| v &&& BitVec.ofNat 64 d.rwBits)) := by
  unfold Head.setReg
  split
  · exact record_sameFiles _ _
  · exact .refl _

end Sys2Proof.Machine
end

section
/-! PROOFS. Consistency groups (R308): one volume replaced, what a write of VCG does, and the statement. -/

namespace Sys2Proof.Machine

/-! ## The first element that passes a test, replaced -/

/-- Where the replacement passes the same test, it is what the test finds. -/
theorem find?_mapFirst_same {α : Type} {p : α → Bool} {f : α → α} (hf : ∀ a, p a = true → p (f a) = true) :
    ∀ l : List α, (mapFirst p f l).find? p = (l.find? p).map f
  | [] => rfl
  | a :: r => by
    cases ha : p a with
    | true => simp only [mapFirst, ha, if_true, List.find?_cons, hf a ha, Option.map_some]
    | false => simp only [mapFirst, ha, Bool.false_eq_true, if_false, List.find?_cons, find?_mapFirst_same hf r]

/-- A test that neither the element nor its replacement passes finds what it found. -/
theorem find?_mapFirst_other {α : Type} {p q : α → Bool} {f : α → α} (hf : ∀ a, p a = true → q a = false ∧ q (f a) = false) :
    ∀ l : List α, (mapFirst p f l).find? q = l.find? q
  | [] => rfl
  | a :: r => by
    cases ha : p a with
    | true => simp only [mapFirst, ha, if_true, List.find?_cons, hf a ha]
    | false => simp only [mapFirst, ha, Bool.false_eq_true, if_false, List.find?_cons, find?_mapFirst_other hf r]

/-! ## One volume changed -/

/-- The volumes after a change of one: its record leaves them. -/
theorem updVol_sameFiles (h : Head) (n : Nat) (f : Volume → Volume) : (h.updVol n f).1.sameFiles (h.updVol' n f) := by
  unfold Head.updVol
  dsimp only
  split
  · exact record_sameFiles _ _
  · exact .refl _

/-- A volume whose number a change keeps is found as changed. -/
theorem vol_updVol'_same {f : Volume → Volume} (hf : ∀ x, (f x).num = x.num) (h : Head) (n : Nat) :
    (h.updVol' n f).vol n = (h.vol n).map f :=
  find?_mapFirst_same (fun x hx => by simpa only [hf] using hx) _

/-- A change of one volume that keeps its number leaves every other. -/
theorem vol_updVol'_other {f : Volume → Volume} (hf : ∀ x, (f x).num = x.num) (h : Head) {n m : Nat} (hm : m ≠ n) :
    (h.updVol' n f).vol m = h.vol m := by
  refine find?_mapFirst_other (fun x hx => ?_) _
  have hx : x.num = n := of_decide_eq_true hx
  simp only [hf, hx, hm.symm, decide_false, and_self]

/-! ## The effect of a write of VCG -/

theorem writeReg_vcg (h : Head) (c : Caller) (t : Option Nat) (n : Nat) (v : Word) :
    h.writeReg c t Reg.VCG.row n v = h.writeWith c Reg.VCG.row n v (fun h => h.doVcg c n v) := rfl

/-- The volume, its old group or its new group is under REPLICATE. -/
def Head.groupHeld (h : Head) (x : Volume) (g : Nat) : Prop :=
  h.replicating false x.num = true ∨ (x.group ≠ 0 ∧ h.replicating true x.group = true) ∨ (g ≠ 0 ∧ h.replicating true g = true)

/-- The test that a write of VCG makes. -/
theorem held_iff (h : Head) (x : Volume) (g : Nat) :
    (h.volReplicating x || (g ≠ 0 && h.replicating true g)) = true ↔ h.groupHeld x g := by
  simp only [Head.groupHeld, Head.volReplicating, Bool.or_eq_true, Bool.and_eq_true, decide_eq_true_eq, or_assoc]

/-- A volume put in a group. -/
def Volume.inGroup (g : Nat) (x : Volume) : Volume := { x with group := g }

theorem num_inGroup (g : Nat) (x : Volume) : (x.inGroup g).num = x.num := rfl

theorem doVcg_no_volume {h : Head} {n : Nat} (hn : h.vol n = none) (c : Caller) (v : Word) :
    h.doVcg c n v = .ok (h, .invalid) := by
  simp only [Head.doVcg, hn, Head.noWrite]

theorem doVcg_held {h : Head} {n : Nat} {x : Volume} {v : Word} (hx : h.vol n = some x) (hg : h.groupHeld x (bits v.toNat 9 0))
    (c : Caller) : h.doVcg c n v = .ok (h, .invalid) := by
  rw [← held_iff] at hg
  simp only [Head.doVcg, hx, hg, if_true, Head.noWrite]

theorem doVcg_free {h : Head} {n : Nat} {x : Volume} {v : Word} (hx : h.vol n = some x) (hg : ¬ h.groupHeld x (bits v.toNat 9 0))
    (c : Caller) : h.doVcg c n v = .ok ((h.updVol n (Volume.inGroup (bits v.toNat 9 0))).1, .ok) := by
  rw [← held_iff, Bool.not_eq_true] at hg
  simp only [Head.doVcg, hx, hg, Bool.false_eq_true, if_false]
  rfl

/-! ## The statement -/

/-- Settles O37: the three outcomes of `doVcg` by what the volume is and what REPLICATE holds; the volumes after the change by
`updVol'`, which the records leave as it is. -/
theorem volumeGroups : Obligations.VolumeGroups := by
  intro h c t n v ha g
  have answers : ∀ {k : Head} {st : Status}, h.doVcg c n v = .ok (k, st) →
      h.writeReg c t Reg.VCG.row n v = .ok (k.auditReg c Reg.VCG.row n st false, st) :=
    fun hk => (writeReg_vcg h c t n v).trans (writeWith_accepts h c _ n v _ ha _ _ hk)
  refine ⟨Nat.le_of_lt_succ (Nat.mod_lt _ (by decide)), fun hn => answers (doVcg_no_volume hn c v), fun x hx =>
    ⟨fun hg => answers (doVcg_held hx hg c), fun hv ho hg => ?_⟩⟩
  have free : ¬ h.groupHeld x g := by
    rintro (hr | ⟨hne, hr⟩ | ⟨hne, hr⟩)
    · simp only [hv, Bool.false_eq_true] at hr
    · simp only [ho.resolve_left hne, Bool.false_eq_true] at hr
    · simp only [hg.resolve_left hne, Bool.false_eq_true] at hr
  have same := (auditReg_sameFiles _ c Reg.VCG.row n .ok false).trans (updVol_sameFiles h n (Volume.inGroup g))
  refine ⟨_, answers (doVcg_free hx free c), ?_, fun m hm => ?_⟩
  · rw [same.vol, vol_updVol'_same (num_inGroup g), hx]
    rfl
  · rw [same.vol, vol_updVol'_other (num_inGroup g) h hm]

end Sys2Proof.Machine
end

section
/-! PROOFS. The bound between ALIM.LEHR and LEHRCFG.SIZE (R277): the writes that keep it and those that would break it. SIZE reads as it
was written where the register file is in canonical form; the statement does not ask for that form, and fails without it. -/

namespace Sys2Proof.Machine

/-! ## The effect of the two writes -/

/-- ALIM.LEHR above the bound. -/
theorem doAlim_above {h : Head} {v : Word} (hv : 1024 * h.cfg .LEHRCFG 0 7 0 < bits v.toNat 47 32 + 2048) (c : Caller) :
    h.doAlim c v = .ok (h, .invalid) := by
  simp only [Head.doAlim, hv, decide_true, Bool.or_true, if_true, Head.noWrite]

/-- LEHRCFG.SIZE too small for ALIM.LEHR. -/
theorem doLehrcfg_below {h : Head} {v : Word} (hv : 1024 * bits v.toNat 7 0 < h.cfg .ALIM 0 47 32 + 2048) (c : Caller) :
    h.doLehrcfg c v = .ok (h, .invalid) := by
  simp only [Head.doLehrcfg, hv, if_true, Head.noWrite]

/-- LEHRCFG.SIZE that keeps the bound. -/
theorem doLehrcfg_within {h : Head} {v : Word} (hv : h.cfg .ALIM 0 47 32 + 2048 ≤ 1024 * bits v.toNat 7 0) (c : Caller) :
    h.doLehrcfg c v = .ok (h.setReg c Reg.LEHRCFG.row 0 v, .ok) := by
  simp only [Head.doLehrcfg, Nat.not_lt.mpr hv, if_false]

/-- A write of LEHRCFG takes every bit of SIZE from the word written. -/
theorem size_settable : ∀ j, j < 8 → (BitVec.ofNat 64 Reg.LEHRCFG.row.rwBits).getLsbD (0 + j) = true := by decide

/-- SIZE after a write, in a register file in canonical form. -/
theorem cfg_setReg_lehrcfg {h : Head} (hc : canon 0 h.regs = true) (c : Caller) (v : Word) :
    (h.setReg c Reg.LEHRCFG.row 0 v).cfg .LEHRCFG 0 7 0 = bits v.toNat 7 0 := by
  rw [(setReg_sameFiles h c _ 0 v).cfg]
  exact (congrArg (fun w : Word => bits w.toNat 7 0) (stored_store hc 0 .LEHRCFG 0 _)).trans (bits_merge size_settable _ v)

/-! ## The writes -/

theorem writeReg_alim (h : Head) (c : Caller) (t : Option Nat) (v : Word) :
    h.writeReg c t Reg.ALIM.row 0 v = h.writeWith c Reg.ALIM.row 0 v (fun h => h.doAlim c v) := rfl
theorem writeReg_lehrcfg (h : Head) (c : Caller) (t : Option Nat) (v : Word) :
    h.writeReg c t Reg.LEHRCFG.row 0 v = h.writeWith c Reg.LEHRCFG.row 0 v (fun h => h.doLehrcfg c v) := rfl

theorem write_alim_above {h : Head} {c : Caller} {v : Word} (ha : h.accepts c Reg.ALIM.row 0 v = true)
    (hv : 1024 * h.cfg .LEHRCFG 0 7 0 < bits v.toNat 47 32 + 2048) (t : Option Nat) :
    h.writeReg c t Reg.ALIM.row 0 v = .ok (h.auditReg c Reg.ALIM.row 0 .invalid false, .invalid) :=
  (writeReg_alim h c t v).trans (writeWith_accepts h c _ 0 v _ ha _ _ (doAlim_above hv c))

theorem write_lehrcfg_below {h : Head} {c : Caller} {v : Word} (ha : h.accepts c Reg.LEHRCFG.row 0 v = true)
    (hv : 1024 * bits v.toNat 7 0 < h.cfg .ALIM 0 47 32 + 2048) (t : Option Nat) :
    h.writeReg c t Reg.LEHRCFG.row 0 v = .ok (h.auditReg c Reg.LEHRCFG.row 0 .invalid false, .invalid) :=
  (writeReg_lehrcfg h c t v).trans (writeWith_accepts h c _ 0 v _ ha _ _ (doLehrcfg_below hv c))

theorem write_lehrcfg_within {h : Head} {c : Caller} {v : Word} (ha : h.accepts c Reg.LEHRCFG.row 0 v = true)
    (hv : h.cfg .ALIM 0 47 32 + 2048 ≤ 1024 * bits v.toNat 7 0) (t : Option Nat) :
    h.writeReg c t Reg.LEHRCFG.row 0 v =
      .ok ((h.setReg c Reg.LEHRCFG.row 0 v).auditReg c Reg.LEHRCFG.row 0 .ok false, .ok) :=
  (writeReg_lehrcfg h c t v).trans (writeWith_accepts h c _ 0 v _ ha _ _ (doLehrcfg_within hv c))

/-- A write of ALIM that answers OK keeps the bound. -/
theorem alim_bound_of_write_ok {h k : Head} {c : Caller} {t : Option Nat} {v : Word}
    (hk : h.writeReg c t Reg.ALIM.row 0 v = .ok (k, .ok)) : bits v.toNat 47 32 + 2048 ≤ 1024 * h.cfg .LEHRCFG 0 7 0 := by
  rw [writeReg_alim] at hk
  by_contra hv
  have refused := write_alim_above (accepts_of_writeWith_ok hk) (Nat.lt_of_not_le hv) t
  rw [writeReg_alim, hk] at refused
  simp only [Except.ok.injEq, Prod.mk.injEq, reduceCtorEq, and_false] at refused

/-- A write of SIZE that keeps the bound sets SIZE, in a register file in canonical form. -/
theorem write_lehrcfg_sets {h : Head} (hc : canon 0 h.regs = true) {c : Caller} {v : Word}
    (ha : h.accepts c Reg.LEHRCFG.row 0 v = true) (hv : h.cfg .ALIM 0 47 32 + 2048 ≤ 1024 * bits v.toNat 7 0) (t : Option Nat) :
    ∃ k, h.writeReg c t Reg.LEHRCFG.row 0 v = .ok (k, .ok) ∧ k.cfg .LEHRCFG 0 7 0 = bits v.toNat 7 0 :=
  ⟨_, write_lehrcfg_within ha hv t, ((auditReg_sameFiles _ c _ 0 _ _).cfg _ _ _ _).trans (cfg_setReg_lehrcfg hc c v)⟩

/-! ## The statement -/

/-- A head whose islands run and whose register file lists LEHRCFG twice, each time as 32 GiB (56 is what 32 differs from the default
24 by). A table in canonical form lists a key once. -/
def lehrcfgTwice : Head :=
  { Head.blank with
    regs := [(regKey 0 .LEHRCFG 0, 56), (regKey 0 .LEHRCFG 0, 56)]
    sys := { Sys.blank with islands := List.replicate 22 { Island.blank with st := .running } } }

/-- A write of 24 GiB, the default, there: it passes every check and keeps the bound, takes the first entry off the list, and the second
still gives 32. -/
theorem lehrcfgTwice_write :
    lehrcfgTwice.accepts ⟨.I, 64, 0, none, 0, 0⟩ Reg.LEHRCFG.row 0 24 = true ∧
    lehrcfgTwice.cfg .ALIM 0 47 32 + 2048 ≤ 1024 * bits (24 : Word).toNat 7 0 ∧
    (lehrcfgTwice.setReg ⟨.I, 64, 0, none, 0, 0⟩ Reg.LEHRCFG.row 0 24).cfg .LEHRCFG 0 7 0 = 32 := by decide +kernel

/-- Refutes O43: the statement asks for no canonical register file. Where LEHRCFG is listed twice as 32 GiB, an installer's write of
24 GiB, which keeps the bound, completes with OK, and SIZE still reads 32. That clause alone fails: with a canonical register file it
is `write_lehrcfg_sets`, and in every state the others are `write_alim_above`, `write_lehrcfg_below` and `alim_bound_of_write_ok`. -/
theorem not_lehrBound : ¬ Obligations.LehrBound := by
  intro hb
  obtain ⟨ha, hv, hr⟩ := lehrcfgTwice_write
  obtain ⟨k, hk, hs⟩ := ((hb lehrcfgTwice ⟨.I, 64, 0, none, 0, 0⟩ none 24).2.1 ha).2 hv
  rw [write_lehrcfg_within ha hv] at hk
  obtain ⟨rfl, -⟩ := Prod.mk.inj (Except.ok.inj hk)
  rw [(auditReg_sameFiles _ _ _ _ _ _).cfg, hr] at hs
  exact absurd hs (by decide)

end Sys2Proof.Machine
end

section
/-! PROOFS. What a command can answer at all: a next state with the same queue, or, for six rows, the one fault; from it the statements about the
queue of waiting commands and about stops. -/

namespace Sys2Proof.Machine

/-! ## The answers allowed -/

/-- An outcome from a state is no refusal, a fault only where `fault` allows one, and a next state with the same queue. -/
def State.answers (s : State) (fault : Bool) : Host.Outcome State Fault Refusal → Prop
  | .next t => t.pending = s.pending
  | .fault _ => fault = true
  | .refused _ => False

theorem runE_answers (s : State) (f : Head → Except Fault Head) : s.answers true (s.runE f) := by
  unfold State.runE
  cases f s.head <;> rfl

theorem runE_answers_of_isOk {s : State} {f : Head → Except Fault Head} (hf : (f s.head).isOk = true) (b : Bool) :
    s.answers b (s.runE f) := by
  unfold State.runE
  cases hk : f s.head with
  | ok h => rfl
  | error e => rw [hk] at hf; exact absurd hf (by simp only [Except.isOk, Except.toBool, Bool.false_eq_true, not_false_eq_true])

/-! ## Register writes that have no undefined outcome -/

theorem writeWith_isOk {act : Head → WriteResult} (ha : ∀ h, (act h).isOk = true) (h : Head) (c : Caller) (d : RegDef) (i : Nat)
    (v : Word) : (h.writeWith c d i v act).isOk = true := by
  unfold Head.writeWith
  split
  · rfl
  · have := ha h
    split
    · rename_i he; rw [he] at this; exact this
    · rfl

theorem writeInstaller_isOk {act : Head → WriteResult} (ha : ∀ h, (act h).isOk = true) (h : Head) (c : Caller) (d : RegDef) (i : Nat)
    (v : Word) : (h.writeInstaller c d i v act).isOk = true := by
  unfold Head.writeInstaller
  split
  · rfl
  · exact writeWith_isOk ha h c d i v

theorem write_answers {s : State} {f : Head → WriteResult} (hf : (f s.head).isOk = true) (b : Bool) : s.answers b (s.write f) := by
  refine runE_answers_of_isOk ?_ b
  split
  · rename_i he; rw [he] at hf; exact hf
  · rfl

theorem untilGone_isOk {x : WriteResult} (hx : x.isOk = true) (h : Head) (going : Head → Bool) (pool : Bool) (n : Nat) :
    (h.untilGone x going pool n).isOk = true := by
  unfold Head.untilGone
  split
  · exact hx
  · split <;> rfl

theorem loadTable_isOk (h : Head) (c : Caller) (v : Word) (typ : Nat) (form fits : List Byte → Bool) :
    (h.loadTable c v typ form fits).isOk = true := by
  unfold Head.loadTable
  split
  · rfl
  · split <;> rfl

theorem doTable_isOk (h : Head) (c : Caller) (r : Reg) (v : Word) : (h.doTable c r v).isOk = true := by
  unfold Head.doTable
  split <;> exact loadTable_isOk ..

theorem doTapeTable_isOk (h : Head) (c : Caller) (r : Reg) (v : Word) : (h.doTapeTable c r v).isOk = true := by
  unfold Head.doTapeTable
  split <;> exact loadTable_isOk ..

theorem doAdmtab_isOk (h : Head) (c : Caller) (v : Word) : (h.doAdmtab c v).isOk = true := by
  unfold Head.doAdmtab
  split
  · rfl
  · dsimp only; split <;> rfl

theorem doPoolctl_isOk (h : Head) (c : Caller) (v : Word) : (h.doPoolctl c v).isOk = true := by
  unfold Head.doPoolctl
  split
  · rfl
  · dsimp only; split_ifs <;> rfl

theorem doVolctl_isOk (h : Head) (c : Caller) (v : Word) : (h.doVolctl c v).isOk = true := by
  unfold Head.doVolctl
  split
  · rfl
  · dsimp only
    split
    · split <;> rfl
    · split
      · split
        · rfl
        · split <;> rfl
      · rfl

theorem doTlcfg_isOk (h : Head) (c : Caller) (p : Nat) (v : Word) : (h.doTlcfg c p v).isOk = true := by
  unfold Head.doTlcfg
  dsimp only; split_ifs <;> rfl

theorem doEcct_isOk (h : Head) (v : Word) : (h.doEcct v).isOk = true := by
  unfold Head.doEcct
  dsimp only; split_ifs <;> rfl

theorem doKeyenr_isOk (h : Head) (c : Caller) (v : Word) : (h.doKeyenr c v).isOk = true := by
  unfold Head.doKeyenr
  split
  · rfl
  · split
    · rfl
    · split <;> rfl

theorem writeMkacc_isOk (h : Head) (c : Caller) (v : Word) : (h.writeMkacc c v).isOk = true := by
  unfold Head.writeMkacc
  split
  · rfl
  · exact writeWith_isOk (fun _ => rfl) ..

theorem importPool_isOk (h : Head) (n : Nat) (key : List Byte) : (h.importPool n key).isOk = true := by
  unfold Head.importPool
  split
  · rfl
  · split <;> rfl

theorem doKeyimp_isOk (h : Head) (c : Caller) (v : Word) : (h.doKeyimp c v).isOk = true := by
  unfold Head.doKeyimp
  split
  · rfl
  · dsimp only
    split
    · rfl
    · split_ifs
      any_goals rfl
      exact importPool_isOk ..

theorem doDgctx_isOk (h : Head) (c : Caller) (i : Nat) (v : Word) : (h.doDgctx c i v).isOk = true := by
  unfold Head.doDgctx
  dsimp only
  split
  · rfl
  · split
    · rfl
    · split
      · rfl
      · split
        · rfl
        · split
          · rfl
          · split_ifs <;> rfl

theorem doIsrst_isOk (h : Head) (c : Caller) (v : Word) : (h.doIsrst c v).isOk = true := by
  unfold Head.doIsrst
  dsimp only
  split_ifs
  any_goals rfl
  split <;> rfl

/-! ## SMBus transfers that have no undefined outcome -/

theorem smbus_isOk {f : Head → SmbResult} {h : Head} (hf : (f h).isOk = true) (pec : Bool) (after : Head → Head) :
    (h.smbus pec after f).isOk = true := by
  unfold Head.smbus
  split_ifs
  · rfl
  · rfl
  · split
    · rename_i he; rw [he] at hf; exact hf
    · rfl

theorem smbus_answers {s : State} {f : Head → SmbResult} (hf : (f s.head).isOk = true) (pec : Bool) (after : Head → Head) (b : Bool) :
    s.answers b (s.smbus pec after f) := by
  refine runE_answers_of_isOk ?_ b
  have := smbus_isOk hf pec after
  split
  · rename_i he; rw [he] at this; exact this
  · rfl

theorem smbSaid_isOk (h : Head) (st : Status) (tier : Nat) : (h.smbSaid st tier).isOk = true := rfl

theorem smbHello_isOk (h : Head) (pay : List Byte) : (h.smbHello pay).isOk = true := by
  unfold Head.smbHello
  dsimp only
  split_ifs <;> rfl

theorem smbProof_isOk (h : Head) (sig : List Byte) : (h.smbProof sig).isOk = true := by
  unfold Head.smbProof
  dsimp only
  split
  · rfl
  · split
    · rfl
    · split <;> rfl

theorem execSmbSession_answers (s : State) (pec : Bool) (step : Nat) (pay : List Byte) (b : Bool) :
    s.answers b (execSmbSession pec step pay s) := by
  refine smbus_answers ?_ ..
  split
  · exact smbHello_isOk ..
  · split
    · exact smbProof_isOk ..
    · exact smbSaid_isOk ..

theorem execSmbStateGet_answers (s : State) (pec : Bool) (a : Nat) (b : Bool) : s.answers b (execSmbStateGet pec a s) := by
  refine smbus_answers ?_ ..
  split <;> rfl

theorem execSmbEventPart_answers (s : State) (pec : Bool) (seq part : Nat) (b : Bool) :
    s.answers b (execSmbEventPart pec seq part s) := by
  refine smbus_answers ?_ ..
  split
  · rfl
  · split
    · rfl
    · split <;> rfl

theorem execSmbEventClear_answers (s : State) (pec : Bool) (b : Bool) : s.answers b (execSmbEventClear pec s) := by
  refine smbus_answers ?_ ..
  split
  · rfl
  · split <;> rfl

theorem execSmbReset_answers (s : State) (pec : Bool) (scope n : Nat) (b : Bool) : s.answers b (execSmbReset pec scope n s) :=
  smbus_answers rfl ..

theorem execSmbImageWrite_answers (s : State) (pec : Bool) (off : Nat) (bytes : List Byte) (b : Bool) :
    s.answers b (execSmbImageWrite pec off bytes s) := by
  refine smbus_answers ?_ ..
  split
  · rfl
  · split <;> rfl

theorem execSmbImageEnd_answers (s : State) (pec : Bool) (len : Nat) (b : Bool) : s.answers b (execSmbImageEnd pec len s) := by
  refine smbus_answers ?_ ..
  split
  · rfl
  · dsimp only
    split <;> rfl

theorem execClaim_answers (s : State) (pec : Bool) (rcd : List Byte) (b : Bool) : s.answers b (execClaim pec rcd s) := by
  refine smbus_answers ?_ ..
  split
  · rfl
  · split <;> rfl

theorem execSmbBscanEnter_answers (s : State) (pec : Bool) (b : Bool) : s.answers b (execSmbBscanEnter pec s) := by
  refine smbus_answers ?_ ..
  split <;> rfl

theorem execSmbBscanLeave_answers (s : State) (pec : Bool) (b : Bool) : s.answers b (execSmbBscanLeave pec s) := by
  refine smbus_answers ?_ ..
  split <;> rfl

theorem execSmbTap_answers (s : State) (pec : Bool) (n : Nat) (tms tdi : List Bool) (b : Bool) :
    s.answers b (execSmbTap pec n tms tdi s) := by
  refine smbus_answers ?_ ..
  split
  · rfl
  · split <;> rfl

/-! ## Every command -/

/-- What a command answers: those not named act on the head alone; the others write a register or answer over SMBus. -/
theorem exec_answers (i : Instr) (s : State) : s.answers (mayFault i) (exec i s) := by
  have writes : ∀ {d : RegDef} {c : Caller} {n : Nat} {v : Word} {act : Head → WriteResult} (b : Bool),
      (∀ h, (act h).isOk = true) → s.answers b (s.write (fun h => h.writeWith c d n v act)) :=
    fun b ha => write_answers (writeWith_isOk ha ..) b
  have installs : ∀ {d : RegDef} {c : Caller} {n : Nat} {v : Word} {act : Head → WriteResult} (b : Bool),
      (∀ h, (act h).isOk = true) → s.answers b (s.write (fun h => h.writeInstaller c d n v act)) :=
    fun b ha => write_answers (writeInstaller_isOk ha ..) b
  have faultWrites : ∀ {d : RegDef} {c : Caller} {n : Nat} {v : Word} {act : Head → WriteResult},
      s.answers true (s.write (fun h => h.writeWith c d n v act)) := runE_answers s _
  cases i
  case engcfgInvi | engcfgInvd | l2cfgInv | l2cfgLockDisWrite => exact faultWrites
  case stateSet t w => exact runE_answers s (fun h => h.issueE t ..)
  case smbStateSet pec a v => exact runE_answers s (fun h => match h.smbus pec id _ with | .error e => .error e | .ok h => .ok h.settle)
  case admtabLoad c v => exact writes _ (doAdmtab_isOk · c v)
  case drgearLoad c v => exact writes _ (doTable_isOk · c .DRGEAR v)
  case drhufLoad c v => exact writes _ (doTable_isOk · c .DRHUF v)
  case nffamLoad c v => exact writes _ (doTable_isOk · c .NFFAM v)
  case nfldpcLoad c v => exact writes _ (doTable_isOk · c .NFLDPC v)
  case tpladLoad c v => exact writes _ (doTapeTable_isOk · c .TPLAD v)
  case tpeqLoad c v => exact writes _ (doTapeTable_isOk · c .TPEQ v)
  case tplnkLoad c v => exact writes _ (doTapeTable_isOk · c .TPLNK v)
  case poolCreate c v => exact writes _ (doPoolctl_isOk · c v)
  case volumeCreate c v => exact writes _ (doVolctl_isOk · c v)
  case poolDelete c v => exact runE_answers_of_isOk (f := fun h => h.untilGone ..) (untilGone_isOk (writeWith_isOk (doPoolctl_isOk · c v) ..) ..) _
  case volumeDelete c v => exact runE_answers_of_isOk (f := fun h => h.untilGone ..) (untilGone_isOk (writeWith_isOk (doVolctl_isOk · c v) ..) ..) _
  case hpcfgWrite | hpolWrite | evtimeWrite | fncctlForce | wdkick | tlregWrite => exact writes _ (fun _ => rfl)
  case tlcfgEnWrite c p v => exact writes _ (doTlcfg_isOk · c p v)
  case ecctRawWrite c v | ecctRawRead c v => exact writes _ (doEcct_isOk · v)
  case keyEnrol c v | keyRemove c v => exact write_answers (f := (·.doKeyenr c v)) (doKeyenr_isOk _ c v) _
  case mkaccWrite c v => exact write_answers (f := (·.writeMkacc c v)) (writeMkacc_isOk _ c v) _
  case keyimpPoolKey c v | keyimpHmacKey c v | keyimpErase c v => exact installs _ (doKeyimp_isOk · c v)
  case dgctxHashInit c n v | dgctxHmacInner c n v | dgctxHmacOuter c n v => exact writes _ (doDgctx_isOk · c n v)
  case isrstQuiesce c v | isrstReset c v | isrstQuiesceReset c v => exact writes _ (doIsrst_isOk · c v)
  case smbSession pec n pay => exact execSmbSession_answers s pec n pay _
  case smbStateGet pec a => exact execSmbStateGet_answers s pec a _
  case smbEventPart pec n p => exact execSmbEventPart_answers s pec n p _
  case smbEventClear pec => exact execSmbEventClear_answers s pec _
  case smbReset pec scope n => exact execSmbReset_answers s pec scope n _
  case smbImageWrite pec off l => exact execSmbImageWrite_answers s pec off l _
  case smbImageEnd pec len => exact execSmbImageEnd_answers s pec len _
  case claim pec rcd => exact execClaim_answers s pec rcd _
  case smbBscanEnter pec => exact execSmbBscanEnter_answers s pec _
  case smbBscanLeave pec => exact execSmbBscanLeave_answers s pec _
  case smbTap pec n tms tdi => exact execSmbTap_answers s pec n tms tdi _
  all_goals exact rfl

/-! ## The statements -/

theorem pending_of_answers {s t : State} {b : Bool} {o : Host.Outcome State Fault Refusal} (ha : s.answers b o) (ho : o = .next t) :
    t.pending = s.pending := by
  subst ho
  exact ha

/-- Settles O1: the two arms of `step`. -/
theorem stepTakesFront : Obligations.StepTakesFront :=
  ⟨fun s c rest hs => by unfold step; rw [hs], fun s hs => by unfold step; rw [hs]⟩

/-- Settles O2: by `exec_answers` a command answers a state with the queue it was given, so a step leaves the rest of the queue. -/
theorem queueOkKept : Obligations.QueueOkKept := by
  refine ⟨fun i s t ht => pending_of_answers (exec_answers i s) ht, fun s t hs ht => ?_⟩
  obtain ⟨front, idle⟩ := stepTakesFront
  cases hp : s.pending with
  | nil =>
    rw [idle s hp] at ht
    exact Host.Outcome.next.inj ht ▸ hs
  | cons c rest =>
    rw [front s c rest hp] at ht
    have kept := pending_of_answers (exec_answers c _) ht
    simp only [State.queueOk, hp, List.all_cons, Bool.and_eq_true] at hs
    rw [State.queueOk, kept]
    exact hs.2

/-- Settles O3: `exec_answers` allows no refusal, and a fault only where `mayFault` does. -/
theorem nothingRefused : Obligations.NothingRefused := by
  intro i s
  have ha := exec_answers i s
  refine ⟨fun r hr => ?_, fun e he => ?_⟩
  · rw [hr] at ha
    exact ha
  · rw [he] at ha
    exact ha

end Sys2Proof.Machine
end

section
/-! PROOFS. Twizon words: each instruction decodes from its own word, and words written out bit by bit decode to what they spell. -/

namespace Sys2Proof.Machine

open Sys2Proof.Laws

/-- Settles O58: the law of each instruction's own word (`Laws.Shape`); the other rows are no Twizon instructions. -/
theorem encodeDecode : Obligations.EncodeDecode := by
  intro i
  cases i
  case aluReg => exact Shape.aluReg _ _
  case aluImm => exact Shape.aluImm _ _
  case li => exact Shape.li _ _
  case lih => exact Shape.lih _ _
  case cmpReg => exact Shape.cmpReg _ _
  case cmpImm => exact Shape.cmpImm _ _
  case ld => exact Shape.ld _ _ _
  case st => exact Shape.st _ _
  case amo => exact Shape.amo _ _
  case fence => exact Shape.fence _ _
  case br => exact Shape.br _ _
  case call => exact Shape.call _ _
  case jr => exact Shape.jr _ _
  case endp => exact Shape.endp _ _
  case waitv => exact Shape.waitv _ _
  case trap => exact Shape.trap _ _
  case nop => exact Shape.nop _ _
  case clrvs => exact Shape.clrvs _ _
  case qput => exact Shape.qput _ _
  case qget => exact Shape.qget _ _
  case qtry => exact Shape.qtry _ _
  case sig => exact Shape.sig _ _
  case waits => exact Shape.waits _ _
  case eret => exact Shape.eret _ _
  case cinv => exact Shape.cinv _ _
  case cwb => exact Shape.cwb _ _
  case cwbi => exact Shape.cwbi _ _
  case iinv => exact Shape.iinv _ _
  case lockfill => exact Shape.lockfill _ _
  case idle => exact Shape.idle _ _
  case halt => exact Shape.halt _ _
  case dispatch => exact Shape.dispatch _ _
  case stateGet => exact Shape.stateGet _ _
  case stateSet => exact Shape.stateSet _ _
  case put => exact Shape.put _ _
  case puta => exact Shape.puta _ _
  case get => exact Shape.get _ _
  case flush => exact Shape.flush _ _
  case mark => exact Shape.mark _ _
  case drop => exact Shape.drop _ _
  case sdrop => exact Shape.sdrop _ _
  case snap => exact Shape.snap _ _
  case clone => exact Shape.clone _ _
  case replicateStart => exact Shape.replicateStart _ _
  case replicateStop => exact Shape.replicateStop _ _
  case replicateReport => exact Shape.replicateReport _ _
  case windowOpen => exact Shape.windowOpen _ _
  case windowRevoke => exact Shape.windowRevoke _ _
  case arm => exact Shape.arm _ _
  case contractOpen => exact Shape.contractOpen _ _
  case contractClose => exact Shape.contractClose _ _
  case archive => exact Shape.archive _ _
  case restore => exact Shape.restore _ _
  case digest => exact Shape.digest _ _
  case attest => exact Shape.attest _ _
  case journalRead => exact Shape.journalRead _ _
  case eventRead => exact Shape.eventRead _ _
  case eventClear => exact Shape.eventClear _ _
  case qreset => exact Shape.qreset _ _
  case resetHead => exact Shape.resetHead _ _
  case dozeEnter => exact Shape.dozeEnter _ _
  case dozeLeave => exact Shape.dozeLeave _ _
  case updateStage => exact Shape.updateStage _ _
  case updateActivate => exact Shape.updateActivate _ _
  case confirm => exact Shape.confirm _ _
  case chunk => exact Shape.chunk _ _
  case fprint => exact Shape.fprint _ _
  case cmpr => exact Shape.cmpr _ _
  case dcmp => exact Shape.dcmp _ _
  case ecenc => exact Shape.ecenc _ _
  case ecdec => exact Shape.ecdec _ _
  case ldpcs => exact Shape.ldpcs _ _
  case dgst => exact Shape.dgst _ _
  case sign => exact Shape.sign _ _
  case verify => exact Shape.verify _ _
  case nfop => exact Shape.nfop _ _
  case tfmt => exact Shape.tfmt _ _
  case xfer => exact Shape.xfer _ _
  all_goals exact nofun

/-- Settles O59: by evaluating the decoder on each word. -/
theorem spelledWords : Obligations.SpelledWords := by
  unfold Obligations.SpelledWords
  decide

end Sys2Proof.Machine
end

section
/-! PROOFS. Computing instructions: registers and predicates as they are written and read, the functions of Tables 2-5 and 2-6, the six
rows that compute, and what a fetch leaves. -/

namespace Sys2Proof.Machine

/-! ## Registers and predicates -/

/-- A written register leaves how the thread runs. -/
theorem setReg_keeps (x : Thread) (r : Nat) (v : Word) : (x.setReg r v).run = x.run ∧ (x.setReg r v).buf = x.buf ∧
    (x.setReg r v).len = x.len ∧ (x.setReg r v).icount = x.icount := by
  unfold Thread.setReg
  split <;> exact ⟨rfl, rfl, rfl, rfl⟩

/-- A written predicate leaves how the thread runs. -/
theorem setPred_keeps (x : Thread) (n : Nat) (b : Bool) : (x.setPred n b).run = x.run ∧ (x.setPred n b).buf = x.buf ∧
    (x.setPred n b).len = x.len ∧ (x.setPred n b).icount = x.icount := by
  unfold Thread.setPred
  split <;> exact ⟨rfl, rfl, rfl, rfl⟩

theorem setReg_of_ne_zero (x : Thread) {r : Nat} (v : Word) (hr : r ≠ 0) : x.setReg r v = { x with g := place 0 x.g r v } :=
  if_neg hr

theorem reg_of_ne_zero (x : Thread) {r : Nat} (hr : r ≠ 0) : x.reg r = look 0 x.g r := if_neg hr

theorem reg_setReg_same (x : Thread) {r : Nat} (v : Word) (hx : canon 0 x.g = true) (hr : r ≠ 0) : (x.setReg r v).reg r = v := by
  rw [setReg_of_ne_zero x v hr, reg_of_ne_zero _ hr]
  exact look_place_same 0 x.g r v hx

theorem reg_setReg_other (x : Thread) {r q : Nat} (v : Word) (hq : q ≠ r) : (x.setReg r v).reg q = x.reg q := by
  by_cases hr : r = 0
  · rw [hr, Thread.setReg, if_pos rfl]
  · rw [setReg_of_ne_zero x v hr]
    unfold Thread.reg
    rw [look_place_other 0 x.g r q v hq]

theorem canon_setReg (x : Thread) (r : Nat) (v : Word) (hx : canon 0 x.g = true) : canon 0 (x.setReg r v).g = true := by
  unfold Thread.setReg
  split
  · exact hx
  · exact canon_place 0 x.g r v hx

/-- The bits of the predicate file after one is written. -/
theorem getLsbD_setPred (x : Thread) {n : Nat} (b : Bool) (h0 : n ≠ 0) (hn : n < 8) (q : Nat) :
    (x.setPred n b).p.getLsbD q = if q = n then b else x.p.getLsbD q := by
  have hp : (x.setPred n b).p = if b then x.p ||| (1#8 <<< n) else x.p &&& ~~~(1#8 <<< n) := by
    rw [Thread.setPred, if_neg h0]
  have hone : (1#8 <<< n).getLsbD q = decide (q = n) := by
    rw [BitVec.getLsbD_shiftLeft, BitVec.getLsbD_one]
    by_cases hq : q = n
    · subst hq; simp [hn]
    · simp [hq]; omega
  rw [hp]
  cases b
  · rw [if_neg Bool.false_ne_true, BitVec.getLsbD_and, BitVec.getLsbD_not, hone]
    by_cases hq : q = n
    · simp [hq]
    · by_cases h8 : q < 8
      · simp [hq, h8]
      · simp [hq, h8, BitVec.getLsbD_of_ge x.p q (by omega)]
  · rw [if_pos rfl, BitVec.getLsbD_or, hone]
    by_cases hq : q = n <;> simp [hq]

/-- Settles O5: g0 and p0 by their definition, the others by what a table and a bit field read after a write. -/
theorem generalRegisters : Obligations.GeneralRegisters := by
  intro x r n v b hx hn
  refine ⟨rfl, fun hr => reg_setReg_same x v hx hr, fun q hq => reg_setReg_other x v hq, rfl, fun h0 => ?_, fun q hq => ?_,
    canon_setReg x r v hx⟩
  · simp only [Thread.pred, h0, decide_false, Bool.false_or, getLsbD_setPred x b h0 hn, if_true]
  · by_cases h0 : n = 0
    · rw [h0, Thread.setPred, if_pos rfl]
    · simp only [Thread.pred, getLsbD_setPred x b h0 hn, if_neg hq]

/-! ## The rows that compute -/

/-- LIH's value as Table 2-4 words it. -/
theorem lihValue_eq_append (old : Word) (imm : BitVec 32) : lihValue old imm = imm.extractLsb' 0 16 ++ old.extractLsb' 0 48 := by
  unfold lihValue
  refine BitVec.eq_of_getLsbD_eq fun i hi => ?_
  have hm : (0x0000FFFFFFFFFFFF#64).getLsbD i = decide (i < 48) := by
    revert i; decide
  simp only [BitVec.getLsbD_or, BitVec.getLsbD_and, hm, BitVec.getLsbD_shiftLeft, BitVec.getLsbD_setWidth, BitVec.getLsbD_append,
    BitVec.getLsbD_extractLsb']
  by_cases h48 : i < 48
  · simp [h48]
  · have h16 : i - 48 < 16 := by omega
    have h64 : i - 48 < 64 := by omega
    simp [h48, hi, h16, h64]

/-- Settles O4: each row is one computation (`computes_of_steps`). -/
theorem computingInstructions : Obligations.ComputingInstructions := by
  intro s t
  refine ⟨fun w hs => ?_, fun w hf hs => ?_, fun w hf hs => ?_, fun w hs => ?_, fun w hs => ?_, fun w hs => ?_, fun w hs => ?_,
    fun w hs => ?_, fun w hs => ?_⟩
  · exact computes_of_steps s _ t _ _ _ _ rfl hs (setReg_keeps _ _ _)
  · refine computes_of_steps s _ t _ _ _ _ ?_ hs (setReg_keeps _ _ _)
    show execAluImm t w s = _
    simp only [execAluImm, if_neg hf, aluImmOperand, sext32]
  · refine computes_of_steps s _ t _ _ _ _ ?_ hs (setReg_keeps _ _ _)
    show execAluImm t w s = _
    simp only [execAluImm, if_pos hf]
  · exact computes_of_steps s _ t _ _ _ _ rfl hs (setReg_keeps _ _ _)
  · refine computes_of_steps s _ t _ _ _ _ ?_ hs (setReg_keeps _ _ _)
    show execLih t w s = _
    simp only [execLih, lihValue_eq_append]
  · exact computes_of_steps s _ t _ _ _ _ rfl hs (setPred_keeps _ _ _)
  · exact computes_of_steps s _ t _ _ _ _ rfl hs (setPred_keeps _ _ _)
  · exact computes_of_steps s _ t _ _ _ _ rfl hs ⟨rfl, rfl, rfl, rfl⟩
  · exact computes_of_steps s _ t _ _ _ _ rfl hs ⟨rfl, rfl, rfl, rfl⟩

/-! ## The functions of Tables 2-5 and 2-6 -/

/-- The bits of the bytes of a number. -/
theorem testBit_leNat : ∀ (l : List Byte) (k : Nat), (leNat l).testBit k = (l.getD (k / 8) 0).getLsbD (k % 8)
  | [], k => by simp [leNat]
  | b :: r, k => by
    have hsplit : leNat (b :: r) = 2 ^ 8 * leNat r + b.toNat := by simp only [leNat]; omega
    rw [hsplit, Nat.testBit_two_pow_mul_add _ b.isLt]
    by_cases hk : k < 8
    · rw [if_pos hk, Nat.div_eq_of_lt hk, Nat.mod_eq_of_lt hk]
      simp only [List.getD_cons_zero, BitVec.getLsbD]
    · rw [if_neg hk, testBit_leNat r (k - 8)]
      have hd : k / 8 = (k - 8) / 8 + 1 := by omega
      have hm : k % 8 = (k - 8) % 8 := by omega
      rw [hd, hm, List.getD_cons_succ]

/-- The bytes of a word. -/
theorem leBytes_getD : ∀ (n x i : Nat), i < n → (leBytes n x).getD i 0 = BitVec.ofNat 8 (x / 256 ^ i)
  | n + 1, x, 0, _ => by simp [leBytes]
  | n + 1, x, i + 1, h => by
    rw [leBytes, List.getD_cons_succ, leBytes_getD n _ i (by omega), Nat.div_div_eq_div_mul, pow_succ, mul_comm]

theorem leBytes_length : ∀ (n x : Nat), (leBytes n x).length = n
  | 0, _ => rfl
  | n + 1, x => by rw [leBytes, List.length_cons, leBytes_length n]

theorem getLsbD_bswap (a : Word) (k : Nat) (hk : k < 64) : (bswap a).getLsbD k = a.getLsbD (8 * (7 - k / 8) + k % 8) := by
  have hk8 : k % 8 < 8 := Nat.mod_lt _ (by decide)
  have hrev : (leBytes 8 a.toNat).reverse.getD (k / 8) 0 = (leBytes 8 a.toNat).getD (7 - k / 8) 0 := by
    rw [List.getD_eq_getElem?_getD, List.getD_eq_getElem?_getD, List.getElem?_reverse (by rw [leBytes_length]; omega), leBytes_length]
  have hpow : 256 ^ (7 - k / 8) = 2 ^ (8 * (7 - k / 8)) := by rw [pow_mul]; rfl
  rw [bswap, BitVec.getLsbD_ofNat, testBit_leNat, hrev, leBytes_getD _ _ _ (by omega), BitVec.getLsbD_ofNat, hpow, Nat.testBit_div_two_pow]
  simp only [hk, hk8, decide_true, Bool.true_and, BitVec.getLsbD, Nat.add_comm]

/-- The first position of a word at which a test holds, 64 where none does. -/
def firstOf (p : Nat → Bool) : Nat := match (upto 64).find? p with | some k => k | none => 64

theorem firstOf_spec (p : Nat → Bool) : firstOf p ≤ 64 ∧ (∀ k, k < firstOf p → p k = false) ∧ (firstOf p < 64 → p (firstOf p) = true) := by
  unfold firstOf upto
  cases hf : (List.range 64).find? p with
  | none =>
    rw [List.find?_eq_none] at hf
    exact ⟨Nat.le_refl _, fun k hk => Bool.not_eq_true _ ▸ hf k (List.mem_range.mpr hk), fun h => absurd h (Nat.lt_irrefl _)⟩
  | some n =>
    rw [List.find?_range_eq_some] at hf
    obtain ⟨hn, hm, hlt⟩ := hf
    rw [List.mem_range] at hm
    exact ⟨Nat.le_of_lt hm, fun k hk => by simpa using hlt k hk, fun _ => hn⟩

theorem clz_eq_firstOf (a : Word) : clz a = firstOf (fun k => a.getLsbD (63 - k)) := rfl
theorem ctz_eq_firstOf (a : Word) : ctz a = firstOf (fun k => a.getLsbD k) := rfl

theorem popcount_eq_length (a : Word) : popcount a = ((List.range 64).filter (fun k => a.getLsbD k)).length := List.countP_eq_length_filter

theorem popcount_le (a : Word) : popcount a ≤ 64 := by
  simpa [popcount, upto] using List.countP_le_length (p := fun k => a.getLsbD k) (l := List.range 64)

theorem toNat_ofNat_of_le_64 {n : Nat} (h : n ≤ 64) : (BitVec.ofNat 64 n).toNat = n :=
  BitVec.toNat_ofNat n 64 ▸ Nat.mod_eq_of_lt (by omega)

theorem testBit_maskBits (hi lo k : Nat) : (maskBits hi lo).testBit k = (decide (lo ≤ k) && decide (k < hi + 1)) := by
  unfold maskBits
  rw [Nat.testBit_shiftLeft, Nat.testBit_two_pow_sub_one]
  by_cases h : lo ≤ k <;> simp [h]
  omega

/-- Division and remainder, also by 0. -/
theorem aluResult_div (a b : Word) (i : Nat) :
    (b ≠ 0 → (aluResult 0x04 a b i).toNat * b.toNat + (aluResult 0x05 a b i).toNat = a.toNat ∧
      (aluResult 0x05 a b i).toNat < b.toNat) ∧
    (b = 0 → (aluResult 0x04 a b i).toNat = 2 ^ 64 - 1 ∧ aluResult 0x05 a b i = a) := by
  refine ⟨fun hb => ?_, fun hb => ?_⟩
  · have hpos : 0 < b.toNat := Nat.pos_of_ne_zero fun h => hb (BitVec.eq_of_toNat_eq h)
    simp only [aluResult, if_neg hb, BitVec.toNat_udiv, BitVec.toNat_umod]
    exact ⟨Nat.div_add_mod' _ _, Nat.mod_lt _ hpos⟩
  · simp only [aluResult, if_pos hb, BitVec.toNat_allOnes, and_self]

/-- The two halves of a product. -/
theorem aluResult_mul (a b : Word) (i : Nat) :
    (aluResult 0x02 a b i).toNat + 2 ^ 64 * (aluResult 0x03 a b i).toNat = a.toNat * b.toNat := by
  have hlt : a.toNat * b.toNat / 2 ^ 64 < 2 ^ 64 :=
    Nat.div_lt_of_lt_mul (Nat.mul_lt_mul'' a.isLt b.isLt)
  simp only [aluResult, BitVec.toNat_mul, BitVec.toNat_ofNat, Nat.mod_eq_of_lt hlt]
  exact Nat.mod_add_div _ _

/-- Shifts and rotates, bit by bit. -/
theorem getLsbD_aluResult_shift (a b : Word) (i : Nat) {k : Nat} (hk : k < 64) :
    (aluResult 0x10 a b i).getLsbD k = (decide (b.toNat % 64 ≤ k) && a.getLsbD (k - b.toNat % 64)) ∧
    (aluResult 0x11 a b i).getLsbD k = a.getLsbD (k + b.toNat % 64) ∧
    (aluResult 0x12 a b i).getLsbD k = a.getLsbD (min (k + b.toNat % 64) 63) ∧
    (aluResult 0x13 a b i).getLsbD ((k + b.toNat) % 64) = a.getLsbD k ∧
    (aluResult 0x14 a b i).getLsbD k = a.getLsbD ((k + b.toNat) % 64) := by
  have hn : b.toNat % 64 < 64 := Nat.mod_lt _ (by decide)
  have hsum : (k + b.toNat) % 64 = (k + b.toNat % 64) % 64 := by omega
  rw [hsum]
  simp only [aluResult]
  generalize b.toNat % 64 = n at hn ⊢
  refine ⟨?_, ?_, ?_, ?_, ?_⟩
  · rw [BitVec.getLsbD_shiftLeft]
    by_cases h : k < n
    · simp [h]
    · simp [h, hk, Nat.le_of_not_lt h]
  · rw [BitVec.getLsbD_ushiftRight, Nat.add_comm]
  · rw [BitVec.getLsbD_sshiftRight]
    by_cases h : n + k < 64
    · simp [h, hk, Nat.add_comm k n, Nat.min_eq_left (Nat.le_of_lt_succ h)]
    · simp [h, hk, Nat.min_eq_right (show 63 ≤ k + n by omega), BitVec.msb_eq_getLsbD_last]
  · rw [BitVec.getLsbD_rotateLeft, Nat.mod_eq_of_lt hn]
    by_cases h : k + n < 64
    · simp [Nat.mod_eq_of_lt h, h]
    · have hm : (k + n) % 64 = k + n - 64 := by omega
      have hlt : k + n - 64 < n := by omega
      have hb : 64 - n + (k + n - 64) = k := by omega
      simp [hm, hlt, hb]
  · rw [BitVec.getLsbD_rotateRight, Nat.mod_eq_of_lt hn]
    by_cases h : k < 64 - n
    · have hm : (k + n) % 64 = n + k := by omega
      simp [h, hm]
    · have hm : (k + n) % 64 = k - (64 - n) := by omega
      simp [h, hm, hk]

/-- EXT and INS, bit by bit. -/
theorem getLsbD_fields (a b old : Word) (i : Nat) {k : Nat} (hk : k < 64) :
    (aluResult 0x28 a b i).getLsbD k = (decide (k ≤ bits i 13 8) && a.getLsbD (k + bits i 5 0)) ∧
    (insResult old a i).getLsbD k =
      (if bits i 5 0 ≤ k ∧ k ≤ bits i 5 0 + bits i 13 8 then a.getLsbD (k - bits i 5 0) else old.getLsbD k) := by
  refine ⟨?_, ?_⟩
  · simp only [aluResult, BitVec.getLsbD_and, BitVec.getLsbD_ushiftRight, BitVec.getLsbD_ofNat, Nat.testBit_two_pow_sub_one, hk,
      decide_true, Bool.true_and, Nat.lt_succ_iff]
    rw [Bool.and_comm, Nat.add_comm k]
  · have hm : (BitVec.ofNat 64 (maskBits (bits i 5 0 + bits i 13 8) (bits i 5 0))).getLsbD k =
        decide (bits i 5 0 ≤ k ∧ k ≤ bits i 5 0 + bits i 13 8) := by
      simp only [BitVec.getLsbD_ofNat, testBit_maskBits, Nat.lt_succ_iff, Bool.decide_and, hk, decide_true, Bool.true_and]
    unfold insResult
    simp only [BitVec.getLsbD_or, BitVec.getLsbD_and, BitVec.getLsbD_not, BitVec.getLsbD_shiftLeft, hm, hk, decide_true, Bool.true_and]
    by_cases h : bits i 5 0 ≤ k ∧ k ≤ bits i 5 0 + bits i 13 8
    · have hlo : ¬ k < bits i 5 0 := Nat.not_lt.mpr h.1
      simp [h, hlo]
    · simp [h]

/-- The conditions on two words as comparisons of numbers. -/
theorem cmpWord_iff (a b : Word) :
    (cmpWord 0x00 a b = true ↔ a.toNat = b.toNat) ∧ (cmpWord 0x01 a b = true ↔ a.toNat ≠ b.toNat) ∧
    (cmpWord 0x02 a b = true ↔ a.toNat < b.toNat) ∧ (cmpWord 0x03 a b = true ↔ b.toNat ≤ a.toNat) ∧
    (cmpWord 0x04 a b = true ↔ a.toInt < b.toInt) ∧ (cmpWord 0x05 a b = true ↔ b.toInt ≤ a.toInt) ∧
    (cmpWord 0x06 a b = true ↔ ∃ k, a.getLsbD k = true ∧ b.getLsbD k = true) ∧
    (cmpWord 0x07 a b = true ↔ ∀ k, ¬ (a.getLsbD k = true ∧ b.getLsbD k = true)) := by
  have hand : a &&& b = 0 ↔ ∀ k, ¬ (a.getLsbD k = true ∧ b.getLsbD k = true) := by
    constructor
    · intro h k hk
      have := congrArg (fun v => v.getLsbD k) h
      simp [hk] at this
    · intro h
      refine BitVec.eq_of_getLsbD_eq fun k _ => ?_
      simpa using h k
  refine ⟨?_, ?_, ?_, ?_, ?_, ?_, ?_, ?_⟩
  · simp only [cmpWord, decide_eq_true_eq, BitVec.toNat_inj]
  · simp only [cmpWord, decide_eq_true_eq, ne_eq, BitVec.toNat_inj]
  · simp only [cmpWord, decide_eq_true_eq]
  · simp only [cmpWord, decide_eq_true_eq]
  · simp only [cmpWord, BitVec.slt_iff_toInt_lt]
  · simp only [cmpWord, BitVec.sle_iff_toInt_le]
  · simp only [cmpWord, decide_eq_true_eq, ne_eq, hand, not_forall, not_not]
  · simp only [cmpWord, decide_eq_true_eq, hand]

/-- Settles O6, function code by function code. -/
theorem computedValues : Obligations.ComputedValues := by
  refine ⟨fun a b old i => ⟨?_, ?_, aluResult_mul a b i, (aluResult_div a b i).1, (aluResult_div a b i).2, fun k hk => ?_, ?_, ?_,
    ?_, ?_⟩, fun x w a b => ?_⟩
  · simp only [aluResult, BitVec.toNat_add]
  · have := b.isLt
    simp only [aluResult, BitVec.toNat_sub]
    congr 1
    omega
  · obtain ⟨hshl, hshr, hsar, hrol, hror⟩ := getLsbD_aluResult_shift a b i hk
    obtain ⟨hext, hins⟩ := getLsbD_fields a b old i hk
    refine ⟨?_, ?_, ?_, ?_, hshl, hshr, hsar, hrol, hror, getLsbD_bswap a k hk, hext, hins⟩
    · simp only [aluResult, BitVec.getLsbD_and]
    · simp only [aluResult, BitVec.getLsbD_or]
    · simp only [aluResult, BitVec.getLsbD_xor]
    · simp only [aluResult, BitVec.getLsbD_and, BitVec.getLsbD_xor, BitVec.getLsbD_allOnes, hk, decide_true, Bool.xor_true]
  · simp only [aluResult, apply_ite BitVec.toNat, Nat.min_def]
  · simp only [aluResult, apply_ite BitVec.toNat, Nat.max_def]
  · rw [← popcount_eq_length]
    exact toNat_ofNat_of_le_64 (popcount_le a)
  · obtain ⟨hz, hzlow, hzat⟩ := firstOf_spec (fun k => a.getLsbD (63 - k))
    obtain ⟨ht, htlow, htat⟩ := firstOf_spec (fun k => a.getLsbD k)
    simp only [aluResult, clz_eq_firstOf, ctz_eq_firstOf, toNat_ofNat_of_le_64 hz, toNat_ofNat_of_le_64 ht]
    refine ⟨hz, fun k hk => ?_, hzat, ht, htlow, htat⟩
    by_cases h64 : k < 64
    · have := hzlow (63 - k) (by omega)
      rwa [show 63 - (63 - k) = k by omega] at this
    · exact BitVec.getLsbD_of_ge a k (by omega)
  · obtain ⟨h0, h1, h2, h3, h4, h5, h6, h7⟩ := cmpWord_iff a b
    refine ⟨h0, h1, h2, h3, h4, h5, h6, h7, fun h => if_pos h, fun h => ?_, fun h => ?_, fun h => ?_, fun h => ?_⟩ <;>
      rw [cmpRegValue, h, if_neg (by decide)] <;> rfl

/-! ## Fetch -/

/-- A line just fetched stays in the list of its L1 I, whichever line of a full set leaves. -/
theorem lru_ne_nil (l : List Nat) (n : Nat) (hl : n ∉ l) :
    (n :: l).filter (fun m => some m ≠ ((n :: l).filter (fun m => m % 256 = n % 256)).getLast?) ≠ [] ∨
      ((n :: l).filter (fun m => m % 256 = n % 256)).length ≤ 1 := by
  have hn : (n :: l).filter (fun m => m % 256 = n % 256) = n :: l.filter (fun m => m % 256 = n % 256) :=
    List.filter_cons_of_pos (decide_eq_true rfl)
  rw [hn]
  cases hr : l.filter (fun m => m % 256 = n % 256) with
  | nil => exact .inr (Nat.le_refl 1)
  | cons a r =>
    have hlast : ∃ m ∈ l, (n :: a :: r).getLast? = some m := by
      refine ⟨(a :: r).getLast (List.cons_ne_nil a r), ?_, ?_⟩
      · refine (List.mem_filter (p := fun m => m % 256 = n % 256)).mp ?_ |>.1
        rw [hr]
        exact List.getLast_mem (List.cons_ne_nil a r)
      · rw [List.getLast?_cons_cons, List.getLast?_eq_getLast_of_ne_nil]
    obtain ⟨m, hm, he⟩ := hlast
    have hne : some n ≠ some m := fun h => hl (Option.some.inj h ▸ hm)
    rw [he, List.filter_cons_of_pos (by simpa using hne)]
    exact .inl (List.cons_ne_nil _ _)

/-- A fetch leaves the head as it is, or puts a list that is not empty in the L1 I of the thread's engine. -/
theorem fetched_cases (h : Head) (t : Nat) : h.fetched t = h ∨
    ∃ l, l ≠ [] ∧ h.fetched t = h.setL1 (engineOf t) { h.l1 (engineOf t) with iline := l } := by
  have hput : ∀ (l : List Nat) (n : Nat),
      (if 4 < ((n :: l.filter (fun m => m ≠ n)).filter (fun m => m % 256 = n % 256)).length then
        (n :: l.filter (fun m => m ≠ n)).filter
          (fun m => some m ≠ ((n :: l.filter (fun m => m ≠ n)).filter (fun m => m % 256 = n % 256)).getLast?)
      else n :: l.filter (fun m => m ≠ n)) ≠ [] := by
    intro l n
    split
    · next hlen =>
      exact (lru_ne_nil (l.filter (fun m => m ≠ n)) n (by simp)).resolve_right (by omega)
    · exact List.cons_ne_nil _ _
  unfold Head.fetched
  dsimp only
  split
  · exact .inl rfl
  · refine .inr ⟨_, ?_, rfl⟩
    split <;> exact hput _ _

/-- Settles O7: what a fetch puts in the L1 I is never the empty list, so the engine's entry reads as it was written. -/
theorem fetchOnlyFillsL1I : Obligations.FetchOnlyFillsL1I := by
  intro h t
  obtain hf | ⟨l, hl, hf⟩ := fetched_cases h t
  · rw [hf]
    exact ⟨rfl, fun _ _ => rfl, rfl⟩
  · have hnew : (h.fetched t).l1 (engineOf t) = { h.l1 (engineOf t) with iline := l } := by
      rw [hf]
      exact look_place_new _ _ _ _ fun he => hl (congrArg L1.iline he)
    refine ⟨?_, fun e he => ?_, ?_⟩
    · rw [hf]; rfl
    · rw [hf]
      exact look_place_other _ _ _ _ _ he
    · rw [hnew]

end Sys2Proof.Machine
end

section
/-! PROOFS. Loads, stores and atomics: what they do below tier F, and the state in which a store at tier F takes other bytes of its line from a
stale copy. -/

namespace Sys2Proof.Machine

/-! ## Instructions that change their thread alone -/

/-- An instruction whose effect is a change of its own thread that leaves how the thread runs. -/
theorem computes_of_goes (s : State) (i : Instr) (t : Nat) (c : Common) (legal : Bool) (low : Tier) (uses : List Nat)
    (body : Head → Thread → Iss) (f : Thread → Thread) (hi : exec i s = s.run (fun h => h.issue t c legal low uses body))
    (hs : s.head.steps t c legal low uses = true)
    (hb : body (s.head.fetched t) (s.head.thread t) = .go ((s.head.fetched t).setThread t (f (s.head.thread t))))
    (hf : (f (s.head.thread t)).run = (s.head.thread t).run ∧ (f (s.head.thread t)).buf = (s.head.thread t).buf ∧
      (f (s.head.thread t)).len = (s.head.thread t).len ∧ (f (s.head.thread t)).icount = (s.head.thread t).icount) :
    s.computes i t f := by
  simp only [Head.steps, Head.goesOn, Bool.and_eq_true, Bool.not_eq_true'] at hs
  obtain ⟨htakes, hinside⟩ := hs
  obtain ⟨hrun, hbuf, hlen, hcount⟩ := hf
  have hp : (f (s.head.thread t)).outside ((s.head.thread t).pc + 8) = false := by
    unfold Thread.outside at hinside ⊢
    rw [hbuf, hlen]; exact hinside
  have hend := finish_inside (s.head.fetched t) t (f (s.head.thread t)) ((s.head.thread t).pc + 8)
    (hrun.trans (takesEffect_running _ _ _ _ _ _ htakes)) hp
  rw [hcount] at hend
  rw [run_eq, issue_takesEffect _ _ _ _ _ _ _ htakes, hb] at hi
  exact ⟨_, hi, rfl, hend⟩

/-! ## Limits -/

/-- An aligned access inside the 4 KiB of its thread is allowed below tier F. -/
theorem accFault_private {tier : Tier} (ht : tier ≠ .F) (scr : Bool) {a n : Nat} (hb : a + n ≤ 4096) (ha : a % n = 0) :
    accFault tier scr a n = none := by
  have hle : ¬ 4096 < a + n := Nat.not_lt.mpr hb
  simp only [accFault, ha, ht, hle, ne_eq, not_true_eq_false, not_false_eq_true, if_true, if_false, false_and, or_self]

/-- Settles O9: each access passes the limits (`accFault_private`) and then changes its own thread alone. -/
theorem privateMemory : Obligations.PrivateMemory := by
  refine ⟨fun s t w ht hb ha => ⟨fun c hs => ?_, fun hs => ?_, fun x a hout => ?_⟩, fun s t w ht hb ha hs => ?_, fun old rb rd => ?_⟩
  · refine computes_of_goes s _ t _ _ _ _ _ _ rfl hs ?_ (setReg_keeps _ _ _)
    simp only [loadAt, accFault_private ht _ hb ha, ne_eq, ht, not_false_eq_true, if_true, fetched_thread]
  · refine computes_of_goes s _ t _ _ _ _ _ _ rfl hs ?_ ⟨rfl, rfl, rfl, rfl⟩
    simp only [accFault_private ht _ hb ha, ne_eq, ht, not_false_eq_true, if_true]
  · exact read_writeBytes_other _ _ _ _ (by rwa [leBytes_length])
  · refine computes_of_goes s _ t _ _ _ _ _ _ rfl hs ?_ ?_
    · cases hst : amoStore (bits w.fn.toNat 6 4)
        (BitVec.ofNat 64 (leNat (readBytes (s.head.thread t).priv (effAddr (s.head.thread t) w).toNat 8)))
        ((s.head.thread t).reg w.rb.toNat) ((s.head.thread t).reg w.rd.toNat) <;>
        simp only [accFault_private ht _ hb ha, ne_eq, ht, not_false_eq_true, if_true, hst]
    · obtain ⟨hr, hbuf, hl, hi⟩ := setReg_keeps _ _ _
      rw [hr, hbuf, hl, hi]
      split <;> exact ⟨rfl, rfl, rfl, rfl⟩
  · exact ⟨rfl, rfl, rfl, rfl, rfl⟩

/-! ## A stale line -/

/-- Engine 0, whose L1 D is off, still holds the clean line of address `a` with other bytes than HBM, where all are 0. Its thread 5, at tier F,
has `a` in g1. -/
def staleLine (a : Nat) : State :=
  ⟨[], { Head.blank with
    sys := { Sys.blank with islands := List.replicate 22 { Island.blank with st := .running } }
    core := { Head.blank.core with
      threads := [(5, { Thread.fresh with run := .running, tier := .F, buf := true, len := 8, g := place 0 [] 1 (BitVec.ofNat 64 a) })]
      l1 := [(0, { L1.fresh with lines := [⟨a / 64, 0, false, List.replicate 64 0x55, 0⟩] })] } }⟩

/-- ST of the byte of g0 at g1. -/
def storeByte : GWord := ⟨false, false, 0, 0, 1, 0, 0, 0, none⟩

/-- What `staleLine` has to be for the clause about ST in HBM, at two addresses of which one lies outside the instruction region, and the byte
beside the one stored. -/
theorem staleLine_facts (a : Nat) (ha : a = 0 ∨ a = 0x20000000) :
    ((staleLine a).head.thread 5).tier = .F ∧ (effAddr ((staleLine a).head.thread 5) storeByte).toNat = a ∧
    (staleLine a).head.l1d (engineOf 5) = false ∧ (staleLine a).head.l2on (pelotonOf (engineOf 5)) = false ∧
    (staleLine a).head.newest (a / 64) = none ∧ (staleLine a).head.evicting (a / 64) = false ∧
    cached ((staleLine a).head.l2 (pelotonOf (engineOf 5))).lines (a / 64) = none ∧
    (∀ i, i < 8 → look false (staleLine a).head.core.hbmP (8 * (a / 64) + i) = false ∧
      look 0 (staleLine a).head.core.chk (chkKey 4 (8 * (a / 64) + i)) = 0) ∧
    Memory.wf (staleLine a).head.core.hbm = true ∧
    (staleLine a).head.steps 5 (storeByte.common 0x09) (stLegal storeByte) .O [storeByte.ra.toNat, storeByte.rb.toNat] = true ∧
    readByte (staleLine a).head.core.hbm (a + 1) = 0 := by
  obtain rfl | rfl := ha <;> refine ⟨?_, ?_, ?_, ?_, ?_, ?_, ?_, fun _ _ => ⟨rfl, rfl⟩, ?_, ?_, ?_⟩ <;> decide +kernel

/-- The line as the store leaves it in HBM. -/
theorem staleLine_store (a : Nat) (ha : a = 0 ∨ a = 0x20000000) :
    ∃ k, ((staleLine a).head.fetched 5).storeLine (engineOf 5) (a / 64) (a % 64) [0] false = some k ∧
      readByte (((staleLine a).head.fetched 5).finish 5 (storeByte.common 0x09) ((staleLine a).head.thread 5) (.go k)).core.hbm (a + 1) =
        0x55 := by
  have hsome : ∀ (o : Option Head) (P : Head → Prop) [DecidablePred P], (o.any (fun k => decide (P k))) = true → ∃ k, o = some k ∧ P k := by
    intro o P _ h
    cases o with
    | none => exact absurd h (by simp)
    | some k => exact ⟨k, rfl, by simpa using h⟩
  refine hsome _ _ ?_
  obtain rfl | rfl := ha <;> decide +kernel

/-- A byte of HBM outside the instruction region can be reached at tier F. -/
theorem accFault_byte {a : Nat} (hb : a + 1 ≤ hbmLimit) (hi : inInstr a 1 = false) : accFault .F false a 1 = none := by
  have hle : ¬ hbmLimit < a + 1 := Nat.not_lt.mpr hb
  simp only [accFault, Nat.mod_one, hi, hle, ne_eq, not_true_eq_false, Bool.false_eq_true, if_false, and_false, or_self]

/-- Wherever the instruction region lies, one of the two bytes can be stored. -/
theorem byte_outside_instr : ∃ a, (a = 0 ∨ a = 0x20000000) ∧ accFault .F false a 1 = none := by
  have hlim : hbmLimit = 0x1800000000 := rfl
  by_cases hb : Config.instrBase < 1
  · refine ⟨0x20000000, .inr rfl, accFault_byte (by omega) ?_⟩
    have hout : ¬ 0x20000000 < Config.instrBase + 0x10000000 := by omega
    rw [inInstr, decide_eq_false hout, Bool.and_false]
  · refine ⟨0, .inl rfl, accFault_byte (by omega) ?_⟩
    have hout : ¬ Config.instrBase < 0 + 1 := by omega
    rw [inInstr, decide_eq_false hout, Bool.false_and]

/-- Refutes O10: the premises of the clause about HBM let the engine's own L1 D, switched off, hold a clean copy of the line that differs from
HBM. A store takes the rest of the line from that copy (`staleLine_store`): storing the byte at `a` changes the byte at `a + 1`. -/
theorem not_firmwareMemory : ¬ Obligations.FirmwareMemory := by
  intro hall
  obtain ⟨a, ha, hfault⟩ := byte_outside_instr
  obtain ⟨htier, haddr, hl1, hl2, hnew, hev, hcached, hplain, hwf, hsteps, hzero⟩ := staleLine_facts a ha
  obtain ⟨k, hk, hbyte⟩ := staleLine_store a ha
  have hclause := hall.2.2 (staleLine a) 5 storeByte
  simp only [haddr] at hclause
  obtain ⟨u, hu, -, -, -, -, -, -, -, hothers⟩ := (hclause htier rfl hl1 hl2 hnew hev hcached hplain hwf).2.1 hfault hsteps
  have htakes : (staleLine a).head.takesEffect 5 (storeByte.common 0x09) (stLegal storeByte) .O
      [storeByte.ra.toNat, storeByte.rb.toNat] = true := by
    simp only [Head.steps, Head.goesOn, Bool.and_eq_true] at hsteps
    exact hsteps.1
  have hexec : exec (.st 5 storeByte) (staleLine a) = .next ((staleLine a).become
      (((staleLine a).head.fetched 5).finish 5 (storeByte.common 0x09) ((staleLine a).head.thread 5) (.go k))) := by
    show execSt 5 storeByte (staleLine a) = _
    have hn : accBytes storeByte = 1 := rfl
    rw [execSt, run_eq, issue_takesEffect _ _ _ _ _ _ _ htakes]
    have hb : leBytes 1 (((staleLine a).head.thread 5).reg storeByte.rb.toNat).toNat = [0] := rfl
    have hs3 : storeByte.fn.getLsbD 3 = false := rfl
    have hs4 : storeByte.fn.getLsbD 4 = false := rfl
    simp only [hb, hs3, hs4, haddr, htier, hn, hfault, hk, ne_eq, not_true_eq_false, Bool.false_eq_true, if_false]
  rw [hexec] at hu
  have hsame := hothers (a + 1) (.inr (Nat.le_refl _))
  rw [← Host.Outcome.next.inj hu, hzero] at hsame
  exact absurd (hbyte.symm.trans hsame) (by decide)

end Sys2Proof.Machine
end

section
/-! PROOFS. Control, queues and signals: branches that stay inside the program, FENCE, WAITV and END, traps and ERET, the order of causes,
hardware queues and buffer pools, signals, IDLE, HALT and DISPATCH. -/

namespace Sys2Proof.Machine

/-! ## What a fetch leaves -/

@[simp] theorem fetched_hwq (h : Head) (t q : Nat) : (h.fetched t).hwq q = h.hwq q := by
  obtain hf | ⟨l, -, hf⟩ := fetched_cases h t
  · rw [hf]
  · rw [hf]; rfl

/-! ## Jumps -/

/-- As `finish_inside`, for a head on which only thread `t` differs from `h`. -/
theorem finish_inside_of_onlyThread {h k : Head} {t : Nat} {pc : Word} (hr : (k.thread t).run = .running)
    (hp : (k.thread t).outside pc = false) (ho : h.onlyThread k t) :
    (((k.counted t).moveTo t pc).afterIssue t).thread t =
        { k.thread t with pc := pc, icount := ((k.thread t).icount + 1) % 2 ^ 64 } ∧
      h.onlyThread (((k.counted t).moveTo t pc).afterIssue t) t := by
  have hcounted : (k.counted t).thread t = { k.thread t with icount := ((k.thread t).icount + 1) % 2 ^ 64 } :=
    thread_setThread k t _ hr
  have hmoved : ((k.counted t).moveTo t pc).thread t = { k.thread t with pc := pc, icount := ((k.thread t).icount + 1) % 2 ^ 64 } := by
    rw [moveTo_inside (by rw [hcounted]; exact hr) (by rw [hcounted]; exact hp), hcounted]
  have hafter : ((k.counted t).moveTo t pc).afterIssue t = (k.counted t).moveTo t pc :=
    if_pos (by rw [hmoved]; exact hr)
  rw [hafter]
  exact ⟨hmoved, onlyThread_setThread _ _ _ _ (onlyThread_setThread _ _ _ _ ho)⟩

/-- An instruction that jumps inside its program. -/
theorem movesOn_of_jumps {s : State} {i : Instr} {t : Nat} {c : Common} {legal : Bool} {low : Tier} {uses : List Nat} {pc : Word}
    {k : Head} (f : Thread → Thread) (hgo : s.head.goesOn t c legal low uses pc = true)
    (hi : exec i s = .next (s.issued t c (.jump k pc))) (ho : (s.head.fetched t).onlyThread k t)
    (hk : k.thread t = f (s.head.thread t))
    (hf : (f (s.head.thread t)).run = (s.head.thread t).run ∧ (f (s.head.thread t)).buf = (s.head.thread t).buf ∧
      (f (s.head.thread t)).len = (s.head.thread t).len ∧ (f (s.head.thread t)).icount = (s.head.thread t).icount) :
    s.movesOn i t pc f := by
  simp only [Head.goesOn, Bool.and_eq_true, Bool.not_eq_true'] at hgo
  obtain ⟨htakes, hinside⟩ := hgo
  obtain ⟨hrun, hbuf, hlen, hcount⟩ := hf
  have hp : (k.thread t).outside pc = false := by
    unfold Thread.outside at hinside ⊢
    rw [hk, hbuf, hlen]; exact hinside
  obtain ⟨hthread, honly⟩ := finish_inside_of_onlyThread
    (by rw [hk, hrun]; exact takesEffect_running _ _ _ _ _ _ htakes) hp ho
  rw [hk, hcount] at hthread
  exact ⟨_, hi, rfl, hthread, honly⟩

theorem goesOn_takesEffect {h : Head} {t : Nat} {c : Common} {legal : Bool} {low : Tier} {uses : List Nat} {pc : Word}
    (hg : h.goesOn t c legal low uses pc = true) : h.takesEffect t c legal low uses = true := by
  simp only [Head.goesOn, Bool.and_eq_true] at hg
  exact hg.1

theorem goesOn_inside {h : Head} {t : Nat} {c : Common} {legal : Bool} {low : Tier} {uses : List Nat} {pc : Word}
    (hg : h.goesOn t c legal low uses pc = true) : (h.thread t).outside pc = false := by
  simp only [Head.goesOn, Bool.and_eq_true, Bool.not_eq_true'] at hg
  exact hg.2

/-- Settles O11: inside the program by `movesOn_of_jumps`, outside it by what each branch does there. -/
theorem branches : Obligations.Branches := by
  refine ⟨fun s t w => ⟨fun hg => ?_, fun hg => ?_, fun hg ha => ?_⟩, fun s t w => ⟨exec_br_outside, exec_call_outside, fun hr ha => ?_,
    exec_jr_outside⟩⟩
  · refine movesOn_of_jumps (fun x => x) hg (k := s.head.fetched t) ?_ ⟨rfl, fun _ _ => rfl⟩ (fetched_thread _ _ _) ⟨rfl, rfl, rfl, rfl⟩
    have he : exec (.br t w) s = execBr t w s := rfl
    rw [he, execBr, run_issue_takesEffect s _ (goesOn_takesEffect hg)]
    simp only [jumpTo, branchTarget, sext32, goesOn_inside hg, Bool.false_eq_true, if_false]
  · refine movesOn_of_jumps (fun x => x.setReg w.rd.toNat (x.pc + 8)) hg
      (k := (s.head.fetched t).setThread t ((s.head.thread t).setReg w.rd.toNat ((s.head.thread t).pc + 8))) ?_
      (onlyThread_setThread _ _ _ _ ⟨rfl, fun _ _ => rfl⟩) ?_ (setReg_keeps _ _ _)
    · have he : exec (.call t w) s = execCall t w s := rfl
      rw [he, execCall, run_issue_takesEffect s _ (goesOn_takesEffect hg)]
      simp only [branchTarget, sext32, goesOn_inside hg, Bool.false_eq_true, if_false]
    · exact thread_setThread _ _ _ ((setReg_keeps _ _ _).1.trans (takesEffect_running _ _ _ _ _ _ (goesOn_takesEffect hg)))
  · refine movesOn_of_jumps (fun x => x) hg (k := s.head.fetched t) ?_ ⟨rfl, fun _ _ => rfl⟩ (fetched_thread _ _ _) ⟨rfl, rfl, rfl, rfl⟩
    have he : exec (.jr t w) s = execJr t w s := rfl
    rw [he, execJr, run_issue_takesEffect s _ (goesOn_takesEffect hg)]
    simp only [ha, jumpTo, goesOn_inside hg, ne_eq, not_true_eq_false, Bool.false_eq_true, if_false]
  · have he : exec (.jr t w) s = execJr t w s := rfl
    rw [he, execJr, run_issue_takesEffect s _ hr]
    simp only [ha, ne_eq, not_false_eq_true, if_true]

/-! ## FENCE, WAITV and END -/

/-- Settles O12: each row where the merging buffer has drained. -/
theorem fencesAndEnds : Obligations.FencesAndEnds := by
  intro s t w k hk
  refine ⟨fun hr => ?_, fun hr => ⟨fun hv => ?_, fun hv => ?_⟩, fun hr => ?_⟩
  · have he : exec (.fence t w) s = execFence t w s := rfl
    rw [he, execFence, run_issue_takesEffect s _ hr]
    simp only [hk]
  · have he : exec (.waitv t w) s = execWaitv t w s := rfl
    rw [he, execWaitv, run_issue_takesEffect s _ hr]
    simp only [hk, hv, if_true]
  · have he : exec (.waitv t w) s = execWaitv t w s := rfl
    rw [he, execWaitv, run_issue_takesEffect s _ hr]
    simp only [hk, hv, Bool.false_eq_true, if_false]
  · have he : exec (.endp t w) s = execEndp t w s := rfl
    rw [he, execEndp, run_issue_takesEffect s _ hr]
    simp only [hk]

/-! ## Traps -/

/-- An instruction that takes effect has the code its row fixes. -/
theorem common_op_of_takesEffect {h : Head} {t : Nat} {w : GWord} {op : Nat} {legal : Bool} {low : Tier} {uses : List Nat}
    (hr : h.takesEffect t (w.common op) legal low uses = true) : (w.common op).op = op := by
  simp only [Head.takesEffect, Bool.and_eq_true, Bool.not_eq_true'] at hr
  obtain ⟨⟨⟨⟨⟨_, hstray, _⟩, _⟩, _⟩, _⟩, _⟩ := hr
  simp only [GWord.common, Option.isSome_eq_false_iff, Option.isNone_iff_eq_none] at hstray
  simp only [GWord.common, hstray, Option.getD_none]

/-- A head whose threads and L1s alone differ from another's, by a fetch. -/
theorem fetched_eq (h : Head) (t : Nat) : h.fetched t = { h with core := { h.core with l1 := (h.fetched t).core.l1 } } :=
  (fetchOnlyFillsL1I h t).1

/-- Settles O13: a trap without an active handler sets the trap registers of its thread; ERET is a jump to TPC. -/
theorem trapsAndReturns : Obligations.TrapsAndReturns := by
  refine ⟨fun s t w hF hact hvec hr => ?_, fun s t w htpc hg => ?_⟩
  · have hrun := takesEffect_running _ _ _ _ _ _ hr
    refine ⟨_, run_issue_takesEffect s (fun h _ => .trap h .soft (some (w.imm.setWidth 64))) hr, rfl, ?_⟩
    have htrap : ∀ h : Head, h.thread t = s.head.thread t → h.trap t .soft (w.common 0x15).op (some (w.imm.setWidth 64)) =
        h.tick.tick.setThread t { s.head.thread t with
          tpc := (s.head.thread t).pc, taddr := w.imm.setWidth 64, xw := (s.head.thread t).xw ||| 6#3
          tcause := BitVec.ofNat 64 (3 * 2 ^ 18 + 2 ^ 17 + 0x15 * 2 ^ 8 + 9), pc := (s.head.thread t).tvec + 576 } := by
      intro h hh
      rw [common_op_of_takesEffect hr]
      simp only [Head.trap, Head.trapF, hh, hF, hact, hvec, if_true, Bool.false_eq_true, if_false, Option.getD_some]
      rfl
    have hfin : (s.issued t (w.common 0x15) (.trap (s.head.fetched t) .soft (some (w.imm.setWidth 64)))).head =
        (s.head.fetched t).trap t .soft (w.common 0x15).op (some (w.imm.setWidth 64)) := rfl
    rw [hfin, htrap _ (fetched_thread _ _ _)]
    refine ⟨fun n hn => ?_, thread_setThread _ _ _ hrun, ?_⟩
    · rw [thread_setThread_other _ _ _ _ hn]
      exact fetched_thread s.head t n
    · rw [fetched_eq]; rfl
  · have hrun := takesEffect_running _ _ _ _ _ _ (goesOn_takesEffect hg)
    have he : exec (.eret t w) s = .next (s.issued t (w.common 0x28) (.jump ((s.head.fetched t).tick.setThread t
        { s.head.thread t with tcause := (s.head.thread t).tcause &&& ~~~(1#64 <<< 17) }) (s.head.thread t).tpc)) := by
      have he : exec (.eret t w) s = execEret t w s := rfl
      rw [he, execEret, run_issue_takesEffect s _ (goesOn_takesEffect hg)]
      simp only [htpc, if_true]
    have hthread := thread_setThread (s.head.fetched t).tick t
      { s.head.thread t with tcause := (s.head.thread t).tcause &&& ~~~(1#64 <<< 17) } hrun
    obtain ⟨hsame, -, hother⟩ := finish_inside_of_onlyThread (h := (s.head.fetched t).tick) (pc := (s.head.thread t).tpc)
      (by rw [hthread]; exact hrun) (by rw [hthread]; exact goesOn_inside hg)
      (onlyThread_setThread _ _ _ _ ⟨rfl, fun _ _ => rfl⟩)
    rw [hthread] at hsame
    exact ⟨_, he, rfl, fun n hn => (hother n hn).trans (fetched_thread s.head t n), hsame⟩

/-- Settles O14: `Head.entry` branch by branch. -/
theorem trapOrder : Obligations.TrapOrder := by
  intro h t c legal low uses body hi
  refine ⟨fun hp => ?_, fun hp hl => ?_, fun hp hs hl ht hp' => ?_, fun hp hs hl ht hb => ?_, fun hp hs hl hb ht => ?_⟩
  · simp only [Head.issue, Head.entry, hi, hp, fetched_thread, Bool.not_true, Bool.false_eq_true, if_false, if_true]
  · have hbad : (c.stray || !legal) = true := by
      obtain hs | hl := hl
      · rw [hs, Bool.true_or]
      · rw [hl, Bool.not_false, Bool.or_true]
    simp only [Head.issue, Head.entry, hi, hp, hbad, Bool.not_true, Bool.false_eq_true, if_false, if_true]
  · simp only [Head.issue, Head.entry, hi, hp, hs, hl, ht, hp', fetched_thread, Bool.not_true, Bool.not_false, Bool.or_self, Bool.and_self,
      Bool.false_eq_true, if_false, if_true]
  · have hallowed : ((h.thread t).takes c.pn c.ps && !low.le (h.thread t).tier) = false := by
      obtain ht | ht := ht
      · rw [ht, Bool.false_and]
      · rw [ht, Bool.not_true, Bool.and_false]
    simp only [Head.issue, Head.entry, hi, hp, hs, hl, hallowed, hb, fetched_thread, Bool.not_true, Bool.or_self,
      Bool.false_eq_true, if_false, if_true]
  · simp only [Head.issue, Head.entry, Head.finish, hi, hp, hs, hl, ht, hb, fetched_thread, Bool.not_true, Bool.not_false, Bool.or_self,
      Bool.false_and, Bool.false_eq_true, if_false, if_true]

/-! ## Queues -/

/-- What comes out of a hardware queue is its oldest entry. -/
theorem takeFrom_hwq_cons {h : Head} {x : Thread} {q : Nat} (hq : q < 4080) {v : Word} {r : List Word} (hl : h.hwq q = v :: r) :
    h.takeFrom x q = .buf (h.setHwq q r) v := by
  simp only [Head.takeFrom, Nat.not_le.mpr hq, if_false, hl]

theorem takeFrom_hwq_nil {h : Head} {x : Thread} {q : Nat} (hq : q < 4080) (hl : h.hwq q = []) : h.takeFrom x q = .empty := by
  simp only [Head.takeFrom, Nat.not_le.mpr hq, if_false, hl]

/-- What comes out of the queue of a buffer pool is a buffer of it. -/
theorem takeFrom_pool {h : Head} {x : Thread} {q : Nat} (hq : 4080 ≤ q) : h.takeFrom x q = h.bufAlloc (q - 4080) x.cls x.chargeId := by
  simp only [Head.takeFrom, hq, if_true]

/-- QGET of a queue that gives something. -/
theorem exec_qget_of_takeFrom {s : State} {t : Nat} {w : GWord}
    (hr : s.head.takesEffect t (w.common 0x18) (w.rb = 0 && w.fn = 0x01) .F [w.rd.toNat, w.ra.toNat] = true)
    (hq : queueOf (s.head.thread t) w < 4096) {k : Head} {v : Word}
    (hk : (s.head.fetched t).takeFrom (s.head.thread t) (queueOf (s.head.thread t) w) = .buf k v) :
    exec (.qget t w) s = .next (s.issued t (w.common 0x18) (.go (k.setThread t ((k.thread t).setReg w.rd.toNat v)))) := by
  have he : exec (.qget t w) s = execQget t w s := rfl
  rw [he, execQget, run_issue_takesEffect s _ hr]
  simp only [Nat.not_le.mpr hq, if_false, hk]

/-- QTRY of a queue that gives something. -/
theorem exec_qtry_of_takeFrom {s : State} {t : Nat} {w : GWord}
    (hr : s.head.takesEffect t (w.common 0x18) (w.rb = 0 && w.fn = 0x02) .F [w.rd.toNat, w.ra.toNat] = true)
    (hq : queueOf (s.head.thread t) w < 4096) {k : Head} {v : Word}
    (hk : (s.head.fetched t).takeFrom (s.head.thread t) (queueOf (s.head.thread t) w) = .buf k v) :
    exec (.qtry t w) s = .next (s.issued t (w.common 0x18)
      (.go (k.setThread t (((k.thread t).setReg w.rd.toNat v).setPred 7 true)))) := by
  have he : exec (.qtry t w) s = execQtry t w s := rfl
  rw [he, execQtry, run_issue_takesEffect s _ hr]
  simp only [Nat.not_le.mpr hq, if_false, hk]

/-- Settles O15: what each queue gives or takes (`takeFrom`), and the row that asks for it. -/
theorem queueInstructions : Obligations.QueueInstructions := by
  refine ⟨fun s t w hq => ⟨fun hr hroom => ?_, fun v r hl => ?_, fun hl hr => ?_⟩, fun s t w k v hlo hhi => ⟨fun hr => ?_, fun hb => ?_⟩⟩
  · have he : exec (.qput t w) s = execQput t w s := rfl
    rw [he, execQput, run_issue_takesEffect s _ hr]
    have hlow : ¬ 4096 ≤ queueOf (s.head.thread t) w := by omega
    simp only [hlow, Nat.not_le.mpr hq, fetched_hwq, Nat.not_le.mpr hroom, if_false]
  · have hk := takeFrom_hwq_cons (x := s.head.thread t) hq ((fetched_hwq s.head t _).trans hl)
    have hq' : queueOf (s.head.thread t) w < 4096 := by omega
    have hthread : ((s.head.fetched t).setHwq (queueOf (s.head.thread t) w) r).thread t = s.head.thread t := fetched_thread s.head t t
    refine ⟨fun hr => ?_, fun hr => ?_⟩
    · rw [exec_qget_of_takeFrom hr hq' hk, hthread]
    · rw [exec_qtry_of_takeFrom hr hq' hk, hthread]
  · have hk := takeFrom_hwq_nil (x := s.head.thread t) hq ((fetched_hwq s.head t _).trans hl)
    have hlow : ¬ 4096 ≤ queueOf (s.head.thread t) w := by omega
    have he : exec (.qtry t w) s = execQtry t w s := rfl
    rw [he, execQtry, run_issue_takesEffect s _ hr]
    simp only [hlow, hk, if_false]
  · have he : exec (.qput t w) s = execQput t w s := rfl
    rw [he, execQput, run_issue_takesEffect s _ hr]
    refine ⟨fun hk => ?_, fun hk => ?_⟩ <;> simp only [Nat.not_le.mpr hhi, hlo, if_true, if_false, hk]
  · have hk := (takeFrom_pool hlo).trans hb
    exact ⟨fun hr => exec_qget_of_takeFrom hr hhi hk, fun hr => exec_qtry_of_takeFrom hr hhi hk⟩

/-! ## Signals, IDLE, HALT and DISPATCH -/

/-- Settles O16, row by row. -/
theorem threadControl : Obligations.ThreadControl := by
  refine ⟨fun s t w => ⟨fun hn hr => ?_, fun hm hs => ?_, fun hr => ?_, fun hr => ?_⟩, fun s t w hr ha hn hb hi ho hst => ?_⟩
  · have he : exec (.sig t w) s = execSig t w s := rfl
    rw [he, execSig, run_issue_takesEffect s _ hr]
    simp only [Nat.not_le.mpr hn, if_false, fetched_thread, Thread.signalled]
  · refine computes_of_goes s _ t _ _ _ _ _ _ rfl hs ?_ (setReg_keeps _ _ _)
    have hmask : ∀ a b : Word, a &&& ~~~(a &&& b) = a &&& ~~~b := fun a b => by
      rw [BitVec.not_and, BitVec.and_or_distrib_left, BitVec.and_not_self]
      exact BitVec.zero_or
    simp only [hm, if_false, hmask]
  · exact run_issue_takesEffect s _ hr
  · exact run_issue_takesEffect s _ hr
  · have he : exec (.dispatch t w) s = execDispatch t w s := rfl
    rw [he, execDispatch, run_issue_takesEffect s _ hr]
    have hin : ¬ (776 ≤ ((s.head.thread t).reg w.ra.toNat).toNat ∨ hbmLimit < ((s.head.thread t).reg w.rb.toNat).toNat + 64 ∨
        inInstr ((s.head.thread t).reg w.rb.toNat).toNat 64 = true) := by
      rw [hi]
      exact fun h => h.elim (Nat.not_le.mpr hn) fun h => h.elim (Nat.not_lt.mpr hb) Bool.false_ne_true
    simp only [ha, hin, ho, hst, ne_eq, not_true_eq_false, Bool.not_true, Bool.false_eq_true, if_false]

end Sys2Proof.Machine
end

section
/-! PROOFS. Host verbs: a verb held with its operands and its answer, the verbs that wait for the commit point, writes and their sources,
record reads, resets, digests, attestation, activation and tape jobs. -/

namespace Sys2Proof.Machine

/-! ## Verbs as commands -/

/-- A row of a host verb that starts, acting as another way to act on the verb just issued. -/
theorem exec_hostVerb {s : State} {i : Instr} {t vc mask : Nat} {counts : List Nat} {w : VWord} {run : Head → HVerb → Head}
    (g : Head → HVerb → Head) (hs : s.head.verbStarts t vc mask counts w = true)
    (hi : exec i s = s.run (fun h => h.hostVerb t vc mask counts w run))
    (hg : run (s.verbHead t vc w) (s.verbNew t vc w) = g (s.verbHead t vc w) (s.verbNew t vc w)) :
    exec i s = .next (s.verbRuns t vc w g) := by
  rw [hi, hostVerb_starts s t vc mask counts w run hs, verbRuns_congr s t vc w run g hg]

/-- A row of a unit verb that starts, likewise. -/
theorem exec_unitVerb {s : State} {i : Instr} {t vc mask : Nat} {counts : List Nat} {w : VWord} {run : Head → HVerb → Head}
    (g : Head → HVerb → Head) (hs : s.head.unitStarts t vc mask counts w = true)
    (hi : exec i s = s.run (fun h => h.unitVerb t vc mask counts w run))
    (hg : run (s.verbHead t vc w) (s.verbNew t vc w) = g (s.verbHead t vc w) (s.verbNew t vc w)) :
    exec i s = .next (s.verbRuns t vc w g) := by
  rw [hi, unitVerb_starts s t vc mask counts w run hs, verbRuns_congr s t vc w run g hg]

/-- A host verb of a program that is run again, whose first run goes on, goes on as that one. -/
theorem exec_hostVerb_resumed {s : State} {i : Instr} {t vc mask : Nat} {counts : List Nat} {w : VWord} {run : Head → HVerb → Head}
    {k : Head} (hv : s.head.verbIssues t mask w = true) (hi : exec i s = s.run (fun h => h.hostVerb t vc mask counts w run))
    (hl : (s.verbHead t vc w).fromLog (s.verbNew t vc w) = none) (hk : (s.verbHead t vc w).resumeVerb (s.verbNew t vc w) = some k) :
    exec i s = .next (s.verbRuns t vc w (fun _ _ => k)) := by
  simp only [Head.verbIssues, Bool.and_eq_true] at hv
  obtain ⟨hr, hroom⟩ := hv
  simp only [Head.roomFor, Bool.not_eq_true'] at hroom
  have hbegin : (s.verbHead t vc w).beginVerb (s.verbNew t vc w) (s.head.thread t).tier counts run = k := by
    simp only [Head.beginVerb, hl, hk]
  rw [hi, run_eq, Head.hostVerb, issue_takesEffect _ _ _ _ _ _ _ hr, Head.issueVerb, if_neg (by rw [hroom]; exact Bool.false_ne_true)]
  exact congrArg (fun k => Host.Outcome.next (s.issued t w.common (.act k))) hbegin

/-- The immediate of a verb just issued. -/
theorem verbNew_imm (s : State) (t vc : Nat) (w : VWord) : (s.verbNew t vc w).imm = w.imm.toNat := rfl

/-! ## Outstanding verbs -/

theorem fetched_logFull (h : Head) (t : Nat) (k : Option (Nat × Nat)) (outs : Nat) : (h.fetched t).logFull k outs = h.logFull k outs := by
  obtain hf | ⟨l, -, hf⟩ := fetched_cases h t
  · rw [hf]
  · rw [hf]; rfl

/-- A thread that can issue runs. -/
theorem running_of_canIssue {h : Head} {t : Nat} (hc : h.canIssue t = true) : (h.thread t).run = .running := by
  simp only [Head.canIssue, Bool.and_eq_true, decide_eq_true_eq] at hc
  exact hc.1.1.2

theorem exec_verbComplete {s : State} {t i : Nat} {v : OutVerb} {a : VRes} (hv : (s.head.thread t).verbs[i]? = some v)
    (ha : v.ans = some a) (ht : v.taken = false) (hr : (s.head.thread t).run ≠ .waitVerb v.vid) :
    exec (.verbComplete t i) s = .next (s.become (s.head.setThread t { ((s.head.thread t).setReg v.rd.toNat a.result) with
      verbs := (s.head.thread t).verbs.map (fun (u : OutVerb) => if u.vid = v.vid then { u with taken := true } else u) })) := by
  have he : exec (.verbComplete t i) s = execVerbComplete t i s := rfl
  rw [he, execVerbComplete, run_eq]
  simp only [hv, ha, ht, hr, decide_false, Bool.or_self, Bool.false_eq_true, if_false]

/-- The thread that a verb just issued leaves: it goes on, or waits for that verb. -/
theorem verbHead_thread {s : State} {t : Nat} (hc : s.head.canIssue t = true) (vc : Nat) (w : VWord) :
    (s.verbHead t vc w).thread t = { s.head.thread t with
      verbs := (s.head.thread t).verbs ++
        [⟨((s.head.fetched t).logGrown (s.head.thread t).cmd (s.head.thread t).outs).work.vid, vc, w.rd, none, false⟩]
      run := if w.w then
          .waitVerb ((s.head.fetched t).logGrown (s.head.thread t).cmd (s.head.thread t).outs).work.vid
        else (s.head.thread t).run } := by
  refine thread_setThread_of_run_ne_free _ t ?_
  have hrun := running_of_canIssue hc
  show (if w.w then _ else (s.head.thread t).run) ≠ .free
  split
  · exact nofun
  · rw [hrun]; exact nofun

/-- Settles O18: the parts of a verb just issued, and what its answer writes. -/
theorem outstandingVerbs : Obligations.OutstandingVerbs := by
  refine ⟨fun s t vc w hc => ⟨rfl, rfl, rfl, fun hl => if_neg (by rw [fetched_logFull, hl]; exact Bool.false_ne_true), ?_, fun hw => ?_,
    fun hw => ?_, fun n hn => ?_⟩, fun s t i v a => exec_verbComplete⟩
  · have hw : (s.verbHead t vc w).work = ((((s.head.fetched t).logGrown (s.head.thread t).cmd (s.head.thread t).outs).countVerb
        (s.head.thread t).cmd).nextVerb).work := rfl
    rw [hw]
    cases hcmd : (s.head.thread t).cmd <;> rfl
  · rw [verbHead_thread hc, hw]; rfl
  · rw [verbHead_thread hc, hw]; rfl
  · have hn' : (s.verbHead t vc w).thread n = ((((s.head.fetched t).logGrown (s.head.thread t).cmd (s.head.thread t).outs).countVerb
        (s.head.thread t).cmd).nextVerb).thread n := thread_setThread_other _ _ _ _ hn
    rw [hn']
    cases hcmd : (s.head.thread t).cmd <;> rfl

/-! ## Verbs that wait for the commit point -/

/-- FLUSH and MARK wait for the commit point, of stream scope where the command has ORD. -/
theorem beginCover_eq_push {h : Head} {v : HVerb} {c : Cmd} (hc : h.caller v = some c) (ho : v.imm % 2 = 1 → c.ord = true) :
    h.beginCover v = h.push v .effect := by
  have hno : (decide (v.imm % 2 = 1) && !c.ord) = false := by
    by_cases hi : v.imm % 2 = 1
    · rw [ho hi, Bool.not_true, Bool.and_false]
    · rw [decide_eq_false hi, Bool.false_and]
  simp only [Head.beginCover, hc, hno, Bool.false_eq_true, if_false]

/-- A verb of which only bit 0 of IMM is defined has IMM 1 where that bit is set. -/
theorem imm_eq_one {h : Head} {t vc : Nat} {counts : List Nat} {w : VWord} (hs : h.verbStarts t vc 1 counts w = true)
    (hi : w.imm.toNat % 2 = 1) : w.imm = 1 := by
  have hl : verbLegal 1 w = true := by
    simp only [Head.verbStarts, Head.verbIssues, Head.takesEffect, Bool.and_eq_true] at hs
    obtain ⟨⟨⟨⟨⟨⟨⟨_, _, hl⟩, _⟩, _⟩, _⟩, _⟩, _⟩, _⟩ := hs
    exact hl
  simp only [verbLegal, Bool.and_eq_true, decide_eq_true_eq, Nat.and_one_is_mod] at hl
  refine BitVec.eq_of_toNat_eq ?_
  rw [← hl.1.1, hi]
  rfl

/-- Settles O19: each row acts by `push`. -/
theorem effectVerbsStart : Obligations.EffectVerbsStart := by
  intro s t w
  have cover : ∀ vc, ∀ c, (s.verbHead t vc w).caller (s.verbNew t vc w) = some c → (w.imm = 1 → c.ord = true) →
      s.head.verbStarts t vc 1 [0] w = true →
      (s.verbHead t vc w).beginCover (s.verbNew t vc w) = (s.verbHead t vc w).push (s.verbNew t vc w) .effect :=
    fun vc c hc ho hs => beginCover_eq_push hc fun hi => ho (imm_eq_one hs hi)
  exact ⟨fun hs => exec_hostVerb _ hs rfl rfl, fun hs => exec_hostVerb _ hs rfl rfl, fun hs => exec_hostVerb _ hs rfl rfl,
    fun hs => exec_hostVerb _ hs rfl rfl,
    fun hs => ⟨exec_hostVerb _ hs rfl rfl, exec_hostVerb _ hs rfl rfl, exec_hostVerb _ hs rfl rfl⟩,
    fun hs => exec_hostVerb _ hs rfl rfl, fun hs => exec_hostVerb _ hs rfl rfl, fun hs => exec_hostVerb _ hs rfl rfl,
    fun hs => exec_hostVerb _ hs rfl rfl, fun hs => exec_hostVerb _ hs rfl rfl, fun hs => exec_hostVerb _ hs rfl rfl,
    fun hs => ⟨exec_hostVerb _ hs rfl rfl, exec_hostVerb _ hs rfl rfl⟩, fun hs => exec_hostVerb _ hs rfl rfl,
    fun hs => exec_hostVerb _ hs rfl rfl, fun c hc ho hs => exec_hostVerb _ hs rfl (cover _ c hc ho hs),
    fun c hc ho hs => exec_hostVerb _ hs rfl (cover _ c hc ho hs)⟩

/-! ## PUT and PUTA -/

/-- What a write waits for: its source, at its place. -/
def putWait (vol : Nat) (off : Option Nat) (len : Nat) (src : Src) (atom : Bool) : Await :=
  .put ⟨vol, off, len, src, atom, off.isNone, [], [], [], []⟩

/-- A write that is not atomic waits for its source and its commit point. -/
theorem beginPut_plain {h k : Head} {v : HVerb} {vol : Nat} {off : Option Nat} {r : Word} {len : Nat} {src : Src}
    (hv : (h.volFor v vol).isSome = true) (hr : (match off with | some o => pastEnd o len | none => decide (2 ^ 50 < len)) = false)
    (hs : h.writeSource v r len = .ok (k, src)) (hi : v.imm = 0) :
    h.beginPut v vol off r len = k.push v (putWait vol off len src false) := by
  obtain ⟨y, hy⟩ := Option.isSome_iff_exists.mp hv
  have hatom : decide (v.imm % 2 = 1) = false := by rw [hi]; rfl
  cases off <;>
    simp only [Head.beginPut, hy, hr, hs, hatom, Bool.false_and, Bool.or_self, Bool.false_eq_true, if_false, putWait]

/-- An atomic write takes a slot too. -/
theorem beginPut_atomic {h k : Head} {v : HVerb} {vol : Nat} {off : Option Nat} {r : Word} {len : Nat} {src : Src}
    (hv : (h.volFor v vol).isSome = true) (hr : (match off with | some o => pastEnd o len | none => decide (2 ^ 50 < len)) = false)
    (hs : h.writeSource v r len = .ok (k, src)) (hi : v.imm = 1) (hpos : 0 < len) (hmax : len ≤ 268435456) :
    (k.atomsFull = false →
      h.beginPut v vol off r len = (k.takeAtom v vol (off.getD 0) len).push v (putWait vol off len src true)) ∧
    (k.atomsFull = true → k.atomOf v vol len = none → h.beginPut v vol off r len = k.failVerb v .capacity) := by
  obtain ⟨y, hy⟩ := Option.isSome_iff_exists.mp hv
  have hatom : decide (v.imm % 2 = 1) = true := by rw [hi]; rfl
  have hlong : decide (268435456 < len) = false := decide_eq_false (Nat.not_lt.mpr hmax)
  refine ⟨fun hf => ?_, fun hf ho => ?_⟩
  · cases off <;>
      simp only [Head.beginPut, hy, hr, hs, hatom, hlong, hf, putWait, decide_eq_true hpos, Bool.and_false, Bool.false_and, Bool.and_true,
        Bool.or_self, Bool.false_eq_true, if_false, if_true]
  · cases off <;>
      simp only [Head.beginPut, hy, hr, hs, hatom, hlong, hf, ho, decide_eq_true hpos, Option.isNone_none, Bool.and_false, Bool.and_self,
        Bool.or_self, Bool.false_eq_true, if_false, if_true]

/-- A source named by a window reference of the present generation. -/
theorem ref_current {h : Head} {side : Nat} {replay : Bool} {r : Word} {w : Window} (hw : h.window side (refKey r) = some w)
    (hg : w.gen = refGen r) : h.ref side replay r = .ok w := by
  simp only [Head.ref, hw, hg, if_true]

theorem ref_stale {h : Head} {side : Nat} {replay : Bool} {r : Word} {w : Window} (hw : h.window side (refKey r) = some w)
    (hg : w.gen ≠ refGen r) : h.ref side replay r = .error .windowStale := by
  simp only [Head.ref, hw, if_neg hg]

/-- The inline data of a command as a source. -/
theorem writeSource_inline {h : Head} {v : HVerb} {len : Nat} {c : Cmd} (hc : h.caller v = some c) :
    (c.inl.length = len → h.writeSource v 0 len = .ok (h, .inl c.inl)) ∧
    (c.inl.length ≠ len → h.writeSource v 0 len = .error .lengthMismatch) := by
  refine ⟨fun hl => ?_, fun hl => ?_⟩
  · simp only [Head.writeSource, hc, hl, if_true]
  · simp only [Head.writeSource, hc, hl, if_true, if_false]

/-- A window as a source. -/
theorem writeSource_window {h : Head} {v : HVerb} {r : Word} {len : Nat} {w : Window} (hr : r ≠ 0)
    (hw : h.window (h.vside v) (refKey r) = some w) :
    (w.gen ≠ refGen r → h.writeSource v r len = .error .windowStale) ∧
    (w.gen = refGen r → w.out = false → w.unmir = false → refOff r + len ≤ w.size →
      h.writeSource v r len = .ok (h.named v w, .win w.key w.gen (refOff r))) ∧
    (w.gen = refGen r → w.size < refOff r + len → h.writeSource v r len = .error .invalid) := by
  refine ⟨fun hg => ?_, fun hg ho hu hl => ?_, fun hg hl => ?_⟩
  · simp only [Head.writeSource, if_neg hr, ref_stale hw hg]
  · simp only [Head.writeSource, if_neg hr, ref_current hw hg, ho, hu, Nat.not_lt.mpr hl, decide_false, Bool.or_self,
      Bool.false_eq_true, if_false]
  · simp only [Head.writeSource, if_neg hr, ref_current hw hg, hl, decide_true, Bool.or_true, if_true]

/-- Settles O21: a write begins as `beginPut` says where its checks pass; its source is what `writeSource` gives. -/
theorem writeVerbs : Obligations.WriteVerbs := by
  refine ⟨fun s t w k src => ⟨fun hv hl hk => exec_hostVerb_resumed hv rfl hl hk, fun hv hl hk => exec_hostVerb_resumed hv rfl hl hk,
    fun hs hv he hsrc => ⟨fun hi => ?_, fun hi hpos hmax => ⟨fun hf => ?_, fun hf ho => ?_⟩⟩, fun hs hv he hsrc => ⟨fun hi => ?_, fun hi hpos hmax hf => ?_⟩⟩,
    fun h v r len => ⟨fun c hr hc => ?_, fun w hr hw => writeSource_window hr hw⟩⟩
  · exact exec_hostVerb _ hs rfl (beginPut_plain (off := some _) hv he hsrc (by rw [verbNew_imm, hi]; rfl))
  · exact exec_hostVerb _ hs rfl ((beginPut_atomic (off := some _) hv he hsrc (by rw [verbNew_imm, hi]; rfl) hpos hmax).1 hf)
  · exact exec_hostVerb _ hs rfl ((beginPut_atomic (off := some _) hv he hsrc (by rw [verbNew_imm, hi]; rfl) hpos hmax).2 hf ho)
  · exact exec_hostVerb _ hs rfl (beginPut_plain (off := none) hv (decide_eq_false (Nat.not_lt.mpr he)) hsrc (by rw [verbNew_imm, hi]; rfl))
  · exact exec_hostVerb _ hs rfl ((beginPut_atomic (off := none) hv (decide_eq_false (Nat.not_lt.mpr he)) hsrc
      (by rw [verbNew_imm, hi]; rfl) hpos hmax).1 hf)
  · subst hr
    exact writeSource_inline hc

/-! ## Deliveries -/

/-- A destination that takes `n` bytes now is there. -/
theorem dest_of_reaches {h : Head} {side : Nat} {replay : Bool} {r : Word} {n : Nat} (hr : h.reaches side replay r n = true) :
    ∃ w, h.dest side replay r n = .ok w := by
  unfold Head.reaches at hr
  unfold Head.dest
  cases hw : h.ref side replay r with
  | error e => rw [hw] at hr; exact absurd hr Bool.false_ne_true
  | ok w =>
    rw [hw] at hr
    simp only [Bool.and_eq_true, decide_eq_true_eq] at hr
    exact ⟨w, if_neg (Nat.not_lt.mpr hr.1)⟩

/-- It takes any bytes that are no more. -/
theorem deliver_of_reaches {h : Head} {side : Nat} {replay : Bool} {r : Word} {n : Nat} (hr : h.reaches side replay r n = true)
    {b : List Byte} (hb : b.length ≤ n) : ∃ k c ps, h.deliver side replay r b = .ok (k, c, ps) := by
  unfold Head.reaches at hr
  unfold Head.deliver
  cases hw : h.ref side replay r with
  | error e => rw [hw] at hr; exact absurd hr Bool.false_ne_true
  | ok w =>
    rw [hw] at hr
    simp only [Bool.and_eq_true, Bool.or_eq_true, Bool.not_eq_true', decide_eq_true_eq] at hr
    obtain ⟨hsize, hopen⟩ := hr
    have hfits : ¬ w.size < refOff r + b.length := by omega
    cases ho : w.out with
    | false => simp only [hfits, if_false, ho, Bool.false_eq_true]; exact ⟨_, _, _, rfl⟩
    | true =>
      cases hc : h.conn w.conn with
      | none => simp [ho, hc] at hopen
      | some c =>
        have hst : c.state = .opened := by simpa [ho, hc] using hopen
        simp only [hfits, if_false, ho, if_true, hc, hst, ne_eq, not_true_eq_false]
        exact ⟨_, _, _, rfl⟩

/-! ## A delivery leaves the recorder -/

theorem draw_rcd (h : Head) (r n : Nat) (con : Option Nat) : (h.draw r n con).rcd = h.rcd := by
  cases con <;> rfl

theorem wire_rcd (h : Head) (chan : Nat) (fs : List (Nat × PlFrame)) : (h.wire chan fs).rcd = h.rcd := by
  unfold Head.wire
  split
  · exact foldl_keeps (fun k => k.rcd = h.rcd) (fun k f => k.emit (.pl (f.2.bytes chan f.1) f.2)) (fun _ _ hk => hk) fs h rfl
  · rfl

theorem mirror_rcd (h : Head) (f : PlFrame) : (h.mirror f).1.rcd = h.rcd := by
  unfold Head.mirror
  split
  · exact (wire_rcd _ _ _).trans (draw_rcd _ _ _ _)
  · rfl

theorem updWindow_rcd (h : Head) (side idx : Nat) (f : Window → Window) : (h.updWindow side idx f).rcd = h.rcd := by
  unfold Head.updWindow
  dsimp only
  split
  · exact mirror_rcd _ _
  · rfl

theorem placePage_rcd (h : Head) (id off : Nat) (b : List Byte) : (h.placePage id off b).rcd = h.rcd := by
  unfold Head.placePage
  dsimp only
  split
  · rfl
  · split
    · split <;> exact mirror_rcd _ _
    · exact mirror_rcd _ _

theorem winWrite_rcd (h : Head) (w : Window) (off : Nat) (b : List Byte) : (h.winWrite w off b).rcd = h.rcd := by
  unfold Head.winWrite
  extract_lets cuts k f
  have hk : k.rcd = h.rcd := by
    simp only [k]
    split
    · refine foldl_keeps (fun k => k.rcd = h.rcd) _ ?_ cuts h rfl
      exact fun _ _ hk => hk
    · exact foldl_keeps (fun k => k.rcd = h.rcd) _ (fun k c hk => (placePage_rcd k _ _ _).trans hk) cuts h rfl
  split
  · exact (updWindow_rcd _ _ _ _).trans hk
  · exact hk

theorem sendEth_rcd (h : Head) (f : EthOut) : (h.sendEth f).rcd = h.rcd := by
  unfold Head.sendEth
  extract_lets ups free
  split
  · rfl
  · split <;> rfl

theorem sendMsg_rcd (h : Head) (c : Conn) (psn path : Nat) (retx : Bool) (dport : Nat) (m : CptMsg) :
    (h.sendMsg c psn path retx dport m).rcd = h.rcd := by
  refine (sendEth_rcd _ _).trans ?_
  split <;> rfl

theorem reliable_rcd (h : Head) (n : Nat) (m : CptMsg) : (h.reliable n m).1.rcd = h.rcd := by
  unfold Head.reliable
  dsimp only
  split
  · rfl
  · dsimp only
    split
    · exact sendMsg_rcd _ _ _ _ _ _ _
    · rfl

theorem deliver_rcd {h k : Head} {side : Nat} {replay : Bool} {r : Word} {b : List Byte} {c : Nat} {ps : List Nat}
    (hk : h.deliver side replay r b = .ok (k, c, ps)) : k.rcd = h.rcd := by
  unfold Head.deliver at hk
  dsimp only at hk
  split at hk
  · exact absurd hk nofun
  · split at hk
    · exact absurd hk nofun
    · split at hk
      · split at hk
        · exact absurd hk nofun
        · split at hk
          · exact absurd hk nofun
          · obtain ⟨rfl, -⟩ := Prod.mk.inj (Except.ok.inj hk)
            exact foldl_keeps (fun acc : Head × List Nat => acc.1.rcd = h.rcd) _ (fun acc i ha => (reliable_rcd _ _ _).trans ha) _ _ rfl
      · obtain ⟨rfl, -⟩ := Prod.mk.inj (Except.ok.inj hk)
        exact winWrite_rcd _ _ _ _

/-! ## JOURNAL.READ and EVENT.READ -/

theorem JRec_bytes_length (r : JRec) (deny : Bool) : (r.bytes deny).length = 32 := by
  simp only [JRec.bytes, List.length_append, leBytes_length]

theorem Event_bytes_length (e : Event) : e.bytes.length = 64 := by
  simp only [Event.bytes, List.length_append, leBytes_length]

/-- Records of one length put one after another. -/
theorem length_flatten_map {α : Type} (f : α → List Byte) (n : Nat) (hf : ∀ a, (f a).length = n) (l : List α) :
    ((l.map f).flatten).length = n * l.length := by
  induction l with
  | nil => rfl
  | cons a r ih =>
    rw [List.map_cons, List.flatten_cons, List.length_append, ih, hf, List.length_cons, Nat.mul_succ, Nat.add_comm]

/-- A range of `n` records gives at most `n`. -/
theorem journalRange_length (h : Head) (side first n newest : Nat) (held : Bool) :
    (h.journalRange side first n newest held).1.length ≤ n := by
  unfold Head.journalRange
  cases held with
  | true =>
    have htake : (((((h.jour side).held.map (fun e => e.1)).drop first).take n).length) ≤ n := List.length_take_le _ _
    simp only [if_true]
    split
    · exact (List.length_filter_le _ _).trans htake
    · exact htake
  | false =>
    simp only [Bool.false_eq_true, if_false, List.length_map]
    calc (List.filterMap id _).length ≤ _ := List.length_filterMap_le _ _
      _ = _ := List.length_map _
      _ ≤ _ := List.length_filter_le _ _
      _ = n := by rw [List.length_map, upto, List.length_range]

/-- Settles O23: both verbs answer from their counts, else by what their destination says. -/
theorem recordVerbs : Obligations.RecordVerbs := by
  intro s t w
  refine ⟨fun hs => ⟨fun hbad => ?_, fun hside hn => ?_, fun hside hlo hhi => ⟨fun e he => ?_, fun hr => ?_⟩⟩,
    fun hs => ⟨fun hbad => ?_, fun hn => ?_, fun hlo hhi => ⟨fun e he => ?_, fun hr => ?_⟩⟩⟩
  · refine exec_hostVerb _ hs rfl ?_
    simp only [Head.beginJournalRead, hbad, if_true]
  · refine exec_hostVerb _ hs rfl ?_
    have hok : ¬ (1 < (s.verbNew t 0x14 w).arg 0 ∨ 65536 < (s.verbNew t 0x14 w).arg 2) := by omega
    simp only [Head.beginJournalRead, hok, if_false]
    exact if_pos hn
  · refine exec_hostVerb _ hs rfl ?_
    have hok : ¬ (1 < (s.verbNew t 0x14 w).arg 0 ∨ 65536 < (s.verbNew t 0x14 w).arg 2) := by omega
    have hn : ¬ (s.verbNew t 0x14 w).arg 2 = 0 := by omega
    simp only [Head.beginJournalRead, hok, hn, if_false, he]
  · obtain ⟨y, hy⟩ := dest_of_reaches hr
    obtain ⟨k, c, ps, hk⟩ := deliver_of_reaches hr (b := _) (le_of_eq_of_le (length_flatten_map _ 32 (fun r => JRec_bytes_length r _) _)
      (Nat.mul_le_mul_left 32 (journalRange_length _ _ _ _ _ _)))
    refine ⟨k, c, ps, hk, exec_hostVerb _ hs rfl ?_⟩
    have hok : ¬ (1 < (s.verbNew t 0x14 w).arg 0 ∨ 65536 < (s.verbNew t 0x14 w).arg 2) := by omega
    have hn : ¬ (s.verbNew t 0x14 w).arg 2 = 0 := by omega
    simp only [Head.beginJournalRead, hok, hn, if_false, hy, hk]
  · refine exec_hostVerb _ hs rfl ?_
    simp only [Head.beginEventRead, hbad, if_true]
  · refine exec_hostVerb _ hs rfl ?_
    have hok : ¬ 65536 < (s.verbNew t 0x15 w).arg 1 := by omega
    simp only [Head.beginEventRead, hok, if_false]
    exact if_pos hn
  · refine exec_hostVerb _ hs rfl ?_
    have hok : ¬ 65536 < (s.verbNew t 0x15 w).arg 1 := by omega
    have hn : ¬ (s.verbNew t 0x15 w).arg 1 = 0 := by omega
    simp only [Head.beginEventRead, hok, hn, if_false, he]
  · obtain ⟨y, hy⟩ := dest_of_reaches hr
    have hlen : ∀ (f : Nat → Option Event) (p : Nat → Bool) (g : Nat → Nat) (n : Nat),
        ((((((upto n).map g).filter p).map f).filterMap id).map Event.bytes).flatten.length ≤ 64 * n := by
      intro f p g n
      rw [length_flatten_map _ 64 Event_bytes_length]
      refine Nat.mul_le_mul_left 64 ?_
      calc (List.filterMap id _).length ≤ _ := List.length_filterMap_le _ _
        _ = _ := List.length_map _
        _ ≤ _ := List.length_filter_le _ _
        _ = n := by rw [List.length_map, upto, List.length_range]
    obtain ⟨k, c, ps, hk⟩ := deliver_of_reaches hr (b := _) (hlen _ _ _ _)
    refine ⟨k, c, ps, hk, exec_hostVerb _ hs rfl ?_⟩
    have hok : ¬ 65536 < (s.verbNew t 0x15 w).arg 1 := by omega
    have hn : ¬ (s.verbNew t 0x15 w).arg 1 = 0 := by omega
    have hnewest : k.newestEvent = (s.verbHead t 0x15 w).newestEvent := by simp only [Head.newestEvent, deliver_rcd hk]
    simp only [Head.beginEventRead, hok, hn, if_false, hy, hk, hnewest]

end Sys2Proof.Machine
end

section
/-! PROOFS. Jobs that a verb starts: QRESET and RESET, digests, attestation, activation, ARCHIVE and RESTORE; and the unit verbs of
firmware. -/

namespace Sys2Proof.Machine

/-! ## QRESET and RESET -/

/-- QRESET of another queue: it takes no entry from now on, and those in its slots are lost. -/
theorem beginQreset_other {h : Head} {v : HVerb} {q : Nat} (hq : q < 65536) (ho : h.ownQueue v q = false) :
    h.beginQreset v q = ((h.updQueue (h.vside v) q (fun q => { q with rst := true, slots := [] })).sayQueue (h.vside v) q).pushA v
      (.qreset (h.vside v) q) (.ok 0) := by
  have hr : decide (65535 < q) = false := decide_eq_false (by omega)
  simp only [Head.beginQreset, hr, ho, Bool.or_self, Bool.false_eq_true, if_false]

theorem beginReset_head {h : Head} {v : HVerb} {k : Nat × Nat} (ha : v.arg 0 = 0) (hc : v.cmd = some k) (hh : h.pair.handoff = none) :
    h.beginReset v = (h.setRst { h.sys.rst with pend := h.sys.rst.pend ++ [(k, 0, 0)] }).pushA v .nothing (.ok 0) := by
  simp only [Head.beginReset, ha, hc, hh, Option.isNone_some, Option.isSome_none, Option.getD_some, Bool.false_eq_true, if_false]

theorem beginReset_island {h : Head} {v : HVerb} {k : Nat × Nat} (ha : v.arg 0 = 1) (hc : v.cmd = some k)
    (hi : h.islandRefused (v.arg 1) = false) :
    h.beginReset v = (h.setRst { h.sys.rst with pend := h.sys.rst.pend ++ [(k, 1, v.arg 1)] }).pushA v .nothing (.ok 0) := by
  simp only [Head.beginReset, ha, hc, hi, Option.isNone_some, Option.getD_some, Bool.or_self, Bool.false_eq_true, if_false]

theorem beginReset_queue {h : Head} {v : HVerb} (ha : v.arg 0 = 2) : h.beginReset v = h.beginQreset v (v.arg 1) := by
  simp only [Head.beginReset, ha]

/-! ## Digests -/

/-- A digest context of the caller's takes the fragments listed. -/
theorem doDigest_takes {h k : Head} {v : HVerb} {l : List Byte} (howned : (h.dgctx (v.imm % 16)).owner ≠ 255)
    (hown : (h.dgctx (v.imm % 16)).owner = h.vslot v) (hn : v.arg 1 ≠ 0) (hl : h.digestList v (16 * v.arg 1) = .ok (l, false))
    (hk : h.digestInto (v.imm % 16) (gather (h.digestFrag v (decide (nth 0 v.ops 0 = 0))) l (v.arg 1)) = .ok k) :
    h.doDigest v = ((nth 0 v.ops 0 :: fragRefs l (v.arg 1)).foldl (fun h r => if r = 0 then h else h.nameRef v r) k).pushC v .nothing
      (.ok (BitVec.ofNat 64 (v.imm % 16))) := by
  have hmine : (decide ((h.dgctx (v.imm % 16)).owner = 255) || decide ((h.dgctx (v.imm % 16)).owner ≠ h.vslot v)) = false := by
    rw [decide_eq_false howned, decide_eq_false (not_not_intro hown), Bool.or_self]
  simp only [Head.doDigest, hmine, hn, if_false, hl, Bool.false_eq_true, hk]

/-- A fragment list of no entries digests nothing. -/
theorem doDigest_empty {h : Head} {v : HVerb} (howned : (h.dgctx (v.imm % 16)).owner ≠ 255)
    (hown : (h.dgctx (v.imm % 16)).owner = h.vslot v) (hn : v.arg 1 = 0) : h.doDigest v = h.pushC v .nothing (.fail .empty) := by
  have hmine : (decide ((h.dgctx (v.imm % 16)).owner = 255) || decide ((h.dgctx (v.imm % 16)).owner ≠ h.vslot v)) = false := by
    rw [decide_eq_false howned, decide_eq_false (not_not_intro hown), Bool.or_self]
  simp only [Head.doDigest, hmine, hn, if_true, Bool.false_eq_true, if_false]

/-! ## Tape jobs -/

/-- ARCHIVE that its port takes runs a job for the snapshot named. -/
theorem beginArchive_runs {h : Head} {v : HVerb} {b : List Byte} (hp : v.arg 1 ≤ 1) (ha : h.attachJob (v.arg 1) v true = none)
    (hsrc : h.source (h.vside v) (h.vreplay v) (nth 0 v.ops 2) 64 = .ok (b, false)) (hsnap : h.handle (nth 0 v.ops 0) ≠ [])
    (h0 : dword b 0 31 2 = 0) (h1 : dword b 1 31 0 = 0) (hz : ((b.drop 16).take 48).all (fun x => x = 0) = true)
    (hweak : dword b 0 1 1 = 0)
    (htakes : h.portTakes (v.arg 1) (if dword b 0 0 0 = 1 then 0 else dword b 0 63 32) true = true) :
    ∃ j : TJob, j.vid = v.vid ∧ j.snap = nth 0 v.ops 0 ∧ j.todo = h.snapRanges (h.handle (nth 0 v.ops 0)) ∧
      h.beginArchive v = h.runJob (v.arg 1) v j := by
  have hsome : (h.handle (nth 0 v.ops 0)).isEmpty = false := by
    rw [← Bool.not_eq_true, List.isEmpty_iff]; exact hsnap
  refine ⟨_, ?_, ?_, ?_, by
    simp only [Head.beginArchive, Nat.not_lt.mpr hp, ha, hsrc, hsome, h0, h1, hz, hweak, htakes, ne_eq, not_true_eq_false, decide_false,
      Bool.not_true, Bool.or_self, Bool.false_eq_true, Nat.zero_ne_one, if_false]
    rfl⟩ <;> rfl

/-- RESTORE that its port takes runs a job for the range of records named. -/
theorem beginRestore_runs {h : Head} {v : HVerb} {b : List Byte} (hp : v.arg 0 ≤ 1) (ha : h.attachJob (v.arg 0) v false = none)
    (hvol : (h.volFor v (v.arg 1)).isSome = true)
    (hsrc : h.source (h.vside v) (h.vreplay v) (nth 0 v.ops 2) 96 = .ok (b, false))
    (h0 : dword b 0 31 2 = 0) (hsig : dword b 0 1 0 ≠ 3) (h1 : dword b 1 15 0 = 0) (hcount : dword b 2 63 0 ≤ 2 ^ 48)
    (h3 : dword b 3 47 0 = 0) (hz : ((b.drop 40).take 24).all (fun x => x = 0) = true) :
    (h.work.readMostly = true → h.beginRestore v = h.failVerb v .capacity) ∧
    (h.work.readMostly = false → h.portTakes (v.arg 0) (dword b 0 63 32) false = true →
      ∃ j : TJob, j.vid = v.vid ∧ j.vol = v.arg 1 ∧ j.archive = false ∧ j.first = dword b 1 63 16 ∧ j.count = dword b 2 63 0 ∧
        h.beginRestore v = h.runJob (v.arg 0) v j) := by
  obtain ⟨y, hy⟩ := Option.isSome_iff_exists.mp hvol
  have hlong : ¬ 2 ^ 48 < dword b 2 63 0 := Nat.not_lt.mpr hcount
  refine ⟨fun hr => ?_, fun hr htakes => ⟨_, ?_, ?_, ?_, ?_, ?_, by
    simp only [Head.beginRestore, Nat.not_lt.mpr hp, ha, hy, hsrc, h0, hsig, h1, hlong, h3, hz, hr, htakes, ne_eq, not_true_eq_false,
      decide_false, Bool.not_true, Bool.or_self, Bool.false_eq_true, if_false]
    rfl⟩⟩
  · simp only [Head.beginRestore, Nat.not_lt.mpr hp, ha, hy, hsrc, h0, hsig, h1, hlong, h3, hz, hr, ne_eq, not_true_eq_false,
      decide_false, Bool.not_true, Bool.or_self, Bool.false_eq_true, if_false, if_true]
  all_goals rfl

/-- Settles O24, verb by verb. -/
theorem jobVerbs : Obligations.JobVerbs := by
  refine ⟨fun s t w => ⟨fun hs hq ho => exec_hostVerb _ hs rfl (beginQreset_other hq ho), fun hs =>
    ⟨fun k ha hc hh => exec_hostVerb _ hs rfl (beginReset_head ha hc hh), fun k ha hc hi => exec_hostVerb _ hs rfl (beginReset_island ha hc hi),
      fun ha hq ho => exec_hostVerb _ hs rfl ((beginReset_queue ha).trans (beginQreset_other hq ho))⟩⟩,
    fun s t w => ⟨fun hs howned hown => ⟨fun hn => exec_hostVerb _ hs rfl (doDigest_empty howned hown hn), fun l k hn hl hk =>
      exec_hostVerb _ hs rfl (doDigest_takes howned hown hn hl hk)⟩, fun nonce k c ps hs hsrc hdel => ?_,
      fun hs hre hwhole hst hconf hpeer hside => ?_⟩, fun s t w b => ⟨?_, ?_⟩⟩
  · refine exec_hostVerb _ hs rfl ?_
    simp only [Head.doAttest, hsrc, hdel, Bool.false_eq_true, if_false]
    rfl
  · refine exec_hostVerb _ hs rfl ?_
    simp only [Head.doActivate, hre, hwhole, hst, hconf, hpeer, Bool.false_and, Bool.not_true, Bool.or_self, Bool.false_eq_true, if_false]
    exact if_pos hside
  · intro _ _ _ hs hp hatt hsrc hsnap h0 h1 hz hweak htakes
    obtain ⟨j, hvid, hj, htodo, hrun⟩ := beginArchive_runs hp hatt hsrc hsnap h0 h1 hz hweak htakes
    exact ⟨j, hvid, hj, htodo, exec_hostVerb _ hs rfl hrun⟩
  · intro _ _ _ hs hp hatt hvol hsrc h0 hsig h1 hcount h3 hz
    obtain ⟨hfull, htake⟩ := beginRestore_runs hp hatt hvol hsrc h0 hsig h1 hcount h3 hz
    refine ⟨fun hr => exec_hostVerb _ hs rfl (hfull hr), fun hr htakes => ?_⟩
    obtain ⟨j, hvid, hv, hdir, hfirst, hcnt, hrun⟩ := htake hr htakes
    exact ⟨j, hvid, hv, hdir, hfirst, hcnt, exec_hostVerb _ hs rfl hrun⟩

/-! ## Unit verbs -/

theorem doChunk_all {h : Head} {v : HVerb} (hn : 1 ≤ v.arg 1) (hmax : v.arg 1 ≤ 4194304) (hk : 1 ≤ v.arg 3)
    (hsrc : hbmOk (v.arg 0) (v.arg 1) = true) (hdst : hbmOk (v.arg 2) (4 * v.arg 3) = true)
    (hroom : (h.red.gear.cut (h.unitRead false (v.arg 0) (v.arg 1)).1).length ≤ v.arg 3) :
    h.doChunk v = (h.unitWrite false (v.arg 2)
        (((h.red.gear.cut (h.unitRead false (v.arg 0) (v.arg 1)).1).map (leBytes 4)).flatten) (fun _ => false)).answerVerb v
      ⟨.ok, pack [(32, sum (h.red.gear.cut (h.unitRead false (v.arg 0) (v.arg 1)).1)),
        (0, (h.red.gear.cut (h.unitRead false (v.arg 0) (v.arg 1)).1).length)], 0, false⟩ := by
  have h1 : ¬ v.arg 1 = 0 := by omega
  have h2 : ¬ 4194304 < v.arg 1 := by omega
  have h3 : ¬ v.arg 3 = 0 := by omega
  simp only [Head.doChunk, h1, h2, h3, hsrc, hdst, List.take_of_length_le hroom, Nat.not_lt.mpr hroom, decide_false, Bool.not_true, Bool.or_self,
    Bool.false_eq_true, if_false]

theorem doFprint_clean {h : Head} {v : HVerb} (hn : 1 ≤ v.arg 1) (hmax : v.arg 1 ≤ 262144) (hsrc : hbmOk (v.arg 0) (v.arg 1) = true)
    (hdst : hbmOk (v.arg 2) 32 = true) (hp : (h.unitRead false (v.arg 0) (v.arg 1)).2 = false) :
    h.doFprint v = (h.unitWrite false (v.arg 2) (Sha.sha256 (h.unitRead false (v.arg 0) (v.arg 1)).1) (fun _ => false)).answerVerb v
      (.ok 0) := by
  have h1 : ¬ v.arg 1 = 0 := by omega
  have h2 : ¬ 262144 < v.arg 1 := by omega
  simp only [Head.doFprint, h1, h2, hsrc, hdst, hp, decide_false, Bool.not_true, Bool.or_self, Bool.false_eq_true, if_false]

theorem doDgst_takes {h k : Head} {v : HVerb} (hn : v.arg 1 ≠ 0) (hl : hbmOk (v.arg 0) (16 * v.arg 1) = true)
    (hp : (h.unitRead false (v.arg 0) (16 * v.arg 1)).2 = false)
    (hk : h.digestInto (v.imm % 16) (gather h.dgstFrag (h.unitRead false (v.arg 0) (16 * v.arg 1)).1 (v.arg 1)) = .ok k) :
    h.doDgst v = k.answerVerb v (.ok (BitVec.ofNat 64 (v.imm % 16))) := by
  simp only [Head.doDgst, hn, hl, hp, hk, Bool.not_true, Bool.false_eq_true, if_false]

theorem doSign_clean {h : Head} {v : HVerb} (hm : hbmOk (v.arg 0) (v.arg 1) = true) (hd : hbmOk (v.arg 2) 64 = true)
    (hp : (h.unitRead false (v.arg 0) (v.arg 1)).2 = false) :
    h.doSign v = (h.unitWrite false (v.arg 2)
      (fit 0 64 (Config.edSign Config.idPrivate (h.unitRead false (v.arg 0) (v.arg 1)).1)) (fun _ => false)).answerVerb v (.ok 0) := by
  simp only [Head.doSign, hm, hd, hp, Bool.not_true, Bool.or_self, Bool.false_eq_true, if_false]

theorem doVerify_clean {h : Head} {v : HVerb} (hm : hbmOk (v.arg 0) (v.arg 1) = true) (hk : hbmOk (v.arg 2) 32 = true)
    (hg : hbmOk (v.arg 3) 64 = true) (hmp : (h.unitRead false (v.arg 0) (v.arg 1)).2 = false)
    (hkp : (h.unitRead false (v.arg 2) 32).2 = false) (hgp : (h.unitRead false (v.arg 3) 64).2 = false) :
    h.doVerify v = h.answerVerb v (if Config.edVerify (h.unitRead false (v.arg 2) 32).1 (h.unitRead false (v.arg 0) (v.arg 1)).1
      (h.unitRead false (v.arg 3) 64).1 then .ok 0 else .fail .checkFail) := by
  simp only [Head.doVerify, hm, hk, hg, hmp, hkp, hgp, Bool.not_true, Bool.or_self, Bool.false_eq_true, if_false]

/-- The fields of a buffer's name that is an HBM address. -/
theorem bufferName_of_lt {x : Nat} (hx : x < 2 ^ 37) : bit x 59 = false ∧ bits x 63 60 = 0 ∧ bits x 58 37 = 0 ∧ bits x 36 0 = x := by
  have hhigh : ∀ lo, 37 ≤ lo → x >>> lo = 0 := fun lo hlo => by
    rw [Nat.shiftRight_eq_div_pow]
    exact Nat.div_eq_of_lt (hx.trans_le (Nat.pow_le_pow_right (by decide) hlo))
  refine ⟨Nat.testBit_lt_two_pow (hx.trans_le (Nat.pow_le_pow_right (by decide) (by decide))), ?_, ?_, ?_⟩
  · rw [bits, hhigh 60 (by decide), Nat.zero_mod]
  · rw [bits, hhigh 37 (by decide), Nat.zero_mod]
  · exact Nat.mod_eq_of_lt hx

theorem doXfer_hbm {h : Head} {v : HVerb} (ha : v.arg 0 < 2 ^ 37) (hb : v.arg 1 < 2 ^ 37) (hs : hbmOk (v.arg 0) (v.arg 2) = true)
    (hd : hbmOk (v.arg 1) (v.arg 2) = true) :
    h.doXfer v = (h.unitStore false (v.arg 1) (h.unitSee false (v.arg 0) (v.arg 2))).answerVerb v (.ok 0) := by
  obtain ⟨a1, a2, a3, a4⟩ := bufferName_of_lt ha
  obtain ⟨b1, b2, b3, b4⟩ := bufferName_of_lt hb
  simp only [Head.doXfer, a1, a2, a3, a4, b1, b2, b3, b4, hs, hd, decide_true, Bool.and_self, Bool.not_true, Bool.or_self, Bool.false_eq_true,
    if_false]

theorem doEcenc_sums {h : Head} {v : HVerb} (hp : bits v.imm 6 5 ≠ 0) (hi : bit v.imm 7 = false) (hn : ecLen (v.arg 2) = true)
    (hsl : hbmOk (v.arg 0) (16 * (v.imm % 32 + 1)) = true) (hdl : hbmOk (v.arg 1) (8 * bits v.imm 6 5) = true)
    (hsrc : ∀ e, e ∈ h.ecList (v.arg 0) (2 * (v.imm % 32 + 1)) → e.1 = 0 ∨ hbmOk e.1 (v.arg 2) = true)
    (hdst : ∀ e, e ∈ h.ecList (v.arg 1) (bits v.imm 6 5) → hbmOk e.1 (v.arg 2) = true) :
    h.doEcenc v =
      ((upto (bits v.imm 6 5)).foldl (fun k j =>
        k.unitStore false (nth (0, false) (h.ecList (v.arg 1) (bits v.imm 6 5)) j).1
          (nth [] ((upto (bits v.imm 6 5)).map (fun j => ecParity j (v.arg 2) ((upto (v.imm % 32 + 1)).map (fun i =>
            ecXor (h.ecUnit (nth (0, false) (h.ecList (v.arg 0) (2 * (v.imm % 32 + 1))) (2 * i)) (v.arg 2))
              (h.ecUnit (nth (0, false) (h.ecList (v.arg 0) (2 * (v.imm % 32 + 1))) (2 * i + 1)) (v.arg 2)))))) j)) h).answerVerb v
        (.ok 0) := by
  have hs : (h.ecList (v.arg 0) (2 * (v.imm % 32 + 1))).any (fun e => e.1 ≠ 0 && !(hbmOk e.1 (v.arg 2))) = false := by
    refine List.any_eq_false.mpr fun e he => ?_
    obtain h0 | h1 := hsrc e he
    · simp only [h0, ne_eq, not_true_eq_false, decide_false, Bool.false_and, Bool.false_eq_true, not_false_eq_true]
    · simp only [h1, Bool.not_true, Bool.and_false, Bool.false_eq_true, not_false_eq_true]
  have hd : (h.ecList (v.arg 1) (bits v.imm 6 5)).any (fun e => !(hbmOk e.1 (v.arg 2))) = false := by
    refine List.any_eq_false.mpr fun e he => ?_
    simp only [hdst e he, Bool.not_true, Bool.false_eq_true, not_false_eq_true]
  simp only [Head.doEcenc, hp, hi, hn, hsl, hdl, hs, hd, decide_false, Bool.not_true, Bool.or_self, Bool.false_eq_true, if_false]

/-- ECDEC in range. -/
theorem doEcdec_solves {h : Head} {v : HVerb} {gone : List Nat} (hgone : (upto 64).filter (fun i => bit (v.arg 1) i) = gone)
    (hp : bits v.imm 6 5 ≠ 0) (hi : bit v.imm 7 = false) (hn : ecLen (v.arg 2) = true) (hfew : gone.length ≤ bits v.imm 6 5)
    (hin : ∀ i, i ∈ gone → i < v.imm % 32 + 1 + bits v.imm 6 5)
    (hsl : hbmOk (v.arg 0) (8 * (v.imm % 32 + 1 + bits v.imm 6 5)) = true) (hdl : hbmOk (v.arg 3) (8 * gone.length) = true)
    (hsrc : ∀ i, i < v.imm % 32 + 1 + bits v.imm 6 5 → i ∉ gone →
      (nth (0, false) (h.ecList (v.arg 0) (v.imm % 32 + 1 + bits v.imm 6 5)) i).1 ≠ 0 ∧
        hbmOk (nth (0, false) (h.ecList (v.arg 0) (v.imm % 32 + 1 + bits v.imm 6 5)) i).1 (v.arg 2) = true)
    (hdst : ∀ e, e ∈ h.ecList (v.arg 3) gone.length → hbmOk e.1 (v.arg 2) = true) {ds : List (List (Byte × Bool))}
    (hds : ecData (v.imm % 32 + 1) (bits v.imm 6 5) (v.arg 2) gone
      ((upto (v.imm % 32 + 1 + bits v.imm 6 5)).map (fun i => if gone.contains i then ecZero (v.arg 2) else
        h.ecUnit (nth (0, false) (h.ecList (v.arg 0) (v.imm % 32 + 1 + bits v.imm 6 5)) i) (v.arg 2))) = some ds) :
    h.doEcdec v = ((upto gone.length).foldl (fun k i =>
      k.unitStore false (nth (0, false) (h.ecList (v.arg 3) gone.length) i).1
        (if nth 0 gone i < v.imm % 32 + 1 then nth [] ds (nth 0 gone i)
          else ecParity (nth 0 gone i - (v.imm % 32 + 1)) (v.arg 2) ds)) h).answerVerb v (.ok (BitVec.ofNat 64 gone.length)) := by
  have hinside : gone.any (fun m => decide (v.imm % 32 + 1 + bits v.imm 6 5 ≤ m)) = false := by
    refine List.any_eq_false.mpr fun m hm => ?_
    simp only [Nat.not_le.mpr (hin m hm), decide_false, Bool.false_eq_true, not_false_eq_true]
  have hs : ((upto (v.imm % 32 + 1 + bits v.imm 6 5)).filter (fun m => !(gone.contains m))).any (fun m =>
      (nth (0, false) (h.ecList (v.arg 0) (v.imm % 32 + 1 + bits v.imm 6 5)) m).1 = 0 ||
        !(hbmOk (nth (0, false) (h.ecList (v.arg 0) (v.imm % 32 + 1 + bits v.imm 6 5)) m).1 (v.arg 2))) = false := by
    refine List.any_eq_false.mpr fun m hm => ?_
    simp only [upto, List.mem_filter, List.mem_range, Bool.not_eq_true', List.contains_eq_mem, decide_eq_false_iff_not] at hm
    obtain ⟨h0, h1⟩ := hsrc m hm.1 hm.2
    simp only [h0, h1, decide_false, Bool.not_true, Bool.or_self, Bool.false_eq_true, not_false_eq_true]
  have hd : (h.ecList (v.arg 3) gone.length).any (fun e => !(hbmOk e.1 (v.arg 2))) = false := by
    refine List.any_eq_false.mpr fun e he => ?_
    simp only [hdst e he, Bool.not_true, Bool.false_eq_true, not_false_eq_true]
  simp only [Head.doEcdec, hgone, hp, hi, hn, Nat.not_lt.mpr hfew, hinside, hsl, hdl, hs, hd, hds, decide_false, Bool.not_true, Bool.or_self,
    Bool.false_and, Bool.false_eq_true, if_false]

/-- Settles O25, unit by unit. -/
theorem unitVerbs : Obligations.UnitVerbs := by
  refine ⟨fun s t w => ⟨fun hs hn hmax hk hsrc hdst hroom => exec_unitVerb _ hs rfl (doChunk_all hn hmax hk hsrc hdst hroom),
    fun hs hn hmax hsrc hdst hp => exec_unitVerb _ hs rfl (doFprint_clean hn hmax hsrc hdst hp),
    fun hs hok => exec_unitVerb _ hs rfl (if_pos hok), fun hs hok => exec_unitVerb _ hs rfl (if_pos hok),
    fun hs => exec_unitVerb _ hs rfl rfl, fun hs => exec_unitVerb _ hs rfl rfl, fun hs => exec_unitVerb _ hs rfl rfl,
    fun hs => ⟨fun hn => exec_unitVerb _ hs rfl (if_pos hn),
      fun k hn hl hp hk => exec_unitVerb _ hs rfl (doDgst_takes hn hl hp hk)⟩,
    fun hs hm hd hp => exec_unitVerb _ hs rfl (doSign_clean hm hd hp),
    fun hs hm hk hg hmp hkp hgp => exec_unitVerb _ hs rfl (doVerify_clean hm hk hg hmp hkp hgp),
    fun hs ha hb hsrc hdst => exec_unitVerb _ hs rfl (doXfer_hbm ha hb hsrc hdst)⟩, fun s t w => ⟨?_, ?_⟩⟩
  · intro _ _ _ _ _ _ _ _ hs hp hi hn hsl hdl hsrc hdst
    exact exec_unitVerb _ hs rfl (doEcenc_sums hp hi hn hsl hdl hsrc hdst)
  · intro _ _ _ _ _ _ _ _ _ ds hs hp hi hn hfew hin hsl hdl hsrc hdst hds
    exact exec_unitVerb _ hs rfl (doEcdec_solves rfl hp hi hn hfew hin hsl hdl hsrc hdst hds)

end Sys2Proof.Machine
end

section
/-! PROOFS. An epoch in which an operation that waited starts: the tokens of the contracts that hold work are drawn on at once. -/

namespace Sys2Proof.Machine

/-! ## A contract whose tokens are drawn on as its epoch begins -/

/-- A contract of 5 NAND tokens an epoch. -/
def drawnContract : Contract :=
  { resv := 0, rate := 0, frame := 0, bound := 0, burst := 0, volume := 0, tclass := 0, side := 0, queue := 0, state := .opened
    loads := [0, 0, 5], space := 0, lehr := 0, slots := 0, rem := 0, level := 0, tokens := [], overs := 0, allow := 0, miss := 0
    overRun := false, met := [], back := [], used := 0 }

/-- A command under that contract. -/
def drawnCmd : Cmd :=
  { side := 0, seq := 1, origin := 0, queue := 0, tag := 0, stream := 0, ord := false, con := true, quiet := false, contract := 1, cred := 3
    conn := 1, cls := 0, prog := [], inl := [], regs := [], pages := [], thread := none, ended := false, phase := .accepted
    passed := false, log := [], replay := [], vs := 0, result := 0, aux := 0, pmap := false, tko := false, accAt := 0, bound := none
    conform := true, allow := none, mute := false, cover := [], markQ := 0, markS := 0, marksQ := 0, marksS := 0, wrote := false
    again := false, await := false, srcs := [], returned := false, issued := 0, cp := false }

/-- A head that serves side 0, with that contract and command, and a page read of contracted work that waits for die 4. -/
def drawnHead : Head :=
  { Head.blank with
    sys := { Sys.blank with islands := List.replicate 22 { Island.blank with st := .running } }
    pair := { Head.blank.pair with serve := (Two.both false).put 0 true }
    work := { Head.blank.work with contracts := [(1, some drawnContract)], cmds := [drawnCmd] }
    fl := { Head.blank.fl with
      dies := [(4, some
        { num := 4, id := 0, fam := 0, planes := 1, blocks := 100, rows := 64, spare := 0, state := .inService, ec := [], free := [], bad := []
          touts := 0, susp := false })]
      groups := [(0, { own := true, wp := true, idle := false, resync := [], queue := [], bursts := [], pauses := [], lastOp := 0 })]
      waits := [(.read 4 7 0 6 0 0, true)] } }

/-- What the epoch leaves of it: the read has started and has drawn its tokens. -/
theorem drawnHead_epoch (u : State) (hu : exec .cadenceEpoch ⟨[], drawnHead⟩ = .next u) :
    u.head.work.contracts = [(1, some { drawnContract with tokens := [0, 0, 0] })] := by
  have he : exec .cadenceEpoch ⟨[], drawnHead⟩ = execCadenceEpoch ⟨[], drawnHead⟩ := rfl
  rw [he, execCadenceEpoch, run_eq] at hu
  rw [← Host.Outcome.next.inj hu]
  decide +kernel

/-- Refutes O26: the clause about CADENCE_EPOCH gives every contract its loads as tokens at the end of the step, but a NAND operation of
contracted work that waited starts in the same step and draws on them. -/
theorem not_queueEvents : ¬ Obligations.QueueEvents := by
  intro hall
  obtain ⟨u, hu, -, -, -, -, -, -, -, -, -, -, hcon⟩ := hall.2.2 ⟨[], drawnHead⟩
  have hmem := hcon 1 drawnContract (List.mem_singleton.mpr rfl)
  rw [drawnHead_epoch u hu] at hmem
  exact absurd hmem (by decide +kernel)

end Sys2Proof.Machine
end

section
/-! PROOFS. The fabric: the receive checks, writes placed and kept, the other packets of an open connection, connections and sessions, timers,
links and windows. -/

namespace Sys2Proof.Machine

/-! ## Packets as commands -/

/-- A row of received packets, of a packet that passes every check. -/
theorem run_rx_hears {s : State} {k : Pkt} {c : Conn} {is : Bool} {takes fits : Conn → Bool} {body : Head → Conn → Head}
    (hk : s.head.hears k c) (hi : is = true) (ht : takes c = true) (hf : fits c = true) :
    s.run (fun h => h.rx k is takes fits body) = .next (s.become (body (s.head.heard k c) c)) := by
  rw [run_eq, rx_hears s.head k c is takes fits body hk hi ht hf]

/-- A row of received frames, of one that passes the first four checks. -/
theorem rxFrame_passes {h : Head} {k : Pkt} {is : Bool} {body : Head → Head} (hl : h.listens = true)
    (hf : (h.seen k.arr).frameFails k.frame = none) (hi : is = true) : h.rxFrame k is body = body (h.seen k.arr) := by
  simp only [Head.rxFrame, hl, hf, hi, Bool.not_true, Bool.false_eq_true, if_false, if_true]

/-- A packet of a bound connection needs no event. -/
theorem withSession_bound {h : Head} {c : Conn} (hc : c.slot.isSome = true) (typ key : Nat) (process : Head → Head) :
    h.withSession c typ key process = process h := if_pos hc

/-! ## Receive checks -/

theorem rx_frameFails {h : Head} {k : Pkt} {n : Nat} (is : Bool) (takes fits : Conn → Bool) (body : Head → Conn → Head)
    (hl : h.listens = true) (hf : (h.seen k.arr).frameFails k.frame = some n) : h.rx k is takes fits body = (h.seen k.arr).rxCount n := by
  simp only [Head.rx, Head.rxFrame, hl, hf, Bool.not_true, Bool.false_eq_true, if_false]

/-- Settles O27: the first check that fails is the one that counts. -/
theorem receiveChecks : Obligations.ReceiveChecks := by
  intro h k is takes fits body hl
  refine ⟨fun h0 => ?_, fun h0 h1 => ?_, fun h0 h1 h2 => ?_, fun h0 h1 h2 h3 => ?_, fun h0 h1 h2 h3 hi hn => ?_⟩
  · exact rx_frameFails _ _ _ _ hl (if_pos h0)
  · refine rx_frameFails _ _ _ _ hl ?_
    rw [Head.frameFails, if_neg (by rw [h0]; exact Bool.false_ne_true), if_pos h1]
  · refine rx_frameFails _ _ _ _ hl ?_
    rw [Head.frameFails, if_neg (by rw [h0]; exact Bool.false_ne_true), if_neg (by rw [h1]; exact Bool.false_ne_true),
      if_pos (by rw [Head.udpPort]; exact h2)]
  · cases hc : (decide (k.frame.ver ≠ 1) || !k.frame.lenOk || !k.frame.chkOk || !k.frame.resOk) with
    | true =>
      refine rx_frameFails _ _ _ _ hl ?_
      rw [Head.frameFails, if_neg (by rw [h0]; exact Bool.false_ne_true), if_neg (by rw [h1]; exact Bool.false_ne_true),
        if_neg (by rw [Head.udpPort, h2]; exact Bool.false_ne_true), if_pos hc]
    | false =>
      have hi : is = false := h3.resolve_left (by rw [hc]; exact Bool.false_ne_true)
      have hnone : (h.seen k.arr).frameFails k.frame = none := by
        rw [Head.frameFails, if_neg (by rw [h0]; exact Bool.false_ne_true), if_neg (by rw [h1]; exact Bool.false_ne_true),
          if_neg (by rw [Head.udpPort, h2]; exact Bool.false_ne_true), if_neg (by rw [hc]; exact Bool.false_ne_true)]
      simp only [Head.rx, Head.rxFrame, hl, hnone, hi, Bool.not_true, Bool.false_eq_true, if_false]
  · have hnone : (h.seen k.arr).frameFails k.frame = none := by
      rw [Head.frameFails, if_neg (by rw [h0]; exact Bool.false_ne_true), if_neg (by rw [h1]; exact Bool.false_ne_true),
        if_neg (by rw [Head.udpPort, h2]; exact Bool.false_ne_true), if_neg (by rw [h3]; exact Bool.false_ne_true)]
    have hno : (h.seen k.arr).connOf k = none := by
      rw [Head.connOf, List.find?_eq_none]
      intro c hc
      have := List.all_eq_true.mp hn c hc
      simp only [ne_eq, decide_eq_true_eq] at this
      simp only [this, decide_false, Bool.false_and, Bool.false_eq_true, not_false_eq_true]
    rw [Head.rx, rxFrame_passes hl hnone hi, hno]

/-! ## WRITE -/

/-- What a WRITE that finds its window does: it is placed, or kept in the window's order or for its last flag. -/
theorem exec_cptWriteRx {s : State} {r : Rx} {key gen off pay : List Byte} {k : Pkt} {c : Conn} {w : Window}
    (hj : (r.join [key, gen, off, pay]).pkt = k) (hk : s.head.hears k c) (ht : k.typ = 1) (ho : c.state = .opened)
    (hl : k.pay.length ≤ c.maxpay) (hslot : c.slot.isSome = true) (hn : c.isNew k = true)
    (hfull : (s.head.heard k c).strictFull c k k.heldWrite.key = false) (hspill : ((s.head.heard k c).marked k c).spilling = false)
    (hw : ((s.head.heard k c).marked k c).placeCheck c k.heldWrite = .ok w) :
    exec (.cptWriteRx r key gen off pay) s = .next (s.become
      ((if w.strict && (!c.ready k.psn || c.behind k.psn || (k.last && ((s.head.heard k c).marked k c).placeHeld c.side)) then
          ((s.head.heard k c).marked k c).updConn c.num (fun c => { c with strict := c.strict ++ [k.heldWrite] })
        else if k.last && (!c.ready k.psn || c.behind k.psn || (k.last && ((s.head.heard k c).marked k c).placeHeld c.side)) then
          ((s.head.heard k c).marked k c).updConn c.num (fun c => { c with held := c.held ++ [k.heldWrite] })
        else ((s.head.heard k c).marked k c).placed c.num w k.heldWrite).acksAfter k c.num false)) := by
  have he : exec (.cptWriteRx r key gen off pay) s = execCptWriteRx r key gen off pay s := rfl
  rw [he, execCptWriteRx]
  dsimp only
  rw [hj, run_rx_hears hk (decide_eq_true ht) (decide_eq_true ho) (decide_eq_true hl)]
  have hstore : (c.slot.isSome && (s.head.heard k c).strictFull c k k.heldWrite.key && !c.recv.contains k.psn &&
      decide (c.ahead k.psn < 65536)) = false := by
    rw [hfull, Bool.and_false, Bool.false_and, Bool.false_and]
  rw [if_neg (by rw [hstore]; exact Bool.false_ne_true), rxReliable_new _ _ _ _ _ hn, withSession_bound hslot]
  simp only [hspill, hw, Bool.false_eq_true, if_false]

/-- A packet whose turn has come is placed late. -/
theorem waitEnds_ready {h : Head} {c : Conn} {p : HeldWrite} {list : Conn → List HeldWrite} (drop : Conn → Conn)
    (hc : h.conn c.num = some c) (hp : (list c).find? (fun q => q.psn = p.psn) = some p) (hr : c.ready p.psn = true)
    (hb : c.behind p.psn = false) (hh : h.placeHeld c.side = false) :
    h.waitEnds c.num p.psn list drop = (h.updConn c.num drop).placeLate c p := by
  simp only [Head.waitEnds, hc, hp, hr, hb, hh, Bool.not_true, Bool.or_self, Bool.false_eq_true, if_false]

/-- Settles O28: a new WRITE by `exec_cptWriteRx`, one that waited by `waitEnds_ready` and the checks made again. -/
theorem writesArePlaced : Obligations.WritesArePlaced := by
  refine ⟨?_, fun s c p hc hr hb hh => ⟨fun hp => ?_, fun hp => ?_⟩, fun h c p w hw =>
    ⟨fun ht hret => ?_, fun ht hret => ?_, fun ht hs => ?_, fun ht hs hstrict ho => ?_, fun ht hs ho => ?_⟩⟩
  · intro s r key gen off pay c w
    dsimp only
    generalize hj : (r.join [key, gen, off, pay]).pkt = k
    intro hk ht ho hl hslot hn hfull hspill hw
    rw [exec_cptWriteRx hj hk ht ho hl hslot hn hfull hspill hw]
    refine ⟨fun hs he => ?_, fun hs hlast he => ?_, fun he hheld => ?_⟩
    · rw [if_pos (by rw [hs, he]; rfl)]
    · have hwaits : (!c.ready k.psn || c.behind k.psn || (k.last && ((s.head.heard k c).marked k c).placeHeld c.side)) = true := by
        obtain he | he := he
        · rw [he, Bool.true_or]
        · rw [hlast, he, Bool.and_self, Bool.or_true]
      rw [if_neg (by rw [hs]; exact Bool.false_ne_true), if_pos (by rw [hlast, ← hlast, hwaits, hlast]; rfl)]
    · have hheld' : (k.last && ((s.head.heard k c).marked k c).placeHeld c.side) = false := by
        obtain h | h := hheld
        · rw [h, Bool.false_and]
        · rw [h, Bool.and_false]
      rw [hheld', Bool.or_false]
      obtain he | ⟨hs, hlast⟩ := he
      · rw [he, Bool.and_false, Bool.and_false]
        rfl
      · rw [hs, hlast, Bool.false_and]
        rfl
  · have he : exec (.lastFlagPlace c.num p.psn) s = execLastFlagPlace c.num p.psn s := rfl
    rw [he, execLastFlagPlace, run_eq, waitEnds_ready (list := fun c => c.held) _ hc hp hr hb hh]
  · have he : exec (.strictPlace c.num p.psn) s = execStrictPlace c.num p.psn s := rfl
    rw [he, execStrictPlace, run_eq, waitEnds_ready (list := fun c => c.strict) _ hc hp hr hb hh]
  · simp only [Head.placeLate, hw, ht, hret, Bool.not_false, if_true, if_false]
  · simp only [Head.placeLate, hw, ht, hret, Bool.not_false, if_true]
  · simp only [Head.placeLate, hw, ht, hs, Bool.not_true, Bool.false_eq_true, if_true, if_false]
  · simp only [Head.placeLate, hw, ht, hs, hstrict, ho, Bool.not_true, Bool.not_false, Bool.and_self, Bool.false_eq_true, if_true, if_false]
  · have hno : (!w.strict && (h.otherEnd c.side p).isSome) = false := by
      obtain hstrict | hnone := ho
      · rw [hstrict, Bool.not_true, Bool.false_and]
      · rw [hnone, Option.isSome_none, Bool.and_false]
    simp only [Head.placeLate, hw, ht, hs, hno, Bool.not_true, Bool.false_eq_true, if_false]

/-! ## The other packets of an open connection -/

/-- A packet heard on a bound connection that is new takes effect and may be acknowledged. -/
theorem rxReliable_bound {h : Head} {k : Pkt} {c : Conn} (hn : c.isNew k = true) (hslot : c.slot.isSome = true) (now_ : Bool) (typ key : Nat)
    (process : Head → Head) :
    h.rxReliable k c now_ (fun h => h.withSession c typ key process) = (process (h.marked k c)).acksAfter k c.num now_ := by
  rw [rxReliable_new _ _ _ _ _ hn, withSession_bound hslot]

/-- What a SUBMIT does on a bound connection. -/
theorem exec_cptSubmitRx {s : State} {r : Rx} {queue slot entries : List Byte} {k : Pkt} {c : Conn} {n : Nat}
    (hj : (r.join [queue, slot, entries]).pkt = k) (hk : s.head.hears k c) (ht : k.typ = 2) (ho : c.state = .opened)
    (hslot : c.slot = some n) (hn : c.isNew k = true) :
    exec (.cptSubmitRx r queue slot entries) s = .next (s.become
      ((if k.th 2 1 = 0 then
          if ((s.head.heard k c).marked k c).mayUse c.side (k.th 0 2) n then
            (((s.head.heard k c).marked k c).attach c.side (k.th 0 2) c).sendComplete c.num c.side (k.th 0 2) []
          else ((s.head.heard k c).marked k c).connEventOnce c.num 0x0004 121 2 0
        else
          ((upto (k.th 2 1)).zip ((partsOf 128 (k.th 2 1) k.pay).map entryOf)).foldl
            (fun h e => h.fillSlot c (k.th 0 2) ((k.th 4 4 + e.1) % 4294967296) e.2)
            (if ((s.head.heard k c).marked k c).mayUse c.side (k.th 0 2) n then
              ((s.head.heard k c).marked k c).attach c.side (k.th 0 2) c
            else (s.head.heard k c).marked k c)).acksAfter k c.num false)) := by
  have he : exec (.cptSubmitRx r queue slot entries) s = execCptSubmitRx r queue slot entries s := rfl
  rw [he, execCptSubmitRx]
  dsimp only
  rw [hj, run_rx_hears hk (decide_eq_true ht) (decide_eq_true ho) rfl, rxReliable_bound hn (by rw [hslot]; rfl)]
  simp only [hslot]
  by_cases hm : ((s.head.heard k c).marked k c).mayUse c.side (k.th 0 2) n = true <;> simp only [hm, if_true, Bool.false_eq_true, if_false]

/-- What a COMPLETE does for the replication slot whose target queue it names. -/
theorem exec_cptCompleteRx {s : State} {r : Rx} {queue qnext recs : List Byte} {k : Pkt} {c : Conn} {i : Nat} {x : Rep}
    (hj : (r.join [queue, qnext, recs]).pkt = k) (hk : s.head.hears k c) (ht : k.typ = 3) (ho : c.state = .opened)
    (hslot : c.slot.isSome = true) (hn : c.isNew k = true) (hrep : ((s.head.heard k c).marked k c).repOn c.num = some (i, x))
    (hinit : c.init = true) (hq : k.th 0 2 = Config.targetQueue i % 65536) :
    exec (.cptCompleteRx r queue qnext recs) s = .next (s.become
      ((((s.head.heard k c).marked k c).repComplete c.num (k.th 4 4) ((partsOf 32 (k.th 2 1) k.pay).map crecOf)).acksAfter
        k c.num false).settle) := by
  have he : exec (.cptCompleteRx r queue qnext recs) s = execCptCompleteRx r queue qnext recs s := rfl
  rw [he, execCptCompleteRx]
  dsimp only
  rw [hj, run_rx_hears hk (decide_eq_true ht) (decide_eq_true ho) rfl, rxReliable_bound hn hslot]
  simp only [hrep, hinit, hq, decide_true, Bool.and_self, if_true]

/-- Settles O29, row by row. -/
theorem packetsHeard : Obligations.PacketsHeard := by
  intro s r a b d e c
  have hcut3 : r.join [a, b, d ++ e] = r.join [a, b, d, e] := by
    simp only [Rx.join, List.flatten_cons, List.flatten_nil, List.append_nil]
  have hcut1 : r.join [a ++ b ++ d ++ e] = r.join [a, b, d, e] := by
    simp only [Rx.join, List.flatten_cons, List.flatten_nil, List.append_nil, List.append_assoc]
  dsimp only
  generalize hj : (r.join [a, b, d, e]).pkt = k
  intro hk ho
  have hall : takesAll c = true := decide_eq_true ho
  have hend : takesEnd c = true := by rw [takesEnd, decide_eq_true ho, Bool.true_or]
  refine ⟨fun ht => ?_, fun ht => ?_, fun hn => ⟨fun ht hreason => ?_, fun n hslot => ?_⟩⟩
  · have he : exec (.cptAckRx r a b d e) s = execCptAckRx r a b d e s := rfl
    rw [he, execCptAckRx]
    dsimp only
    rw [hj, run_rx_hears hk (decide_eq_true ht) hend rfl]
  · have he : exec (.cptKeepaliveRx (r.join [a, b, d, e])) s = execCptKeepaliveRx (r.join [a, b, d, e]) s := rfl
    rw [he, execCptKeepaliveRx]
    dsimp only
    rw [hj, run_rx_hears hk (decide_eq_true ht) hend rfl]
  · have he : exec (.cptCloseRx r (a ++ b ++ d ++ e)) s = execCptCloseRx r (a ++ b ++ d ++ e) s := rfl
    rw [he, execCptCloseRx]
    dsimp only
    rw [hcut1, hj, run_rx_hears hk (by rw [decide_eq_true ht, decide_eq_true hreason]; rfl) hend rfl, rxReliable_new _ _ _ _ _ hn]
  · have hbound : c.slot.isSome = true := by rw [hslot]; rfl
    refine ⟨fun ht => ?_, fun ht => ⟨fun hm hz => ?_, fun hm hz => ?_, fun hm hz => ?_, fun hm hz => ?_⟩, fun i x ht hrep hinit hq => ?_⟩
    · have he : exec (.cptEventRx r a b (d ++ e)) s = execCptEventRx r a b (d ++ e) s := rfl
      rw [he, execCptEventRx]
      dsimp only
      rw [hcut3, hj, run_rx_hears hk (decide_eq_true ht) hall rfl, rxReliable_bound hn hbound]
    · rw [exec_cptSubmitRx (by rw [hcut3, hj]) hk ht ho hslot hn, if_neg hz, if_pos hm]
    · rw [exec_cptSubmitRx (by rw [hcut3, hj]) hk ht ho hslot hn, if_pos hz, if_pos hm]
    · rw [exec_cptSubmitRx (by rw [hcut3, hj]) hk ht ho hslot hn, if_neg hz, if_neg (by rw [hm]; exact Bool.false_ne_true)]
    · rw [exec_cptSubmitRx (by rw [hcut3, hj]) hk ht ho hslot hn, if_pos hz, if_neg (by rw [hm]; exact Bool.false_ne_true)]
    · exact exec_cptCompleteRx (by rw [hcut3, hj]) hk ht ho hbound hn hrep hinit hq

end Sys2Proof.Machine
end

section
/-! PROOFS. Connections, sessions, timers, links and windows. -/

namespace Sys2Proof.Machine

/-! ## Connections and sessions -/

/-- A row of received frames, of one that passes the first four checks. -/
theorem run_rxFrame_passes {s : State} {k : Pkt} {is : Bool} {body : Head → Head} (hl : s.head.listens = true)
    (hf : (s.head.seen k.arr).frameFails k.frame = none) (hi : is = true) :
    s.run (fun h => h.rxFrame k is body) = .next (s.become (body (s.head.seen k.arr))) := by
  rw [run_eq, rxFrame_passes hl hf hi]

/-- What a CONNECT that names no connection does on a head with room: the new connection and its reply. -/
theorem onConnect_new {h : Head} {k : Pkt} (side : Nat) (hm : maxpayOk (k.th 12 2) = true)
    (hnone : h.net.conns.find? (fun c => c.state = .opened && c.addr = k.src && c.far = k.th 0 4 && c.isnFar = k.th 4 4) = none)
    (hroom : h.net.conns.length < 262144) :
    let c := newConn h.newConnNum.2 side k.src (k.th 0 4) (Config.freeNat h.newConnNum.1.fresh % 4294967296) (k.th 4 4) 0 (k.th 12 2)
      (k.th 14 1 % 8) h.newConnNum.1.now .opened false (bit (k.th 14 1) 4)
    h.onConnect side k = ((h.newConnNum.1.tick.setConns (h.newConnNum.1.net.conns ++ [c])).noteUse c.num).sendReply c k.tsv := by
  simp only [Head.onConnect, hm, hnone, Bool.not_true, Bool.false_eq_true, if_false, if_neg (Nat.not_le.mpr hroom)]
  rfl

/-- Settles O30, row by row. -/
theorem connectionsAndSessions : Obligations.ConnectionsAndSessions := by
  refine ⟨?_, ?_⟩
  · intro s r a b d e m o
    have hcut : r.join [a, b, d, e, m ++ o] = r.join [a, b, d, e, m, o] := by
      simp only [Rx.join, List.flatten_cons, List.flatten_nil, List.append_nil]
    have hclose : exec (.cptCloseUnknownRx (r.join [a, b, d, e, m, o])) s = execCptCloseUnknownRx (r.join [a, b, d, e, m, o]) s := rfl
    have hconn : exec (.cptConnectRx r a b d e (m ++ o)) s = execCptConnectRx r a b d e (m ++ o) s := rfl
    have hreply : exec (.cptConnectReplyRx r a b d e m o) s = execCptConnectReplyRx r a b d e m o s := rfl
    dsimp only
    rw [hclose, hconn, hreply, execCptCloseUnknownRx, execCptConnectRx, execCptConnectReplyRx]
    dsimp only
    rw [hcut]
    generalize (r.join [a, b, d, e, m, o]).pkt = k
    intro hl hf
    refine ⟨fun side ht hbit hs hd hm hnone hroom => ?_, fun c hk ht hbit hi ho => ⟨fun href => ?_, fun href hm i x hrep => ?_⟩,
      fun ht hreason => ⟨fun c hc => ?_, fun hc => ?_⟩⟩
    · refine ⟨newConn (s.head.seen k.arr).newConnNum.2 side k.src (k.th 0 4)
        (Config.freeNat (s.head.seen k.arr).newConnNum.1.fresh % 4294967296) (k.th 4 4) 0 (k.th 12 2) (k.th 14 1 % 8)
        (s.head.seen k.arr).newConnNum.1.now .opened false (bit (k.th 14 1) 4), rfl, rfl, rfl, rfl, rfl, rfl, rfl, rfl, rfl, rfl, ?_⟩
      rw [run_rxFrame_passes hl hf (by rw [decide_eq_true ht, hbit]; rfl), if_pos hd, hs, Option.getD_some, onConnect_new side hm hnone hroom]
    · rw [run_rx_hears hk (by rw [decide_eq_true ht, hbit]; rfl) (by simp only [takesReply, ho, decide_true, Bool.true_or])
        (by rw [href, Bool.true_or])]
      simp only [Head.onReply, hi, ho, href, Bool.not_true, ne_eq, not_true_eq_false, decide_false, Bool.or_self, Bool.false_eq_true,
        if_false, if_true]
    · rw [run_rx_hears hk (by rw [decide_eq_true ht, hbit]; rfl) (by simp only [takesReply, ho, decide_true, Bool.true_or])
        (by rw [hm, Bool.or_true])]
      simp only [Head.onReply, hi, ho, href, Bool.not_true, ne_eq, not_true_eq_false, decide_false, Bool.or_self, Bool.false_eq_true,
        if_false]
      split
      case h_1 hno => exact nomatch hno.symm.trans hrep
      case h_2 j y hsome =>
        obtain ⟨rfl, rfl⟩ := Prod.mk.inj (Option.some.inj (hsome.symm.trans hrep))
        rfl
    · rw [run_rxFrame_passes hl hf (by rw [decide_eq_true ht, decide_eq_true hreason]; rfl), hc]
    · rw [run_rxFrame_passes hl hf (by rw [decide_eq_true ht, decide_eq_true hreason]; rfl), hc]
  · intro s r a b d c
    have hcut2 : r.join [a, b ++ d] = r.join [a, b, d] := by
      simp only [Rx.join, List.flatten_cons, List.flatten_nil, List.append_nil]
    have hcut1 : r.join [a ++ b ++ d] = r.join [a, b, d] := by
      simp only [Rx.join, List.flatten_cons, List.flatten_nil, List.append_nil, List.append_assoc]
    have hhello : exec (.sessionHello r a (b ++ d)) s = execSessionHello r a (b ++ d) s := rfl
    have hproof : exec (.sessionProof r (a ++ b ++ d)) s = execSessionProof r (a ++ b ++ d) s := rfl
    have hchal : exec (.sessionChallengeRx r a b d) s = execSessionChallengeRx r a b d s := rfl
    have hres : exec (.sessionResultRx r a (b ++ d)) s = execSessionResultRx r a (b ++ d) s := rfl
    dsimp only
    rw [hhello, hproof, hchal, hres, execSessionHello, execSessionProof, execSessionChallengeRx, execSessionResultRx]
    dsimp only
    rw [hcut2, hcut1]
    generalize (r.join [a, b, d]).pkt = k
    intro hk ho hn
    have hall : takesAll c = true := decide_eq_true ho
    refine ⟨fun ht hslot hfull href => ?_, fun x ht hi hx => ⟨fun hok => ?_, fun hok => ?_⟩, fun x ht hi hx hv => ?_,
      fun i x ht hst hi hslot hrep => ?_⟩
    · rw [run_rx_hears hk (decide_eq_true ht) hall rfl, rxReliable_new _ _ _ _ _ hn]
      simp only [Head.onHello, hslot, hfull, href, Option.isSome_none, Bool.false_eq_true, if_false]
    · rw [run_rx_hears hk (decide_eq_true ht) hall rfl, rxReliable_new _ _ _ _ _ hn]
      simp only [Head.onProof, hi, hx, hok, Bool.false_eq_true, if_false, if_true]
    · rw [run_rx_hears hk (decide_eq_true ht) hall rfl, rxReliable_new _ _ _ _ _ hn]
      simp only [Head.onProof, hi, hx, hok, Bool.false_eq_true, if_false]
    · rw [run_rx_hears hk (decide_eq_true ht) hall rfl, rxReliable_new _ _ _ _ _ hn]
      simp only [Head.onChallenge, hi, hx, hv, if_true]
    · rw [run_rx_hears hk (decide_eq_true ht) hall rfl, rxReliable_new _ _ _ _ _ hn]
      simp only [Head.onResult, hi, hslot, hst, hrep, Option.isSome_none, Bool.not_true, Bool.or_self, Bool.false_eq_true, if_false,
        ne_eq, not_true_eq_false]

/-! ## Timers -/

/-- Settles O31, timer by timer. -/
theorem connectionTimers : Obligations.ConnectionTimers := by
  intro s c hc
  have hack : exec (.cptAckTimer c.num) s = execCptAckTimer c.num s := rfl
  have hretry : exec (.connectRetry c.num) s = execConnectRetry c.num s := rfl
  have hkeep : exec (.keepaliveTimer c.num) s = execKeepaliveTimer c.num s := rfl
  have hlost : exec (.connLostTimer c.num) s = execConnLostTimer c.num s := rfl
  have hsetup : exec (.sessionSetupTimeout c.num) s = execSessionSetupTimeout c.num s := rfl
  have hdrain : exec (.drainTimeout c.num) s = execDrainTimeout c.num s := rfl
  rw [hack, hretry, hkeep, hlost, hsetup, hdrain, execCptAckTimer, execConnectRetry, execKeepaliveTimer, execConnLostTimer,
    execSessionSetupTimeout, execDrainTimeout]
  simp only [run_eq, hc]
  refine ⟨fun h => ?_, fun p hp => ⟨fun ht => ?_, fun ht => ?_⟩, fun ho ht => ?_, fun ho ht => ?_, fun ho => ⟨?_, ?_, fun hslot => ?_⟩,
    fun ho => ?_, fun path => rfl⟩
  · rw [if_pos h]
  · have he : exec (.cptRtoExpire c.num p.psn) s = execCptRtoExpire c.num p.psn s := rfl
    rw [he, execCptRtoExpire, run_eq, hc, Option.bind_some, hp]
    exact congrArg (fun h => Host.Outcome.next (s.become h)) (if_neg (Nat.not_lt.mpr ht))
  · have he : exec (.cptRtoExpire c.num p.psn) s = execCptRtoExpire c.num p.psn s := rfl
    rw [he, execCptRtoExpire, run_eq, hc, Option.bind_some, hp]
    exact congrArg (fun h => Host.Outcome.next (s.become h)) (if_pos ht)
  · rw [if_neg (not_not_intro ho), if_neg (Nat.not_le.mpr ht)]
  · rw [if_neg (not_not_intro ho), if_pos ht]
  · rw [if_pos ho]
  · rw [if_pos ho]
  · rw [if_pos (by rw [decide_eq_true ho, hslot]; rfl)]
  · rw [if_pos ho]

/-! ## Links -/

/-- A frame for a link that is paused changes nothing but the frames that wait. -/
theorem sendEth_paused_out {h : Head} {f : EthOut} {l : Nat} (hl : f.link = some l) (hp : h.now < look 0 h.net.paused l) :
    (h.sendEth f).out = h.out := by
  have hfree : (((upto 32).filter (fun i => h.net.up.getLsbD i && (match f.link with | some l => i = l | none => true))).filter
      (fun i => decide (look 0 h.net.paused i ≤ h.now))) = [] := by
    rw [List.filter_filter, List.filter_eq_nil_iff]
    intro i _ hi
    simp only [hl, Bool.and_eq_true, decide_eq_true_eq] at hi
    obtain ⟨hi, _, rfl⟩ := hi
    exact absurd hp (Nat.not_lt.mpr hi)
  unfold Head.sendEth
  extract_lets ups free
  have hfree : free = [] := hfree
  rw [hfree]
  split
  · rfl
  · rfl

/-- Settles O32, row by row. -/
theorem linksAndWindows : Obligations.LinksAndWindows := by
  refine ⟨fun s => ⟨?_, ?_, ?_, fun f l => sendEth_paused_out, ?_, ?_⟩, fun s w hw => ⟨fun hwait hcons => ?_, fun hst hrev hwait => ?_, fun ho hc => ?_⟩⟩
  · intro link dst side v6
    dsimp only
    intro hl hs
    have he : exec (.arpNdRx ⟨link, dst⟩ v6) s = execArpNdRx ⟨link, dst⟩ v6 s := rfl
    rw [he, execArpNdRx, run_eq]
    simp only [hl, hs, if_true]
  · intro dst src arr side data hl hs
    have he : exec (.icmpEchoRx dst src ⟨arr, data⟩) s = execIcmpEchoRx dst src ⟨arr, data⟩ s := rfl
    rw [he, execIcmpEchoRx, run_eq]
    simp only [hl, hs, Bool.not_true, Bool.false_eq_true, if_false]
    refine ⟨fun hn => ?_, fun hn => ?_⟩
    · rw [if_neg (Nat.not_le.mpr hn)]
    · rw [if_pos hn]
  · intro link quanta hl
    have he : exec (.pauseRx link quanta) s = execPauseRx link quanta s := rfl
    rw [he, execPauseRx, run_eq]
    simp only [hl, if_true]
  · intro link hup
    have he : exec (.hostPortDown link) s = execHostPortDown link s := rfl
    rw [he, execHostPortDown, run_eq, if_pos hup]
  · intro link hr hu hup
    have he : exec (.hostPortUp link) s = execHostPortUp link s := rfl
    rw [he, execHostPortUp, run_eq, if_neg (by rw [hr, hu, hup]; exact Bool.false_ne_true)]
  · have he : exec (.genAdvance w.side w.idx) s = execGenAdvance w.side w.idx s := rfl
    rw [he, execGenAdvance, run_eq]
    simp only [hw, hwait, hcons, Bool.and_self, if_true]
  · have he : exec (.revokeDrainDone w.side w.idx) s = execRevokeDrainDone w.side w.idx s := rfl
    rw [he, execRevokeDrainDone, run_eq]
    have hnone : w.revBy.isNone = false := by rw [← Option.not_isSome, hrev]; rfl
    simp only [hw, hwait, hnone, Bool.false_eq_true, if_false, List.nil_append]
  · have he : exec (.windowLingerExpire w.side w.idx) s = execWindowLingerExpire w.side w.idx s := rfl
    rw [he, execWindowLingerExpire, run_eq]
    simp only [hw, ho, hc, Bool.or_self, Bool.false_eq_true, if_false]

end Sys2Proof.Machine
end

section
/-! PROOFS. Flash and reduction: tandem windows, what dies and groups report, destage and lookups, pools and volumes. -/

namespace Sys2Proof.Machine

/-! ## Tandem windows -/

/-- A group that is not idle needs no waking. -/
theorem wakeGroup_awake {h : Head} {g : Nat} (hi : (h.group g).idle = false) : h.wakeGroup g = h := by
  simp only [Head.wakeGroup, hi, Bool.false_eq_true, if_false]

/-- A window on an owned group that is awake: the resynchronisation takes it, or the rail serves it after those that wait. -/
theorem exec_tandemWindow {s : State} {g : Nat} {addrs : List Bool} {ports : BitVec 4} (ho : (s.head.group g).own = true)
    (hi : (s.head.group g).idle = false) (h1 : 1 ≤ addrs.length) (h16 : addrs.length ≤ 16) (hp : ports ≠ 0) (hw : s.head.working = true) :
    exec (.tandemWindow g addrs ports) s = .next (s.become
      (if !(s.head.group g).resync.isEmpty && addrs = [false, true, false] then s.head.resyncWindow g ports
       else s.head.serveWindows g ((s.head.group g).queue ++ [(addrs, ports)]))) := by
  have he : exec (.tandemWindow g addrs ports) s = execTandemWindow g addrs ports s := rfl
  have hlen : ¬ addrs.length < 1 := Nat.not_lt.mpr h1
  have hlen' : ¬ 16 < addrs.length := Nat.not_lt.mpr h16
  rw [he, execTandemWindow, run_eq]
  simp only [ho, hlen, hlen', hp, hw, wakeGroup_awake hi, Bool.not_true, decide_false, Bool.or_self, Bool.false_eq_true, if_false]

/-- What a window on an owned group does, by what stands before it. -/
theorem tandemWindow_cases {s : State} {g : Nat} {addrs : List Bool} {ports : BitVec 4} (ho : (s.head.group g).own = true)
    (hi : (s.head.group g).idle = false) (h1 : 1 ≤ addrs.length) (h16 : addrs.length ≤ 16) (hp : ports ≠ 0) (hw : s.head.working = true) :
    ((s.head.group g).resync = [] → (s.head.group g).queue = [] → s.head.windowMay g (addrs, ports) = true →
      exec (.tandemWindow g addrs ports) s = .next (s.become ((s.head.railWindow g).serveWindows g []))) ∧
    (∀ w r, (s.head.group g).resync = [] → (s.head.group g).queue = w :: r → s.head.windowMay g w = false →
      exec (.tandemWindow g addrs ports) s =
        .next (s.become (s.head.setGroup g { s.head.group g with queue := (s.head.group g).queue ++ [(addrs, ports)] }))) ∧
    ((s.head.group g).resync ≠ [] → addrs = [false, true, false] →
      exec (.tandemWindow g addrs ports) s = .next (s.become (s.head.resyncWindow g ports))) := by
  rw [exec_tandemWindow ho hi h1 h16 hp hw]
  refine ⟨fun hr hq hm => ?_, fun w r hr hq hm => ?_, fun hr ha => ?_⟩
  · simp only [hr, hq, hm, List.isEmpty_nil, Bool.not_true, Bool.false_and, Bool.false_eq_true, if_false, if_true, List.nil_append,
      Head.serveWindows]
  · simp only [hr, hq, hm, List.isEmpty_nil, Bool.not_true, Bool.false_and, Bool.false_eq_true, if_false, List.cons_append,
      Head.serveWindows]
  · rw [if_pos (by rw [ha, decide_eq_true rfl, Bool.and_true, Bool.not_eq_true', List.isEmpty_eq_false_iff]; exact hr)]

/-! ## What dies and groups report -/

/-- The member of a stripe that is late, the first time: what waits for it goes on elsewhere. -/
theorem memberLate_first {h : Head} {b : Band} {o : NOp} {stripe pos cw : Nat} (hb : h.band b.num = some b)
    (ho : h.readOf b.num stripe pos = some o) (hcw : cw < b.cws) (hl : h.fl.late.contains (b.num, stripe, pos) = false) :
    h.memberLate b.num stripe pos cw =
      (((h.count .STCNT 4 1).setFl { h.fl with late := h.fl.late ++ [(b.num, stripe, pos)] }).memberGone b.num stripe pos).dieTimedOut o.die := by
  simp only [Head.memberLate, hb, ho, hl, decide_eq_false (Nat.not_le.mpr hcw), Bool.or_self, Bool.false_eq_true, if_false]

/-- A program that ends, by what the die says of it. -/
theorem programEnd_program {h : Head} {die n r : Nat} (hf : h.fl.ops.find? (fun o => match o with
      | .program d _ _ => d = die | .spill d _ => d = die | .late d => d = die | _ => false) = some (.program die n r)) :
    h.programEnd die true = ((h.nandEnd (.program die n r)).updDie die (fun d => { d with touts := 0 })).memberDone n die true ∧
    ∀ b, (h.nandEnd (.program die n r)).band n = some b → h.programEnd die false =
      (((h.nandEnd (.program die n r)).count .NFCNT 5 1).retire die ((b.members.find? (fun m => m.1 = die)).getD (0, 0)).2 b.pool
        b.side).memberDone n die false := by
  refine ⟨?_, fun b hb => ?_⟩
  · unfold Head.programEnd
    split
    case h_2 heq => cases heq.symm.trans hf; rfl
    case h_3 h2 heq => exact absurd (Option.some.inj (heq.symm.trans hf)) (h2 _ _ _)
    all_goals rename_i heq; cases heq.symm.trans hf
  · unfold Head.programEnd
    split
    case h_2 heq => cases heq.symm.trans hf; simp only [hb, Bool.false_eq_true, if_false]
    case h_3 h2 heq => exact absurd (Option.some.inj (heq.symm.trans hf)) (h2 _ _ _)
    all_goals rename_i heq; cases heq.symm.trans hf

/-- A program that takes too long: its member is lost, and the die is charged with it. -/
theorem exec_programTimeout {s : State} {die n r : Nat}
    (hf : s.head.fl.ops.find? (fun o => match o with | .program d _ _ => d = die | _ => false) = some (.program die n r)) :
    exec (.programTimeout die) s = .next (s.become
      ((((s.head.setFl { s.head.fl with ops := s.head.fl.ops.map (fun o => if o = .program die n r then .late die else o) }).memberDone
        n die false).dieTimedOut die).flash)) := by
  have he : exec (.programTimeout die) s = execProgramTimeout die s := rfl
  rw [he, execProgramTimeout, run_eq]
  split
  case h_1 heq => cases heq.symm.trans hf; rfl
  case h_2 h1 => exact absurd hf (h1 _ _ _)

/-- What the die was told for the codewords of a read that needed it (R223). -/
def Head.shownRead (h : Head) (o : NOp) (l : List CwResult) : Head :=
  match o with
  | .read d blk row _ _ _ => h.decodeFlow d blk row l
  | _ => h

/-- The head that has counted a page read that ended. -/
def Head.readCounted (h : Head) (o : NOp) (l : List CwResult) : Head :=
  (((h.shownRead o l).nandEnd o).updDie o.die (fun d => { d with touts := 0 })).countRead l

/-- A page read that ended, once it is counted: late, it is forgotten; in time, its readers go on, codeword by codeword. -/
def Head.readServed (k : Head) (b : Band) (stripe pos : Nat) (l : List CwResult) : Head :=
  if k.fl.late.contains (b.num, stripe, pos) then k.setFl { k.fl with late := k.fl.late.erase (b.num, stripe, pos) }
  else (upto b.cws).foldl (fun h c => if nth .hard l c = .erased then h.cwGone b.num stripe pos c else h.cwCame b.num stripe pos c) k

/-- A page read that ended where none of its codewords asks for a refresh. -/
theorem readDone_eq {h : Head} {b : Band} {o : NOp} {stripe pos : Nat} {res : List CwResult} (hb : h.band b.num = some b)
    (ho : h.readOf b.num stripe pos = some o)
    (hr : (fit .hard b.cws res).any (h.readCounted o (fit .hard b.cws res)).dueRefresh = false) :
    h.readDone b.num stripe pos res = (h.readCounted o (fit .hard b.cws res)).readServed b stripe pos (fit .hard b.cws res) := by
  have hrun : h.readDone b.num stripe pos res =
      (if (fit .hard b.cws res).any (h.readCounted o (fit .hard b.cws res)).dueRefresh then
        (h.readCounted o (fit .hard b.cws res)).updBand b.num (fun b => { b with refresh := true })
       else h.readCounted o (fit .hard b.cws res)).readServed b stripe pos (fit .hard b.cws res) := by
    simp only [Head.readDone, hb, ho]
    rfl
  rw [hrun, if_neg (by rw [hr]; exact Bool.false_ne_true)]

/-- An erase that ended: the block is freed, or retired where it is worn or the erase failed. -/
theorem eraseEnd_eq {h : Head} {die block : Nat} {x : Die} {f : Family} {gc : Option (Nat × Nat)} {k : Head} (ok : Bool)
    (hf : h.fl.ops.find? (fun o => match o with | .erase d b _ => d = die && b = block | _ => false) = some (.erase die block gc))
    (hk : k = (h.updDie die (fun x => { x with ec := place 0 x.ec block (x.count block + 1), susp := false, touts := 0 })).nandEnd
      (.erase die block gc))
    (hd : k.die die = some x) (hfam : k.family die = some f) :
    h.eraseEnd die block ok =
      (if !ok || decide (f.pelim ≤ x.count block) then (if ok then k else k.count .NFCNT 6 1).retire die block
          (((k.fl.bands.find? (fun b => b.members.contains (die, block))).map (fun b => b.pool)).getD 0) (dieSide die)
       else (if ok then k else k.count .NFCNT 6 1).updDie die (fun x => { x with free := x.free ++ [block] })).eraseOver die block gc := by
  unfold Head.eraseEnd
  split
  case h_1 heq =>
    cases heq.symm.trans hf
    dsimp only
    rw [← hk, hd, hfam]
  case h_2 h1 => exact absurd hf (h1 _ _ _)

/-- Settles O33, part by part. -/
theorem flashEvents : Obligations.FlashEvents := by
  refine ⟨?_, fun s => ⟨fun band stripe pos res => rfl, ?_, ?_, fun die block st => rfl, ?_, fun die ho => ?_, fun g ho hi hr => ?_,
    fun g ho hr hq hc hcold hquiet => ?_, ⟨_, rfl, rfl⟩, ⟨_, rfl, rfl⟩⟩, ?_, ?_⟩
  · intro s g addrs ports h x ho hi h1 h16 hp hw
    obtain ⟨hserve, hwait, hresync⟩ := tandemWindow_cases ho hi h1 h16 hp hw
    refine ⟨fun hr hq hm => ⟨hserve hr hq hm, rfl⟩, hwait, fun d r hr ha => ?_⟩
    rw [hresync (by rw [show _ = d :: r from hr]; exact List.cons_ne_nil d r) ha, Head.resyncWindow]
    simp only [show (s.head.group g).resync = d :: r from hr, x, h]
  · intro die n r st hf
    have he : exec (.nandProgramDone die st) s = execNandProgramDone die st s := rfl
    obtain ⟨hpass, hfail⟩ := programEnd_program hf
    rw [he, execNandProgramDone, run_eq]
    refine ⟨fun hst => ?_, fun b hst hb => ?_⟩
    · rw [decide_eq_true hst, hpass]
    · rw [decide_eq_false hst, hfail b hb]
  · exact fun die n r hf => exec_programTimeout hf
  · intro b o stripe pos cw hb ho hcw hl
    have he : exec (.memberTimeout b.num stripe pos cw) s = execMemberTimeout b.num stripe pos cw s := rfl
    rw [he, execMemberTimeout, run_eq, memberLate_first hb ho hcw hl]
  · have he : exec (.dieBusyTimeout die) s = execDieBusyTimeout die s := rfl
    rw [he, execDieBusyTimeout, run_eq, if_pos ho]
  · have he : exec (.zqShortCal g) s = execZqShortCal g s := rfl
    rw [he, execZqShortCal, run_eq, if_pos (by rw [ho, hi, hr]; rfl), Head.emitAll]
  · have he : exec (.groupIdle g) s = execGroupIdle g s := rfl
    rw [he, execGroupIdle, run_eq]
    dsimp only
    rw [if_pos (by rw [ho, hr, hq, decide_eq_true hc, hcold, hquiet]; rfl)]
  · intro h b o stripe pos res hb ho l shown k hr
    have heq : h.readDone b.num stripe pos res = k.readServed b stripe pos l := readDone_eq hb ho hr
    rw [heq, Head.readServed]
    refine ⟨fun hl => ?_, fun hl => ?_⟩
    · rw [if_pos hl]
    · rw [if_neg (by rw [hl]; exact Bool.false_ne_true)]
  · intro h die block x f gc hf k owner hd hfam
    refine ⟨fun hw => ?_, fun hw => ?_, ?_⟩
    · rw [eraseEnd_eq (k := k) true hf rfl hd hfam, decide_eq_false (Nat.not_le.mpr hw), if_neg (by exact Bool.false_ne_true), if_pos rfl]
    · rw [eraseEnd_eq (k := k) true hf rfl hd hfam, decide_eq_true hw, if_pos (Bool.or_true _), if_pos rfl]
    · rw [eraseEnd_eq (k := k) false hf rfl hd hfam, if_pos (show (!false || _) = true from Bool.true_or _), if_neg Bool.false_ne_true]

/-! ## Destage and lookups -/

/-- A range that undone writes of one epoch hold, none of it dropped, becomes an extent. -/
theorem destage_starts {h : Head} {vol off len : Nat} {v : Volume} {a : Nat} {r : List Nat} (hv : h.vol vol = some v) (hw : h.working = true)
    (hs : h.serves v.home = true) (hsp : h.spilling = false) (hh : h.handing v.home = false) (hd : v.deleting = false) (hl : 1 ≤ len)
    (hp : pastEnd off len = false) (hx : off / 4194304 = (off + len - 1) / 4194304) (hf : h.rangeFree vol off len = true)
    (he : (v.undone off len).map (fun w => w.epoch) = a :: r)
    (hc : covered (((v.undone off len).filter (fun w => w.epoch = r.foldl min a)).foldl (fun l w => addRange l w.off w.len) []) off len = true)
    (hg : ∀ i, i < len → v.dropped (r.foldl min a) (off + i) = false) :
    h.destage vol off len = (h.fineTurn vol off len).startExtent v off len (r.foldl min a)
      (srcsOf ((v.undone off len).filter (fun w => w.epoch = r.foldl min a))) := by
  have hany : ((upto len).map (fun i => v.dropped (r.foldl min a) (off + i))).any (fun x => x) = false := by
    rw [List.any_eq_false]
    intro x hx
    obtain ⟨i, hi, rfl⟩ := List.mem_map.mp hx
    rw [hg i (by simpa [upto] using hi)]
    exact Bool.false_ne_true
  have hall : ((upto len).map (fun i => v.dropped (r.foldl min a) (off + i))).all (fun x => x) = false := by
    rw [List.all_eq_false]
    exact ⟨_, List.mem_map.mpr ⟨0, by simpa [upto] using Nat.pos_of_ne_zero (Nat.one_le_iff_ne_zero.mp hl), rfl⟩, by rw [hg 0 hl]; exact Bool.false_ne_true⟩
  have hlen : ¬ len = 0 := Nat.pos_iff_ne_zero.mp hl
  simp only [Head.destage, hv, hw, hs, hsp, hh, hd, hlen, hp, hx, hf, he, hc, hall, hany, Bool.not_true, Bool.or_self, decide_false, ne_eq,
    not_true_eq_false, Bool.false_eq_true, if_false]

/-- A page of the filter that was read is unread no more. -/
theorem filterRead_unread {h : Head} {pool side page : Nat} {p : Pool} (hp : h.pool pool = some p) (hr : page < 2 ^ p.cidxk)
    {x : Nat × Nat × List Nat} (hx : x ∈ (h.filterRead pool side page).red.unread) (h1 : x.1 = pool) (h2 : x.2.1 = side) : page ∈ x.2.2 := by
  simp only [Head.filterRead, hp] at hx
  obtain ⟨y, -, rfl⟩ := List.mem_map.mp (List.mem_of_mem_filter hx)
  revert h1 h2
  split
  case isTrue => exact fun _ _ => List.mem_cons_self
  case isFalse hn =>
    intro h1 h2
    simpa only [h1, h2, hr, decide_true, Bool.true_and, Bool.not_eq_true', Bool.not_eq_false, List.contains_iff_mem] using hn

/-- Settles O35: `destage_starts` for the extent, the lookups by what the cold index holds. -/
theorem destage : Obligations.Destage := by
  intro s
  refine ⟨?_, ?_, fun i => rfl, fun pool side page p hp hr => ⟨rfl, fun x hx h1 h2 => filterRead_unread hp hr hx h1 h2⟩, fun u => rfl⟩
  · intro vol off len v a r hv hw hs hsp hh hd hl hp hx hf hep e mine hc hg
    have he : exec (.destageExtent vol off len) s = execDestageExtent vol off len s := rfl
    rw [he, execDestageExtent, run_eq, destage_starts hv hw hs hsp hh hd hl hp hx hf hep hc hg]
  · intro ext i e c hc hl pool ents
    have he : exec (.coldLookupDone ext i) s = execColdLookupDone ext i s := rfl
    have hlate : exec (.coldLookupTimeout ext i) s = execColdLookupTimeout ext i s := rfl
    refine ⟨fun hnone => ?_, fun x hx => ?_, ?_⟩
    · rw [he, execColdLookupDone, run_eq]
      simp only [Head.coldDone, hc, hl, ne_eq, not_true_eq_false, if_false]
      rw [show List.find? _ _ = none from hnone]
    · rw [he, execColdLookupDone, run_eq]
      simp only [Head.coldDone, hc, hl, ne_eq, not_true_eq_false, if_false]
      rw [show List.find? _ _ = some x from hx]
    · rw [hlate, execColdLookupTimeout, run_eq]
      simp only [Head.coldLate, hc, hl, Bool.not_true, Bool.false_eq_true, if_false]

/-! ## Pools and volumes -/

/-- A write that passes its checks and whose last effect may have to wait: it is answered, or it waits for that effect's end. -/
theorem untilGone_ok {h k : Head} {going : Head → Bool} {pool : Bool} {n : Nat} :
    (going k = false → h.untilGone (.ok (k, .ok)) going pool n = .ok ((h.answered k .ok).settle)) ∧
    (going k = true → h.untilGone (.ok (k, .ok)) going pool n =
      .ok ({ k with reply := none, vols := { k.vols with ends := k.vols.ends ++ [(pool, n)] } } : Head).settle) := by
  refine ⟨fun hg => ?_, fun hg => ?_⟩
  · simp only [Head.untilGone, hg, Bool.and_false, Bool.false_eq_true, if_false]
  · simp only [Head.untilGone, hg, decide_true, Bool.and_self, if_true]

/-- A creation record that passes every check creates its pool. -/
theorem doPoolctl_creates {h : Head} {c : Caller} {v : Word} {b : List Byte} (hb : h.tabref c v 32 = some b)
    (hrest : (b.drop 8).all (fun x => x = 0) = true) (ht : dword b 0 63 56 = 1) (hp : h.pool (dword b 0 55 48) = none)
    (h46 : dword b 0 46 40 = 0) (h31 : dword b 0 31 13 = 0) (h7 : dword b 0 7 2 = 0) (h10 : 10 ≤ dword b 0 39 32)
    (h26 : dword b 0 39 32 ≤ 26) (hg : h.geoOk (dword b 0 12 8) (dword b 0 1 0) = true) :
    h.doPoolctl c v = .ok (h.createPool (dword b 0 55 48) (decide (dword b 0 47 47 = 1)) (dword b 0 12 8) (dword b 0 1 0)
      (dword b 0 39 32), .ok) := by
  simp only [Head.doPoolctl, hb, if_pos ht]
  rw [if_neg]
  rw [hp, hrest, h46, h31, h7, hg, decide_eq_false (Nat.not_lt.mpr h10), decide_eq_false (Nat.not_lt.mpr h26)]
  exact Bool.false_ne_true

/-- A deletion record of a pool that nothing uses begins its deletion. -/
theorem doPoolctl_deletes {h : Head} {c : Caller} {v : Word} {b : List Byte} {p : Pool} (hb : h.tabref c v 32 = some b)
    (hrest : (b.drop 8).all (fun x => x = 0) = true) (ht : dword b 0 63 56 = 2) (hp : h.pool (dword b 0 55 48) = some p)
    (hd : p.deleting = false) (h47 : dword b 0 47 0 = 0) (hv : h.vols.vols.any (fun x => x.pool = dword b 0 55 48) = false)
    (hw : h.tape.weak.any (fun w => w.pool = dword b 0 55 48) = false)
    (hc : h.openContracts.any (fun k => (h.vol k.2.volume).any (fun x => x.pool = dword b 0 55 48)) = false) :
    h.doPoolctl c v = .ok ((h.record' (.pool (dword b 0 55 48) none)).deletePool (dword b 0 55 48), .ok) := by
  have h1 : ¬ dword b 0 63 56 = 1 := by rw [ht]; decide
  simp only [Head.doPoolctl, hb, if_neg h1, if_pos ht]
  rw [if_neg]
  rw [hp, hrest, h47, hv, hw, hc, Option.isNone_some, Option.any_some, hd]
  exact Bool.false_ne_true

/-- A creation record that passes every check creates its volume. -/
theorem doVolctl_creates {h : Head} {c : Caller} {v : Word} {b : List Byte} {p : Pool} (hb : h.tabref c v 32 = some b)
    (hrest : (b.drop 8).all (fun x => x = 0) = true) (h46 : dword b 0 46 16 = 0) (ht : dword b 0 63 56 = 1)
    (hv : h.vol (dword b 0 15 0) = none) (hp : h.pool (dword b 0 55 48) = some p) (hd : p.deleting = false) :
    let x : Volume :=
      { num := dword b 0 15 0, pool := dword b 0 55 48, home := dword b 0 47 47, vend := 0, vepoch := 1, group := 0, writes := [], snaps := []
        parent := none, map := [], emap := [], deleting := false, delFence := [], fixed := [] }
    h.doVolctl c v = .ok ((h.setVols (h.vols.vols ++ [x])).record' (.epoch x), .ok) := by
  simp only [Head.doVolctl, hb, if_pos ht]
  rw [if_neg]
  rw [hv, hp, hrest, h46, Option.isNone_some, Option.any_some, hd]
  exact Bool.false_ne_true

/-- A deletion record of a volume that nothing uses begins its deletion. -/
theorem doVolctl_deletes {h : Head} {c : Caller} {v : Word} {b : List Byte} {x : Volume} (hb : h.tabref c v 32 = some b)
    (hrest : (b.drop 8).all (fun x => x = 0) = true) (h46 : dword b 0 46 16 = 0) (ht : dword b 0 63 56 = 2)
    (hx : h.vol (dword b 0 15 0) = some x) (hd : x.deleting = false) (h55 : dword b 0 55 47 = 0) (hg : x.group = 0) (hs : x.snaps = [])
    (hc : h.openContracts.any (fun k => k.2.volume = dword b 0 15 0) = false) (hr : h.volReplicating x = false) :
    h.doVolctl c v = .ok ((h.updVol (dword b 0 15 0) (fun x => { x with
      deleting := true
      delFence := (h.work.cmds.filter (fun d => !d.isFinal && (d.side, d.seq) ≠ (c.side, c.seq))).map (fun d => (d.side, d.seq)) })).1, .ok) := by
  have h1 : ¬ dword b 0 63 56 = 1 := by rw [ht]; decide
  simp only [Head.doVolctl, hb, if_neg h1, if_pos ht, hx]
  rw [if_neg]
  rw [hd, hrest, h46, h55, hc, hr, hg, Volume.liveSnaps, hs]
  exact Bool.false_ne_true

/-- Settles O36, record by record. -/
theorem poolsAndVolumes : Obligations.PoolsAndVolumes := by
  intro s c v b hb f n
  refine ⟨fun ha hrest => ⟨fun ht hp h46 h31 h7 h10 h26 hg => ?_, fun p ht hp hdel h47 hvols hweak hcon => ?_⟩,
    fun ha hrest h46 => ⟨fun p ht hv hp hdel => ?_, fun x ht hx hdel h55 hgrp hsn hcon hrep => ?_⟩⟩
  · have he : exec (.poolCreate c v) s = execPoolCreate c v s := rfl
    rw [he, execPoolCreate, write_wrote s c _ _ v _ ha _ _ (doPoolctl_creates hb hrest ht hp h46 h31 h7 h10 h26 hg)]
  · have he : exec (.poolDelete c v) s = execPoolDelete c v s := rfl
    intro k j
    have hwrite : s.head.writeWith c Reg.POOLCTL.row 0 v (fun h => Head.doPoolctl h c v) = .ok (j, .ok) :=
      writeWith_accepts _ _ _ _ _ _ ha _ _ (doPoolctl_deletes hb hrest ht hp hdel h47 hvols hweak hcon)
    refine ⟨fun hg => ?_, fun hg => ?_⟩
    · rw [he, execPoolDelete, State.runE, hb, hwrite, untilGone_ok.1 hg]
      rfl
    · rw [he, execPoolDelete, State.runE, hb, hwrite, untilGone_ok.2 hg]
      rfl
  · have he : exec (.volumeCreate c v) s = execVolumeCreate c v s := rfl
    refine ⟨{ num := f 15 0, pool := n, home := f 47 47, vend := 0, vepoch := 1, group := 0, writes := [], snaps := []
              parent := none, map := [], emap := [], deleting := false, delFence := [], fixed := [] },
      rfl, rfl, rfl, rfl, rfl, rfl, rfl, rfl, rfl, ?_⟩
    rw [he, execVolumeCreate, write_wrote s c _ _ v _ ha _ _ (doVolctl_creates hb hrest h46 ht hv hp hdel)]
  · have he : exec (.volumeDelete c v) s = execVolumeDelete c v s := rfl
    intro k j hg
    have hwrite : s.head.writeWith c Reg.VOLCTL.row 0 v (fun h => Head.doVolctl h c v) = .ok (j, .ok) :=
      writeWith_accepts _ _ _ _ _ _ ha _ _ (doVolctl_deletes hb hrest h46 ht hx hdel h55 hgrp hsn hcon hrep)
    rw [he, execVolumeDelete, State.runE, hb, hwrite, untilGone_ok.2 hg]
    rfl

end Sys2Proof.Machine
end

section
/-! PROOFS. The pair: what records and events leave alone, fences, the hand-over. -/

namespace Sys2Proof.Machine

/-! ## What a record leaves alone -/

/-- A head that has at most recorded something more: nothing that it works on has changed. -/
structure Head.logsOf (k h : Head) : Prop where
  core : k.core = h.core
  net : k.net = h.net
  fl : k.fl = h.fl
  tape : k.tape = h.tape
  keys : k.keys = h.keys
  sys : k.sys = h.sys
  fence : k.pair.fence = h.pair.fence
  handoff : k.pair.handoff = h.pair.handoff
  verbs : k.work.verbs = h.work.verbs
  cmds : k.work.cmds = h.work.cmds

theorem Head.logsOf.refl (h : Head) : h.logsOf h := ⟨rfl, rfl, rfl, rfl, rfl, rfl, rfl, rfl, rfl, rfl⟩

theorem Head.logsOf.trans {h k j : Head} (hjk : j.logsOf k) (hkh : k.logsOf h) : j.logsOf h :=
  ⟨hjk.core.trans hkh.core, hjk.net.trans hkh.net, hjk.fl.trans hkh.fl, hjk.tape.trans hkh.tape, hjk.keys.trans hkh.keys,
    hjk.sys.trans hkh.sys, hjk.fence.trans hkh.fence, hjk.handoff.trans hkh.handoff, hjk.verbs.trans hkh.verbs, hjk.cmds.trans hkh.cmds⟩

theorem emit_logsOf (h : Head) (o : Output) : (h.emit o).logsOf h := ⟨rfl, rfl, rfl, rfl, rfl, rfl, rfl, rfl, rfl, rfl⟩

theorem setRcd_logsOf (h : Head) (r : Recorder) : (h.setRcd r).logsOf h := ⟨rfl, rfl, rfl, rfl, rfl, rfl, rfl, rfl, rfl, rfl⟩

theorem setLink_logsOf (h : Head) (l : Link) : (h.setLink l).logsOf h := ⟨rfl, rfl, rfl, rfl, rfl, rfl, rfl, rfl, rfl, rfl⟩

theorem draw_logsOf (h : Head) (r n : Nat) (con : Option Nat) : (h.draw r n con).logsOf h := by
  cases con <;> exact ⟨rfl, rfl, rfl, rfl, rfl, rfl, rfl, rfl, rfl, rfl⟩

theorem wire_logsOf (h : Head) (chan : Nat) (fs : List (Nat × PlFrame)) : (h.wire chan fs).logsOf h := by
  unfold Head.wire
  split
  · exact foldl_keeps (·.logsOf h) (fun k f => k.emit (.pl (f.2.bytes chan f.1) f.2)) (fun k f hk => (emit_logsOf k _).trans hk) fs h (.refl h)
  · exact .refl h

theorem mirror_logsOf (h : Head) (f : PlFrame) : (h.mirror f).1.logsOf h := by
  unfold Head.mirror
  split
  · exact (wire_logsOf _ _ _).trans ((draw_logsOf _ _ _ _).trans (setLink_logsOf _ _))
  · exact .refl h

theorem record'_logsOf (h : Head) (r : PRec) : (h.record' r).logsOf h := mirror_logsOf h _

theorem volNumber_logsOf (h : Head) : h.volNumber.1.logsOf h := by
  unfold Head.volNumber
  extract_lets
  split
  · exact setRcd_logsOf _ _
  · split
    · exact (setRcd_logsOf _ _).trans ((record'_logsOf _ _).trans ⟨rfl, rfl, rfl, rfl, rfl, rfl, rfl, rfl, rfl, rfl⟩)
    · exact setRcd_logsOf _ _

theorem newRecord_logsOf (h : Head) (e : Event) : (h.newRecord e).logsOf h := by
  unfold Head.newRecord
  extract_lets
  split
  · exact (setRcd_logsOf _ _).trans (volNumber_logsOf h)
  · split
    · exact setRcd_logsOf _ _
    · split <;> exact setRcd_logsOf _ _

theorem event_logsOf (h : Head) (code sev slot srck srci a0 a1 a2 : Nat) : (h.event code sev slot srck srci a0 a1 a2).logsOf h := by
  unfold Head.event
  extract_lets
  split
  · split
    · exact setRcd_logsOf _ _
    · exact newRecord_logsOf h _
  · exact newRecord_logsOf h _

/-! ## Fences -/

/-- FENCE_IN_L that has fallen, where FENCED is not latched and the head's own fence does not win. -/
theorem fencedBy_latches {h : Head} (hf : h.pair.fence.fenced = false) (hs : h.sys.pins.fenceOut = true ∨ h.side ≠ 0) :
    h.fencedBy = h.latchFenced (!h.sys.pins.fenceOut) := by
  have hno : (!h.sys.pins.fenceOut && decide (h.side = 0)) = false := by
    obtain ho | hside := hs
    · rw [ho, Bool.not_true, Bool.false_and]
    · rw [decide_eq_false hside, Bool.and_false]
  simp only [Head.fencedBy, hf, hno, Bool.false_eq_true, if_false]

/-- A latch sets FENCED. -/
theorem latchFenced_fenced (h : Head) (tie : Bool) : (h.latchFenced tie).pair.fence.fenced = true := by
  rw [Head.latchFenced, Head.headEvent, (event_logsOf _ _ _ _ _ _ _ _ _).fence]
  rfl

/-- A low pulse of 20 ns or more acts. -/
theorem exec_fenceInFall {s : State} {low : Nat} (hl : 20 ≤ low) :
    exec (.fenceInFall low) s = .next (s.become (s.head.fenceInPin false).fencedBy) := by
  have he : exec (.fenceInFall low) s = execFenceInFall low s := rfl
  rw [he, execFenceInFall, run_eq, if_neg (by omega), if_neg (by omega)]

/-- A job that does not resume fails with HEAD_LOST. -/
theorem exec_tapeResumeTimeout {s : State} {p : Nat} {j : TJob} {v : HVerb} (hj : (s.head.tape.ports.at p).job = some j)
    (hr : (s.head.tape.ports.at p).link.state ≠ .run) (hv : s.head.work.verbs.find? (fun v => v.vid = j.vid) = some v) :
    let x : Port := { s.head.tape.ports.at p with job := none, held := none, cur := none }
    let h : Head := { s.head with tape := { s.head.tape with ports := s.head.tape.ports.put p x } }
    exec (.tapeResumeTimeout p) s = .next (s.become (((h.sayJob p none).answerVerb v (.fail .headLost)).settle)) := by
  have he : exec (.tapeResumeTimeout p) s = execTapeResumeTimeout p s := rfl
  rw [he, execTapeResumeTimeout, run_eq]
  simp only [hj, hr, if_false, Head.sayJob, (record'_logsOf _ _).verbs, hv]

/-- Settles O39, pin by pin and timer by timer. -/
theorem fences : Obligations.Fences := by
  refine ⟨fun s low => ⟨fun hl => ?_, fun hl hf => ?_, fun hl hf ho hs => ?_, fun hl hf hs => ⟨?_, latchFenced_fenced _ _⟩, ⟨_, rfl, rfl, rfl, rfl⟩⟩,
    fun s => ⟨fun hf hc => ?_, fun h => ?_, fun hh hp => ?_, fun c v ha hv => ?_, fun ht hi hd hs => ?_, fun hr hl hu hw hm => ?_,
      fun p j v hj hr hv => exec_tapeResumeTimeout hj hr hv, fun o x hh ha hm hs hr hx => ?_⟩⟩
  · have he : exec (.fenceInFall low) s = execFenceInFall low s := rfl
    rw [he, execFenceInFall, run_eq, if_pos hl]
    rfl
  · rw [exec_fenceInFall hl, Head.fencedBy, if_pos hf]
  · rw [exec_fenceInFall hl]
    simp only [Head.fencedBy, hf, ho, hs, Bool.not_false, decide_true, Bool.and_self, Bool.false_eq_true, if_false, if_true]
  · rw [exec_fenceInFall hl, fencedBy_latches hf hs]
  · have he : exec .fencedResetTimer s = execFencedResetTimer s := rfl
    rw [he, execFencedResetTimer, run_eq, if_pos (by rw [hf, decide_eq_true hc]; rfl)]
  · have he : exec .fencedResetTimer s = execFencedResetTimer s := rfl
    have hno : (s.head.pair.fence.fenced && decide (s.head.cfg .FNCCFG 0 39 39 = 0)) = false := by
      obtain hf | hc := h
      · rw [hf, Bool.false_and]
      · rw [decide_eq_false hc, Bool.and_false]
    rw [he, execFencedResetTimer, run_eq, if_neg (by rw [hno]; exact Bool.false_ne_true)]
    rfl
  · have he : exec .heartbeatLoss s = execHeartbeatLoss s := rfl
    rw [he, execHeartbeatLoss, run_eq]
    simp only [hh, hp, decide_true, Bool.true_or, if_true]
  · have he : exec (.fncctlForce c v) s = execFncctlForce c v s := rfl
    have hact : s.head.doFncctl c v = .ok (s.head.assertFence, .ok) := by
      rw [Head.doFncctl, if_pos (by rw [← BitVec.testBit_toNat] at hv; exact hv)]
    rw [he, execFncctlForce, write_wrote s c _ _ v _ ha _ _ hact]
  · have he : exec .takeoverSettle s = execTakeoverSettle s := rfl
    rw [he, execTakeoverSettle, run_eq, if_pos (by rw [decide_eq_true ht, hi, hd, hs]; rfl)]
  · have he : exec .remirrorDone s = execRemirrorDone s := rfl
    rw [he, execRemirrorDone, run_eq]
    dsimp only
    rw [if_pos (by rw [hr, decide_eq_true hl, hu, hw, hm]; rfl)]
  · have he : exec .activateRejoinTimeout s = execActivateRejoinTimeout s := rfl
    rw [he, execActivateRejoinTimeout, run_eq, hh]
    dsimp only
    rw [if_pos (by rw [ha, hm, decide_eq_true hs, hr]; rfl)]
    simp only [Head.setPair] at hx ⊢
    rw [hx]

/-! ## The hand-over and the cycles of a replication slot -/

/-- Settles O40: each row by the case of its hand-off or slot. -/
theorem handOver : Obligations.HandOver := by
  refine ⟨fun s o hh => ?_, fun s r x hx hs => ⟨fun hst hph => ?_, fun hst => ?_⟩⟩
  · have he : exec .handoffGiveUp s = execHandoffGiveUp s := rfl
    rw [he, execHandoffGiveUp, run_eq, hh]
    dsimp only
    refine ⟨fun hm hside hstep hall hfree hb => ⟨fun ha => ?_, fun ha => ?_⟩, fun hm hside hall hfree => ?_, fun hm hstep => ?_⟩
    · rw [if_pos hm, if_neg (not_not_intro hside), if_pos (by rw [decide_eq_true hstep, hall, hfree, hb]; rfl), ha,
        if_neg Bool.false_ne_true]
    · rw [if_pos hm, if_neg (not_not_intro hside), if_pos (by rw [decide_eq_true hstep, hall, hfree, hb]; rfl), ha, if_pos rfl]
    · rw [if_pos hm, if_pos hside, if_pos (by rw [hall, hfree]; rfl)]
    · rw [if_neg (by rw [hm]; exact Bool.false_ne_true), if_pos hstep]
  · have he : exec (.replicateCycle r) s = execReplicateCycle r s := rfl
    rw [he, execReplicateCycle, run_eq, hx]
    dsimp only
    rw [if_pos (by rw [decide_eq_true hst, decide_eq_true hph, hs]; rfl)]
  · have he : exec (.replicateRetry r) s = execReplicateRetry r s := rfl
    rw [he, execReplicateRetry, run_eq, hx]
    dsimp only
    rw [if_pos (by rw [decide_eq_true hst, hs]; rfl)]

end Sys2Proof.Machine
end

section
/-! PROOFS. The pair link: training, the power-fail warning, control frames and mirrored frames. -/

namespace Sys2Proof.Machine

/-- What goes out on the wire leaves the pair as it is. -/
theorem wire_pair (h : Head) (chan : Nat) (fs : List (Nat × PlFrame)) : (h.wire chan fs).pair = h.pair := by
  unfold Head.wire
  split
  · exact foldl_keeps (fun k => k.pair = h.pair) (fun k f => k.emit (.pl (f.2.bytes chan f.1) f.2)) (fun _ _ hk => hk) fs h rfl
  · rfl

/-- A head's side is strapped. -/
theorem Head.logsOf.side {k h : Head} (hk : k.logsOf h) : k.side = h.side := by simp only [Head.side, hk.sys]

/-! ## Training -/

/-- Training that finds lanes both ways starts the link afresh and exchanges the sides. -/
theorem exec_plTrainDone {s : State} {tx rx : BitVec 32} {peerSide peerNewest : Nat} {peerAlone : Bool} (hr : s.head.runs 16 = true)
    (hd : s.head.dark = false) (hl : s.head.pair.link.state ≠ .up) (ht : linkWidth tx ≠ 0) (hx : linkWidth rx ≠ 0) :
    let h := (s.head.setLink { Link.blank with
      state := .up, txGood := tx, rxGood := rx, txw := linkWidth tx, rxw := linkWidth rx, lastHb := s.head.now
      mir := { TxChan.blank with credit := 16384 }, bulk := { TxChan.blank with credit := 4096 } }).sendCtl (.control .side s.head.side)
    exec (.plTrainDone tx rx peerSide peerNewest peerAlone) s = .next (s.become
      (if peerSide % 2 = h.side then h.sideConflict else h.meet peerNewest peerAlone)) := by
  have he : exec (.plTrainDone tx rx peerSide peerNewest peerAlone) s = execPlTrainDone tx rx peerSide peerNewest peerAlone s := rfl
  rw [he, execPlTrainDone, run_eq]
  simp only [hr, hd, hl, ht, hx, decide_false, Bool.not_true, Bool.or_self, Bool.false_eq_true, if_false]
  rfl

/-- Without lanes one of the ways nothing starts. -/
theorem exec_plTrainDone_noLanes {s : State} {tx rx : BitVec 32} {peerSide peerNewest : Nat} {peerAlone : Bool}
    (hw : linkWidth tx = 0 ∨ linkWidth rx = 0) : exec (.plTrainDone tx rx peerSide peerNewest peerAlone) s = .next s := by
  have he : exec (.plTrainDone tx rx peerSide peerNewest peerAlone) s = execPlTrainDone tx rx peerSide peerNewest peerAlone s := rfl
  rw [he, execPlTrainDone, run_eq]
  dsimp only
  rw [if_pos]
  · rfl
  · obtain hw | hw := hw <;> simp only [hw, decide_true, Bool.or_true, Bool.true_or]

/-- A direction that has retrained, of a head that is not side 0, sends again what is not acknowledged, where a lane is left. -/
theorem exec_plRetrainDone_out {s : State} {good : BitVec 32} (hr : s.head.runs 16 = true) (hl : s.head.pair.link.state = .training) :
    let l := s.head.pair.link
    let g := l.txGood &&& good
    let h := (s.head.setLink { l with txGood := g, txw := linkWidth g, state := if linkWidth g = 0 then .down else .up }).event
      0x0706 1 0xFF 8 0 0 (linkWidth g) 0
    (linkWidth g = 0 → exec (.plRetrainDone true good) s = .next (s.become h)) ∧
    (linkWidth g ≠ 0 → s.head.side ≠ 0 → exec (.plRetrainDone true good) s =
      .next (s.become ((h.wire 1 h.pair.link.mir.unacked).wire 2 h.pair.link.bulk.unacked))) := by
  have he : exec (.plRetrainDone true good) s = execPlRetrainDone true good s := rfl
  intro l g h
  have hside : ∀ a b, ((h.wire 1 a).wire 2 b).side = s.head.side := fun a b =>
    ((wire_logsOf _ _ _).trans ((wire_logsOf _ _ _).trans ((event_logsOf _ _ _ _ _ _ _ _ _).trans (setLink_logsOf _ _)))).side
  have hrun : exec (.plRetrainDone true good) s = .next (s.become (if linkWidth g = 0 then h
      else
        (fun k : Head => if k.side = 0 && k.pair.fence.peer = .inService && !k.carries k.pair.link.txw k.pair.link.rxw then k.assertFence else k)
          ((h.wire 1 h.pair.link.mir.unacked).wire 2 h.pair.link.bulk.unacked))) := by
    rw [he, execPlRetrainDone, run_eq]
    simp only [hr, hl, ne_eq, not_true_eq_false, decide_false, Bool.not_true, Bool.or_self, Bool.false_eq_true, if_false, if_true]
    rfl
  rw [hrun]
  refine ⟨fun hw => by rw [if_pos hw], fun hw hs => ?_⟩
  rw [if_neg hw]
  dsimp only
  rw [hside, decide_eq_false hs, Bool.false_and, Bool.false_and, if_neg Bool.false_ne_true]

/-- Settles O41, by the rows of training, retraining and the power-fail warning. -/
theorem pairTraining : Obligations.PairTraining := by
  refine ⟨fun s => ⟨?_, fun tx rx ps pn pa hw => exec_plTrainDone_noLanes hw, fun hl out good => ?_, fun hr hl good => ?_⟩,
    fun s => ⟨fun low h => ?_, fun low hp hl => ⟨?_, rfl⟩, fun n hx => ?_, fun hx hp ha => ?_⟩⟩
  · intro tx rx ps pn pa hr hd hl ht hx h
    rw [exec_plTrainDone hr hd hl ht hx]
    exact ⟨fun hs => by rw [if_pos hs], fun hs => by rw [if_neg hs]⟩
  · have he : exec (.plLaneBad out good) s = execPlLaneBad out good s := rfl
    rw [he, execPlLaneBad, run_eq, if_neg (by rw [hl]; exact Bool.false_ne_true)]
  · obtain ⟨hnone, hsome⟩ := exec_plRetrainDone_out (good := good) hr hl
    refine ⟨hnone, fun hw hs => ?_⟩
    rw [hsome hw hs, wire_pair]
  · have he : exec (.pfailFall low) s = execPfailFall low s := rfl
    rw [he, execPfailFall, run_eq, if_pos]
    · rfl
    · obtain hp | hl := h
      · rw [hp]; rfl
      · rw [decide_eq_true hl, Bool.or_true]
  · have he : exec (.pfailFall low) s = execPfailFall low s := rfl
    rw [he, execPfailFall, run_eq, if_neg (by rw [hp, decide_eq_false (by omega)]; exact Bool.false_ne_true), if_pos hl]
  · have he : exec .spillExchangeTimeout s = execSpillExchangeTimeout s := rfl
    rw [he, execSpillExchangeTimeout, run_eq, hx]
  · have he : exec .spillResetTimer s = execSpillResetTimer s := rfl
    rw [he, execSpillResetTimer, run_eq, hx]
    simp only [hp, ha, Bool.not_true, Bool.false_eq_true, if_false]

/-! ## Control frames -/

/-- A control frame is taken where the link is up and its CHK holds, and discarded otherwise. -/
theorem run_plCtl {s : State} {x : PlHead} (f : Head → Head) :
    (s.head.linked = true → x.chkOk = true → s.run (fun h => h.plCtl x f) = .next (s.become (f s.head))) ∧
    (x.chkOk = false → s.run (fun h => h.plCtl x f) = .next s) := by
  refine ⟨fun hl hx => ?_, fun hx => ?_⟩
  · rw [run_eq, Head.plCtl, if_pos (by rw [hl, hx]; rfl)]
  · rw [run_eq, Head.plCtl, if_neg (by rw [hx, Bool.and_false]; exact Bool.false_ne_true)]
    rfl

/-! ## Mirrored frames -/

/-- A frame that comes next on the mirror channel takes effect and is acknowledged. -/
theorem run_plTake_mirror {s : State} {x : PlHead} {fr : PlFrame} (f : Head → Head) (hl : s.head.linked = true) (hx : x.chkOk = true)
    (hs : x.seq = s.head.pair.link.rxMir) :
    s.run (fun h => h.plTake x false fr f) = .next (s.become (((f (s.head.setLink { s.head.pair.link with
      rxMir := (s.head.pair.link.rxMir + 1) % 4294967296, nakMir := false })).plAnswer false fr.flits).flash)) := by
  rw [run_eq]
  simp only [Head.plTake, hl, hx, hs, Bool.not_true, Bool.false_eq_true, if_false, if_true, decide_true, Bool.and_self]

/-- A frame that comes next on the bulk channel takes effect and is acknowledged. -/
theorem run_plTake_bulk {s : State} {x : PlHead} {fr : PlFrame} (f : Head → Head) (hl : s.head.linked = true) (hx : x.chkOk = true)
    (hs : x.seq = s.head.pair.link.rxBulk) :
    s.run (fun h => h.plTake x true fr f) = .next (s.become (((f (s.head.setLink { s.head.pair.link with
      rxBulk := (s.head.pair.link.rxBulk + 1) % 4294967296, nakBulk := false })).plAnswer true fr.flits).flash)) := by
  rw [run_eq]
  simp only [Head.plTake, hl, hx, hs, Bool.not_true, Bool.false_eq_true, if_false, if_true, decide_true, Bool.and_self]

/-- A frame of the mirror channel that does not come next draws one NAK. -/
theorem run_plTake_nak {s : State} {x : PlHead} {fr : PlFrame} (f : Head → Head) (hl : s.head.linked = true)
    (hx : x.chkOk = false ∨ x.seq ≠ s.head.pair.link.rxMir) :
    s.run (fun h => h.plTake x false fr f) = .next (s.become (if s.head.pair.link.nakMir then s.head
      else (s.head.setLink { s.head.pair.link with nakMir := true }).sendCtl (.nak 1 s.head.pair.link.rxMir))) := by
  have hno : (x.chkOk && decide (x.seq = s.head.pair.link.rxMir)) = false := by
    obtain hx | hx := hx
    · rw [hx, Bool.false_and]
    · rw [decide_eq_false hx, Bool.and_false]
  rw [run_eq]
  simp only [Head.plTake, hl, hno, Bool.not_true, Bool.false_eq_true, if_false]

/-- A page of the copy, where the mirror channel has brought nothing newer and no command waits for its replay. -/
theorem copypage_fresh {h : Head} (o p off : Nat) (b : List Byte) (ho : h.outdated [(27, o, p)] = false)
    (hp : (h.page (o * 1048576 + p)).isSome = true) (hc : (h.pageIn o p off b).work.cmds.any (fun c => c.await) = false) :
    (if h.outdated [(27, o, p)] then h
     else
      ((upto 2).foldl (fun h s => if h.work.cmds.any (fun c => c.await && c.side = s) then h.replay s [] false else h)
        ((if (h.page (o * 1048576 + p)).isSome then h else h.pageTab o p 1 0).pageIn o p off b)).settle) = (h.pageIn o p off b).settle := by
  have hside : ∀ side, (h.pageIn o p off b).work.cmds.any (fun c => c.await && c.side = side) = false := by
    intro side
    rw [List.any_eq_false] at hc ⊢
    intro c hm ht
    exact hc c hm (Bool.and_eq_true_iff.mp ht).1
  have hnone := foldl_keeps (· = h.pageIn o p off b)
    (fun h s => if h.work.cmds.any (fun c => c.await && c.side = s) then h.replay s [] false else h)
    (fun k side hk => by rw [hk, hside, if_neg Bool.false_ne_true]) (upto 2) (h.pageIn o p off b) rfl
  rw [if_neg (by rw [ho]; exact Bool.false_ne_true), if_pos hp, hnone]

/-- Settles O42: control frames by `run_plCtl`, mirrored frames by `run_plTake_mirror`, `run_plTake_bulk` and `run_plTake_nak`. -/
theorem pairFrames : Obligations.PairFrames := by
  refine ⟨fun s x => ⟨fun hl => ?_, fun hl hx => ⟨fun n st => (run_plCtl _).1 hl hx, fun m b => (run_plCtl _).1 hl hx,
      fun q => ⟨(run_plCtl _).1 hl hx, (run_plCtl _).1 hl hx⟩, fun m b => (run_plCtl _).1 hl hx, (run_plCtl _).1 hl hx, fun a ha => ?_,
      fun a => (run_plCtl _).1 hl hx, fun a ha hs hh hw => ?_, fun a hs hr => ?_⟩,
    fun hl hx n m t => ⟨(run_plCtl _).2 hx, (run_plCtl _).2 hx, (run_plCtl _).2 hx, (run_plCtl _).2 hx, (run_plCtl _).2 hx, (run_plCtl _).2 hx⟩⟩,
    ?_⟩
  · have he : exec .plHeartbeatTx s = execPlHeartbeatTx s := rfl
    rw [he, execPlHeartbeatTx, run_eq]
    exact congrArg (fun h => Host.Outcome.next (s.become h)) (if_pos hl)
  · refine ((run_plCtl _).1 hl hx).trans ?_
    dsimp only
    rw [if_pos ha]
  · refine ((run_plCtl _).1 hl hx).trans ?_
    simp only [ha, hs, hh, hw, Bool.and_false, Option.isSome_none, Bool.false_eq_true, if_false, if_true]
  · refine ((run_plCtl _).1 hl hx).trans ?_
    dsimp only
    rw [if_pos (by rw [hs, hr]; rfl)]
  · intro s x hl l up mir bulk
    refine ⟨fun hx hs => ⟨fun o p off b hrej => ?_, fun o p use key => run_plTake_mirror _ hl hx hs, fun r => run_plTake_mirror _ hl hx hs⟩,
      fun hx hs => ⟨fun r => ⟨fun ho => ?_, fun ho => ?_⟩, fun o p off b => ⟨fun ho => ?_, fun ho hp hc => ?_⟩⟩,
      fun hx r => ⟨fun hn => ?_, fun hn => ?_⟩⟩
    · exact (run_plTake_mirror _ hl hx hs).trans (congrArg (fun k : Head => Host.Outcome.next (s.become ((k.plAnswer false _).flash)))
        (if_neg (ne_true_of_eq_false hrej)))
    · exact (run_plTake_bulk _ hl hx hs).trans (congrArg (fun k : Head => Host.Outcome.next (s.become ((k.plAnswer true _).flash)))
        (if_neg (ne_true_of_eq_false ho)))
    · exact (run_plTake_bulk _ hl hx hs).trans (congrArg (fun k : Head => Host.Outcome.next (s.become ((k.plAnswer true _).flash)))
        (if_pos ho))
    · exact (run_plTake_bulk _ hl hx hs).trans (congrArg (fun k : Head => Host.Outcome.next (s.become ((k.plAnswer true _).flash)))
        (if_pos ho))
    · exact (run_plTake_bulk _ hl hx hs).trans (congrArg (fun k : Head => Host.Outcome.next (s.become ((k.plAnswer true _).flash)))
        (copypage_fresh o p off b ho hp hc))
    · refine (run_plTake_nak _ hl hx).trans ?_
      rw [if_pos hn]
      rfl
    · refine (run_plTake_nak _ hl hx).trans ?_
      rw [if_neg (by rw [hn]; exact Bool.false_ne_true)]

end Sys2Proof.Machine
end

section
/-! PROOFS. Reset: the state right after it, its sources, bring-up, the reset of an island, supervision. -/

namespace Sys2Proof.Machine

/-! ## Right after reset -/

/-- Right after reset MI alone runs. -/
theorem reset_runs (i : Nat) : State.reset.head.runs i = true ↔ i = 0 := by
  refine ⟨fun h => ?_, fun h => by rw [h]; decide +kernel⟩
  have hlen : State.reset.head.sys.islands.length = 22 := by decide +kernel
  by_contra hi
  by_cases hl : i < 22
  · have hall : ∀ i : Fin 22, i.val ≠ 0 → State.reset.head.runs i.val = false := by decide +kernel
    rw [hall ⟨i, hl⟩ hi] at h
    exact Bool.false_ne_true h
  · rw [Head.runs, Head.island, List.getElem?_eq_none (by rw [hlen]; omega)] at h
    exact absurd h (by decide)

/-- Settles O44: the fields as the blank head has them, the registers by their reset values. -/
theorem resetState : Obligations.ResetState := by
  refine ⟨rfl, rfl, rfl, reset_runs, rfl, rfl, fun t r => ?_, fun t n hn => ?_, fun t => rfl, fun n => rfl, rfl, rfl, rfl, rfl, rfl, rfl, ?_⟩
  · show (if r = 0 then (0 : Word) else 0) = 0
    exact ite_self _
  · have hz : ¬ n = 0 := Nat.pos_iff_ne_zero.mp hn
    show (decide (n = 0) || (0#8).getLsbD n) = false
    rw [decide_eq_false hz, BitVec.getLsbD_zero, Bool.or_self]
  · decide +kernel

/-! ## Sources of reset -/

theorem pulseActs_long (h : Head) {low least acts : Nat} (hl : acts ≤ low) : h.pulseActs low least acts = true := by
  rw [Head.pulseActs, decide_eq_true hl, Bool.true_or]

theorem pulseActs_short (h : Head) {low least acts : Nat} (hl : low < least) (ha : low < acts) : h.pulseActs low least acts = false := by
  rw [Head.pulseActs, decide_eq_false (Nat.not_le.mpr ha), decide_eq_false (Nat.not_le.mpr hl)]
  rfl

/-- The first reset wipes the head, records its cause and counts a boot. -/
theorem assertReset_first {h : Head} (src : RSrc) (ha : h.sys.rst.active = []) : h.assertReset src =
    (h.wipe (decide (src = .power))).setRst { h.sys.rst with
      active := [src], cause := src.cause, bootn := (h.sys.rst.bootn + 1) % 2 ^ 32
      trimv := false, trimLd := false, bflt := false, image := false, ttOn := false, beat := false, kicked := false
      fails := if src = .power then 0 else h.sys.rst.fails, after := none, pend := [] } := by
  simp only [Head.assertReset, ha, List.contains_nil, List.isEmpty_nil, Bool.true_or, Bool.false_eq_true, if_false, if_true, List.nil_append,
    decide_eq_true_eq]

/-- A reset that overlaps another, and is not the power's, leaves the head as it is. -/
theorem assertReset_overlaps {h : Head} {src : RSrc} (hp : src ≠ .power) (hc : h.sys.rst.active.contains src = false)
    (ha : h.sys.rst.active ≠ []) : h.assertReset src = h.setRst { h.sys.rst with
      active := h.sys.rst.active ++ [src]
      trimv := false, trimLd := false, bflt := false, image := false, ttOn := false, beat := false, kicked := false, after := none, pend := [] } := by
  have he : h.sys.rst.active.isEmpty = false := by rw [List.isEmpty_eq_false_iff]; exact ha
  simp only [Head.assertReset, hc, hp, he, decide_false, Bool.false_and, Bool.or_self, Bool.false_eq_true, if_false]

theorem updIsland_core (h : Head) (i : Nat) (f : Island → Island) : (h.updIsland i f).core = h.core := by
  unfold Head.updIsland
  split <;> rfl

theorem updIsland_rst (h : Head) (i : Nat) (f : Island → Island) : (h.updIsland i f).sys.rst = h.sys.rst := by
  unfold Head.updIsland
  split <;> rfl

/-- The last source released lets MI go with the straps sampled and the trims to load. -/
theorem releaseReset_last {h : Head} {src : RSrc} (ha : h.sys.rst.active = [src]) :
    h.releaseReset src = (h.setRst { h.sys.rst with active := [] }).releaseMI := by
  simp only [Head.releaseReset, ha, List.contains_cons, beq_self_eq_true, Bool.true_or, Bool.not_true, Bool.false_eq_true, if_false, ne_eq,
    decide_not, List.filter_cons, decide_true, List.filter_nil, List.isEmpty_nil, if_true]

theorem releaseReset_core (h : Head) (src : RSrc) : (h.releaseReset src).core = h.core := by
  unfold Head.releaseReset
  extract_lets r left k
  split
  · rfl
  · split
    · exact updIsland_core _ _ _
    · rfl

/-- Settles O45: the pins and timers by their rows, the reset itself by `assertReset_first`, `assertReset_overlaps` and `releaseReset_last`. -/
theorem resetSources : Obligations.ResetSources := by
  refine ⟨fun s => ⟨fun low hl => ?_, fun low hl => ⟨?_, ?_⟩, fun low hl => ?_, rfl, fun hp => ?_, fun ht hb hw ha => ?_, fun hw => ?_,
      fun c v ha => write_wrote s c _ _ v _ ha _ _ rfl, rfl, fun hh => ?_⟩,
    fun h src => ⟨fun ha => ?_, fun hp hc ha => ?_, fun ha => ?_, releaseReset_core h src⟩⟩
  · have he : exec (.pwrOkFall low) s = execPwrOkFall low s := rfl
    rw [he, execPwrOkFall, run_eq, pulseActs_long _ hl]
    rfl
  · have he : exec (.pwrOkFall low) s = execPwrOkFall low s := rfl
    rw [he, execPwrOkFall, run_eq, pulseActs_short _ hl (by omega)]
    rfl
  · have he : exec (.rstLFall low) s = execRstLFall low s := rfl
    rw [he, execRstLFall, run_eq, pulseActs_short _ hl (by omega)]
    rfl
  · have he : exec (.rstLFall low) s = execRstLFall low s := rfl
    rw [he, execRstLFall, run_eq, pulseActs_long _ hl]
    rfl
  · have he : exec .pwrOkRise s = execPwrOkRise s := rfl
    rw [he, execPwrOkRise, run_eq, if_neg (ne_true_of_eq_false hp)]
    rfl
  · have he : exec .watchdogExpire s = execWatchdogExpire s := rfl
    rw [he, execWatchdogExpire, run_eq]
    dsimp only
    rw [ht, hb, hw, ha]
    rfl
  · have he : exec .watchdogExpire s = execWatchdogExpire s := rfl
    rw [he, execWatchdogExpire, run_eq]
    dsimp only
    rw [decide_eq_true hw, Bool.or_true, Bool.true_or, if_pos rfl]
    rfl
  · have he : exec .thermalTripRelease s = execThermalTripRelease s := rfl
    rw [he, execThermalTripRelease, run_eq, if_neg (ne_true_of_eq_false hh)]
  · rw [assertReset_first src ha]
    exact ⟨rfl, rfl, rfl, rfl, rfl, rfl, rfl, rfl⟩
  · rw [assertReset_overlaps hp hc ha]
    exact ⟨rfl, rfl, rfl⟩
  · rw [releaseReset_last ha]
    refine ⟨?_, rfl, ?_⟩
    · show ((h.setRst { h.sys.rst with active := [] }).updIsland 0 _).sys.rst.active = []
      rw [updIsland_rst]
      rfl
    · rfl

end Sys2Proof.Machine
end

section
/-! PROOFS. Bring-up, the reset of an island, supervision. -/

namespace Sys2Proof.Machine

/-! ## Bring-up -/

/-- The head with an island running; a flash island finds its dies. -/
def Head.islandUp (h : Head) (i : Nat) (dies : List DieReport) : Head :=
  if 17 ≤ i ∧ i ≤ 20 then (h.updIsland i (fun x => { x with st := .running })).initPorts i dies
  else h.updIsland i (fun x => { x with st := .running })

/-- Where PSTORE has failed, the recorder of island 1 is volatile. -/
def Head.recorderUp (h : Head) (i : Nat) : Head := if i = 1 && h.core.psFail then h.recorderVolatile 1 else h

/-- The tape island trains its links. -/
def Head.linksUp (h : Head) (i : Nat) : Head := if i = 21 then (h.tryTrain 0).tryTrain 1 else h

/-- An island that becomes ready. -/
theorem exec_islandReady {s : State} {i : Nat} {dies : List DieReport} (hi : s.head.island i = .releasing) :
    exec (.islandReady i dies) s = .next (s.become
      (((((s.head.islandUp i dies).recorderUp i).linksUp i).releaseNext.takeUp).settle)) := by
  have he : exec (.islandReady i dies) s = execIslandReady i dies s := rfl
  rw [he, execIslandReady, run_eq, hi]
  rfl

/-- A boot image from a source that the straps allow comes up, or is a BOOT_FAULT. -/
theorem exec_bootImageReady {s : State} {src : Nat} {im : BootImage} (ha : s.head.sys.rst.active = []) (hi : s.head.sys.rst.image = false)
    (ht : s.head.sys.rst.tflt = false) (h1 : s.head.runs 1 = true) (h2 : s.head.runs 2 = true) (hs : s.head.bootSource src = true) :
    exec (.bootImageReady src im) s = .next (s.become
      (if im.pass then (if s.head.sys.rst.straps / 8 % 4 = 3 then s.head.fallBack else s.head).imageUp src im
       else (if s.head.sys.rst.straps / 8 % 4 = 3 then s.head.fallBack else s.head).bootFault)) := by
  have he : exec (.bootImageReady src im) s = execBootImageReady src im s := rfl
  rw [he, execBootImageReady, run_eq]
  dsimp only
  rw [if_neg (by rw [ha, hi, ht, h1, h2, hs, Bool.not_true, Bool.and_false]; exact Bool.false_ne_true)]

/-- Settles O46, row by row. -/
theorem bringUp : Obligations.BringUp := by
  intro s
  refine ⟨fun hl ha => ⟨?_, fun hf => ?_, fun hf => ?_⟩, fun i dies hi h1 h16 hps => ?_, fun i dies hi h17 h20 => ?_, fun dies hi => ?_,
    fun src im ha hi ht h1 h2 hs => ?_, fun ha ht hb hl ho hr hp h1 => ?_⟩
  · have he : exec (.trimLoadDone true) s = execTrimLoadDone true s := rfl
    rw [he, execTrimLoadDone, run_eq]
    dsimp only
    rw [if_neg (by rw [hl, ha]; exact Bool.false_ne_true), if_pos rfl]
  · have he : exec (.trimLoadDone false) s = execTrimLoadDone false s := rfl
    have hn : min 3 (s.head.sys.rst.fails + 1) = s.head.sys.rst.fails + 1 := by omega
    rw [he, execTrimLoadDone, run_eq]
    dsimp only
    rw [if_neg (by rw [hl, ha]; exact Bool.false_ne_true), if_neg Bool.false_ne_true, hn, if_pos (by omega)]
  · have he : exec (.trimLoadDone false) s = execTrimLoadDone false s := rfl
    have hn : min 3 (s.head.sys.rst.fails + 1) = 3 := by omega
    rw [he, execTrimLoadDone, run_eq]
    dsimp only
    rw [if_neg (by rw [hl, ha]; exact Bool.false_ne_true), if_neg Bool.false_ne_true, hn, if_neg (by decide)]
  · have hvol : (decide (i = 1) && (s.head.updIsland i (fun x => { x with st := .running })).core.psFail) = false := by
      rw [updIsland_core]
      by_cases h : i = 1
      · rw [hps h, Bool.and_false]
      · rw [decide_eq_false h, Bool.false_and]
    rw [exec_islandReady hi, Head.islandUp, if_neg (by omega), Head.recorderUp, if_neg (ne_true_of_eq_false hvol), Head.linksUp, if_neg (by omega)]
  · have hno : decide (i = 1) = false := decide_eq_false (by omega)
    rw [exec_islandReady hi, Head.islandUp, if_pos ⟨h17, h20⟩, Head.recorderUp, hno, Bool.false_and, if_neg Bool.false_ne_true, Head.linksUp,
      if_neg (by omega)]
  · rw [exec_islandReady hi]
    rfl
  · intro h
    rw [exec_bootImageReady ha hi ht h1 h2 hs]
    exact ⟨fun hp => by rw [if_pos hp], fun hp => by rw [if_neg (ne_true_of_eq_false hp)]⟩
  · have he : exec .pairwaitExpire s = execPairwaitExpire s := rfl
    rw [he, execPairwaitExpire, run_eq]
    dsimp only
    rw [if_neg (by rw [ha, ht, hb, hl, ho, hr, decide_eq_false hp]; decide), if_pos h1]

/-! ## The reset of an island -/

/-- A write of ISRST that passes its checks and names an island that may be reset. -/
theorem write_isrst {s : State} {c : Caller} {v : Word} {k : Head} (ha : s.head.accepts c Reg.ISRST.row 0 v = true)
    (hk : s.head.doIsrst c v = .ok (k, .ok)) :
    exec (.isrstQuiesce c v) s = .next (s.wrote k c Reg.ISRST.row 0 .ok) ∧ exec (.isrstReset c v) s = .next (s.wrote k c Reg.ISRST.row 0 .ok) ∧
      exec (.isrstQuiesceReset c v) s = .next (s.wrote k c Reg.ISRST.row 0 .ok) :=
  have h := write_wrote s c Reg.ISRST.row 0 v (fun h => h.doIsrst c v) ha k .ok hk
  ⟨h, h, h⟩

/-- What a write of ISRST does, by its OP. -/
theorem doIsrst_eq {h : Head} {c : Caller} {v : Word} (hr : h.islandRefused (bits v.toNat 4 0) = false) :
    (bits v.toNat 63 62 = 1 → h.doIsrst c v = .ok (h.quiesce (bits v.toNat 4 0) false, .ok)) ∧
    (bits v.toNat 63 62 = 2 → h.doIsrst c v = .ok (h.islandReset (bits v.toNat 4 0), .ok)) ∧
    (bits v.toNat 63 62 = 3 → h.island (bits v.toNat 4 0) = .quiesced → h.doIsrst c v = .ok (h.islandReset (bits v.toNat 4 0), .ok)) ∧
    (bits v.toNat 63 62 = 3 → h.island (bits v.toNat 4 0) ≠ .quiesced → h.doIsrst c v = .ok (h.quiesce (bits v.toNat 4 0) true, .ok)) := by
  refine ⟨fun ho => ?_, fun ho => ?_, fun ho hq => ?_, fun ho hq => ?_⟩
  · simp only [Head.doIsrst, ho, hr, one_ne_zero, Bool.false_eq_true, if_false]
  · simp only [Head.doIsrst, ho, hr, OfNat.ofNat_ne_zero, Bool.false_eq_true, if_false]
  · simp only [Head.doIsrst, ho, hr, hq, OfNat.ofNat_ne_zero, Bool.false_eq_true, if_false]
  · simp only [Head.doIsrst, ho, hr, OfNat.ofNat_ne_zero, Bool.false_eq_true, if_false]

/-- A quiesce that ends on an island without dies. -/
theorem exec_quiesceDone {s : State} {n : Nat} {x : Island} (hx : s.head.sys.islands[n]? = some x) (hq : s.head.island n = .quiescing)
    (hn : n < 17 ∨ 20 < n) (hc : s.head.crossingBusy n = false) (hi : s.head.islandQuiet n = true) :
    exec (.quiesceDone n) s = .next (s.become (if x.rstAfter then (s.head.suspendIsland n false).islandReset n
      else s.head.updIsland n (fun x => { x with st := .quiesced }))) := by
  have he : exec (.quiesceDone n) s = execQuiesceDone n s := rfl
  have hno : ¬ (17 ≤ n ∧ n ≤ 20) := by omega
  rw [he, execQuiesceDone, run_eq, hq]
  simp only [hc, hi, hx, hno, Bool.not_true, Bool.or_self, Bool.false_eq_true, if_false]

/-- Settles O47, row by row. -/
theorem islandResets : Obligations.IslandResets := by
  intro s c v i
  refine ⟨fun ha hr => ⟨fun ho => (write_isrst ha ((doIsrst_eq hr).1 ho)).1, fun ho => (write_isrst ha ((doIsrst_eq hr).2.1 ho)).2.1,
      fun ho hq => (write_isrst ha ((doIsrst_eq hr).2.2.1 ho hq)).2.2, fun ho hq => (write_isrst ha ((doIsrst_eq hr).2.2.2 ho hq)).2.2⟩,
    fun n x hx hq hn hc hi => ⟨fun hr => ?_, fun hr => ?_⟩, fun n hq hn => ?_⟩
  · rw [exec_quiesceDone hx hq hn hc hi, if_neg (ne_true_of_eq_false hr)]
  · rw [exec_quiesceDone hx hq hn hc hi, if_pos hr]
  · have he : exec (.quiesceTimeout n) s = execQuiesceTimeout n s := rfl
    rw [he, execQuiesceTimeout, run_eq, hq]
    dsimp only
    rw [if_neg hn]

/-! ## What an event on the connections leaves alone -/

theorem sendEth_sys (h : Head) (f : EthOut) : (h.sendEth f).sys = h.sys := by
  unfold Head.sendEth
  extract_lets ups free
  split
  · rfl
  · split <;> rfl

theorem sendMsg_sys (h : Head) (c : Conn) (psn path : Nat) (retx : Bool) (dport : Nat) (m : CptMsg) :
    (h.sendMsg c psn path retx dport m).sys = h.sys := by
  refine (sendEth_sys _ _).trans ?_
  split <;> rfl

theorem reliable_sys (h : Head) (n : Nat) (m : CptMsg) : (h.reliable' n m).sys = h.sys := by
  unfold Head.reliable' Head.reliable
  dsimp only
  split
  · rfl
  · dsimp only
    split
    · exact sendMsg_sys _ _ _ _ _ _ _
    · rfl

theorem deviceEvent_sys (h : Head) (code detail arg : Nat) : (h.deviceEvent code detail arg).sys = h.sys := by
  unfold Head.deviceEvent
  extract_lets k
  have hk : k.sys = h.sys := (event_logsOf _ _ _ _ _ _ _ _ _).sys
  refine foldl_keeps (fun k => k.sys = h.sys) _ ?_ _ k hk
  exact fun k c h => (reliable_sys k _ _).trans h

theorem hostLinksDown_sys (h : Head) (n : Nat) (links : Nat → Bool) : (h.hostLinksDown n links).sys = h.sys := by
  unfold Head.hostLinksDown
  refine foldl_keeps (fun k => k.sys = h.sys) _ ?_ _ h rfl
  intro k l hk
  dsimp only
  split
  · exact (deviceEvent_sys _ _ _ _).trans hk
  · exact hk

/-! ## Supervision -/

/-- The head with references noted as lost. -/
def Head.refsLost (h : Head) (refs : BitVec 5) : Head := h.setPower { h.sys.power with loss := h.sys.power.loss ||| refs }

/-- The head that has kept a sample of its temperatures. -/
def Head.tempKept (h : Head) (tj hbm : Nat) : Head :=
  h.setPower { h.sys.power with
    tj := min 255 (max tj hbm), tjpeak := max h.sys.power.tjpeak (min 255 (max tj hbm))
    thr := decide (h.cfg .THERMCFG 0 63 56 ≤ min 255 (max tj hbm)) || decide (95 ≤ hbm), dblRef := decide (85 < hbm) }

/-- A sample of a head that is not held is kept, and above the limit it is critical. -/
theorem exec_thermalSample {s : State} {tj hbm : Nat} (hh : s.head.sys.power.held = false) (ha : s.head.sys.rst.active = []) :
    exec (.thermalSample tj hbm) s = .next (s.become
      (if s.head.cfg .THERMCFG 0 55 48 ≤ min 255 (max tj hbm) || decide (100 ≤ hbm) then (s.head.tempKept tj hbm).critical
       else s.head.tempKept tj hbm)) := by
  have he : exec (.thermalSample tj hbm) s = execThermalSample tj hbm s := rfl
  rw [he, execThermalSample, run_eq]
  dsimp only
  rw [if_neg (ne_true_of_eq_false hh), if_neg (by rw [ha]; exact Bool.false_ne_true)]
  rfl

/-- The head whose links on lost references are down. -/
def Head.refsDown (h : Head) (refs : BitVec 5) : Head :=
  let h := h.refsLost refs
  let h := if refs.getLsbD 0 then h.hostLinksDown 32 (fun l => decide (l < 16)) else h
  let h := if refs.getLsbD 1 then h.hostLinksDown 32 (fun l => decide (16 ≤ l)) else h
  let h := if refs.getLsbD 2 then h.pairLinkDown else h
  if refs.getLsbD 3 then (h.linkDown 0).linkDown 1 else h

/-- The loss of references takes their links down; it is FATAL where the head runs on one of them. -/
theorem exec_clockLoss (s : State) (refs : BitVec 5) : exec (.clockLoss refs) s = .next (s.become
    (if !(s.head.refsDown refs).sys.rst.active.isEmpty then s.head.refsDown refs
     else if (if s.head.sys.rst.straps / 2 % 4 = 1 then refs.getLsbD 0 else refs.getLsbD 4) then
       (s.head.refsDown refs).tick.headFatal 0 0 (Config.freeNat (s.head.refsDown refs).fresh)
     else s.head.refsDown refs)) := rfl

/-- A head in reset, or one that does not run on what is lost, goes on. -/
theorem exec_clockLoss_goes {s : State} {refs : BitVec 5} (hno : (s.head.refsDown refs).sys.rst.active ≠ [] ∨
      (if s.head.sys.rst.straps / 2 % 4 = 1 then refs.getLsbD 0 else refs.getLsbD 4) = false) :
    exec (.clockLoss refs) s = .next (s.become (s.head.refsDown refs)) := by
  rw [exec_clockLoss]
  obtain ha | hc := hno
  · rw [if_pos (by rw [Bool.not_eq_true', List.isEmpty_eq_false_iff]; exact ha)]
  · rw [hc, if_neg Bool.false_ne_true, ite_self]

/-- The regulator answers, without a fault: the transfer goes out and its result is kept. -/
theorem cvr_acks {h : Head} (code arg : Nat) (done : Power → Power) (hf : h.sys.power.fault = false) :
    h.cvr code arg true done = (h.emit (.cvr code arg)).setPower (done { h.sys.power with fails := 0 }) := by
  simp only [Head.cvr, hf, Bool.false_eq_true, if_false, if_true]

/-- Settles O48, row by row. -/
theorem supervision : Obligations.Supervision := by
  refine ⟨fun s => ⟨?_, fun tj hbm hh ht => ?_, ⟨fun hr => ?_, ?_, ?_, ?_, fun hs ha => ?_⟩, fun hr hf stat => ?_, fun hr hf vid below iout hv => ?_,
      fun hr hf vid acks iout => ⟨?_, ?_⟩, rfl⟩,
    fun s => ⟨fun ha hr => ?_, fun ho hk hf ht hb => ?_, fun h => ?_⟩⟩
  · intro tj hbm hh ha t h
    rw [exec_thermalSample hh ha]
    refine ⟨fun ht hb => ?_, fun hc => ?_⟩
    · rw [decide_eq_false (Nat.not_le.mpr ht), decide_eq_false (Nat.not_le.mpr hb), Bool.or_self, if_neg Bool.false_ne_true]
      rfl
    · rw [if_pos]
      · rfl
      obtain hc | hc := hc
      · rw [decide_eq_true hc, Bool.true_or]
      · rw [decide_eq_true hc, Bool.or_true]
  · have he : exec (.thermalSample tj hbm) s = execThermalSample tj hbm s := rfl
    rw [he, execThermalSample, run_eq]
    dsimp only
    rw [if_pos hh, if_pos ht]
  · refine exec_clockLoss_goes ?_
    obtain hs | ha := hr
    · exact .inr (if_neg hs)
    · refine .inl ?_
      show ((s.head.refsLost 1#5).hostLinksDown 32 (fun l => decide (l < 16))).sys.rst.active ≠ []
      rw [hostLinksDown_sys]
      exact ha
  · exact exec_clockLoss_goes (.inr (ite_self _))
  · exact exec_clockLoss_goes (.inr (ite_self _))
  · exact exec_clockLoss_goes (.inr (ite_self _))
  · refine ⟨Config.freeNat s.head.fresh, ?_⟩
    rw [exec_clockLoss, if_neg (by rw [show (s.head.refsDown 16#5).sys.rst.active = [] from ha]; exact Bool.false_ne_true), if_neg hs]
    rfl
  · intro p
    have he : exec (.cvrAlert true stat) s = execCvrAlert true stat s := rfl
    rw [he, execCvrAlert, run_eq]
    dsimp only
    rw [if_neg (by rw [hr]; exact Bool.false_ne_true), cvr_acks 5 0, cvr_acks 7 0, if_pos]
    · rfl
    · show (!s.head.sys.power.fault && true) = true
      rw [hf]
      rfl
    · exact hf
    · exact hf
  · have he : exec (.cvrVidStep vid below true iout) s = execCvrVidStep vid below true iout s := rfl
    rw [he, execCvrVidStep, run_eq]
    dsimp only
    rw [if_neg (by rw [hr]; exact Bool.false_ne_true), if_neg (ne_true_of_eq_false hf), if_pos hv, cvr_acks 4 0 _ hf]
  · have he : exec (.cvrVidStep vid false acks iout) s = execCvrVidStep vid false acks iout s := rfl
    rw [he, execCvrVidStep, run_eq, if_neg (by rw [hr]; exact Bool.false_ne_true), if_pos hf]
    rfl
  · have he : exec (.cvrVidStep vid true acks iout) s = execCvrVidStep vid true acks iout s := rfl
    rw [he, execCvrVidStep, run_eq, if_neg (by rw [hr]; exact Bool.false_ne_true), if_pos hf]
    exact ⟨_, rfl⟩
  · have he : exec .telltaleEnable s = execTelltaleEnable s := rfl
    rw [he, execTelltaleEnable, run_eq, if_pos (by rw [ha, hr]; rfl)]
  · have he : exec .telltaleBeat s = execTelltaleBeat s := rfl
    rw [he, execTelltaleBeat, run_eq]
    dsimp only
    rw [if_pos (by rw [ho, hk, hf, ht, hb]; rfl)]
  · have he : exec .telltaleBeat s = execTelltaleBeat s := rfl
    rw [he, execTelltaleBeat, run_eq]
    dsimp only
    rw [if_neg]
    · rfl
    · obtain h | h | h | h := h <;>
        simp only [h, Bool.and_false, Bool.false_and, Bool.not_true, Bool.false_eq_true, not_false_eq_true]

end Sys2Proof.Machine
end

section
/-! PROOFS. Tape: the frames of a transport link, servo, movement and the states of the link. -/

namespace Sys2Proof.Machine

/-! ## Ports -/

/-- A port reads as what was written to it last. -/
@[simp] theorem port_setPort (h : Head) (p : Nat) (x : Port) : (h.setPort p x).port p = x := by
  unfold Head.setPort Head.port Two.put Two.at
  by_cases hp : p = 0 <;> simp only [hp, if_true, if_false]

/-- The last write of a port is the one that counts. -/
@[simp] theorem setPort_setPort (h : Head) (p : Nat) (x y : Port) : (h.setPort p x).setPort p y = h.setPort p y := by
  unfold Head.setPort Two.put
  by_cases hp : p = 0 <;> simp only [hp, if_true, if_false]

/-! ## Frames -/

/-- The head that has taken a frame of a type and a number. -/
def Head.tlTook (h : Head) (p typ seq : Nat) : Head :=
  h.setTl p { (h.port p).link with rxSeq := place 0 (h.port p).link.rxSeq typ ((seq + 1) % 65536) }

theorem tlSeen_ok {h : Head} {p typ seq : Nat} (hl : (h.port p).link.state = .run ∨ (h.port p).link.state = .config) :
    h.tlSeen p typ seq true = (h.tlTook p typ seq, true) := by
  have hs : (decide ((h.port p).link.state = .run) || decide ((h.port p).link.state = .config)) = true := by
    rw [Bool.or_eq_true, decide_eq_true_eq, decide_eq_true_eq]; exact hl
  simp only [Head.tlSeen, hs, if_true]
  rfl

theorem tlSeen_bad {h : Head} {p typ seq : Nat} (hl : (h.port p).link.state = .run ∨ (h.port p).link.state = .config) :
    h.tlSeen p typ seq false = (h.tcount p 11 1, false) := by
  have hs : (decide ((h.port p).link.state = .run) || decide ((h.port p).link.state = .config)) = true := by
    rw [Bool.or_eq_true, decide_eq_true_eq, decide_eq_true_eq]; exact hl
  simp only [Head.tlSeen, hs, Bool.false_eq_true, if_true, if_false]

theorem tlSeen_off {h : Head} {p typ seq : Nat} {ok : Bool} (hr : (h.port p).link.state ≠ .run) (hc : (h.port p).link.state ≠ .config) :
    h.tlSeen p typ seq ok = (h, false) := by
  simp only [Head.tlSeen, hr, hc, decide_false, Bool.or_self, Bool.false_eq_true, if_false]

/-- A STATUS frame that passes, on a port without a job. -/
theorem exec_tlStatusRx_idle {s : State} {p seq : Nat} {st : TfeStatus} (hl : (s.head.port p).link.state = .run ∨ (s.head.port p).link.state = .config)
    (hj : (((s.head.tlTook p 0x12 seq).tfeStatus p st).port p).job = none) :
    exec (.tlStatusRx p seq true st) s = .next (s.become ((((s.head.tlTook p 0x12 seq).tfeStatus p st).kick p).settle)) := by
  have he : exec (.tlStatusRx p seq true st) s = execTlStatusRx p seq true st s := rfl
  rw [he, execTlStatusRx, run_eq, tlSeen_ok hl]
  simp only [hj, Bool.not_true, Bool.false_and, Bool.false_eq_true, if_false]

/-- A SAMPLE frame that passes with the number expected, on a port that neither writes nor reads. -/
theorem exec_tlSampleRx_idle {s : State} {p : Nat} {f : SampleFrame} (hl : (s.head.port p).link.state = .run ∨ (s.head.port p).link.state = .config)
    (hc : f.chkOk = true) (hn : f.lenOk = true) (hs : f.seq = look 0 (s.head.port p).link.rxSeq 0x11)
    (hw : (((s.head.tlTook p 0x11 f.seq).tfeStatus p f.status).port p).state ≠ .writing)
    (hr : (((s.head.tlTook p 0x11 f.seq).tfeStatus p f.status).port p).state ≠ .reading) :
    exec (.tlSampleRx p f) s = .next (s.become ((((s.head.tlTook p 0x11 f.seq).tfeStatus p f.status).setPort p
      ((((s.head.tlTook p 0x11 f.seq).tfeStatus p f.status).port p).servoIn f.servo0 f.servo1)).settle)) := by
  have he : exec (.tlSampleRx p f) s = execTlSampleRx p f s := rfl
  have hgap : (f.seq + 65536 - look 0 (s.head.port p).link.rxSeq 0x11) % 65536 = 0 := by rw [← hs]; omega
  rw [he, execTlSampleRx, run_eq]
  simp only [Head.tlSample, hgap, hc, hn, Bool.and_self, tlSeen_ok hl, Bool.not_true, Bool.false_eq_true, if_false, hw, hr, decide_false,
    Bool.or_self, Nat.mul_zero, Nat.add_zero, port_setPort, setPort_setPort]

/-- A SAMPLE frame that fails its check, or comes on a link that takes none. -/
theorem exec_tlSampleRx_not {s : State} {p : Nat} {f : SampleFrame} {k : Head}
    (hk : s.head.tlSeen p 0x11 f.seq (f.chkOk && f.lenOk) = (k, false)) : exec (.tlSampleRx p f) s = .next (s.become k) := by
  have he : exec (.tlSampleRx p f) s = execTlSampleRx p f s := rfl
  rw [he, execTlSampleRx, run_eq]
  simp only [Head.tlSample, hk, Bool.not_false, if_true]

/-- Settles O49: what each frame does, by `tlSeen_ok`, `tlSeen_bad` and `tlSeen_off`. -/
theorem tapeFrames : Obligations.TapeFrames := by
  intro s p seq v st f l next
  have hreg : ∀ ok, exec (.tlRegrspRx p seq ok v) s = execTlRegrspRx p seq ok v s := fun _ => rfl
  have hstat : ∀ ok, exec (.tlStatusRx p seq ok st) s = execTlStatusRx p seq ok st s := fun _ => rfl
  refine ⟨fun hl => ⟨?_, ?_, ?_, fun hj => exec_tlStatusRx_idle hl hj, fun hb => ?_, ?_⟩, fun hr hc => ⟨?_, ?_, ?_⟩⟩
  · rw [hreg, execTlRegrspRx, run_eq, tlSeen_ok hl]
    rfl
  · rw [hreg, execTlRegrspRx, run_eq, tlSeen_bad hl]
    rfl
  · rw [hstat, execTlStatusRx, run_eq, tlSeen_bad hl]
    rfl
  · have hno : (f.chkOk && f.lenOk) = false := by
      obtain h | h := hb
      · rw [h, Bool.false_and]
      · rw [h, Bool.and_false]
    exact exec_tlSampleRx_not (by rw [hno, tlSeen_bad hl])
  · intro hc hn hs h x hw hr
    rw [exec_tlSampleRx_idle hl hc hn hs hw hr, port_setPort, setPort_setPort]
    rfl
  · rw [hreg, execTlRegrspRx, run_eq, tlSeen_off hr hc]
    rfl
  · rw [hstat, execTlStatusRx, run_eq, tlSeen_off hr hc]
    rfl
  · exact exec_tlSampleRx_not (tlSeen_off hr hc)

/-! ## Servo and movement -/

/-- No servo signal on either channel: the position is off, and the port is inhibited. -/
theorem pesUpdate_off {h : Head} {p : Nat} (hn : (h.port p).state ≠ .noCartridge) (hi : (h.port p).state ≠ .idle)
    (h0 : (h.port p).pesOf (h.port p).servo.smp0 = none) (h1 : (h.port p).pesOf (h.port p).servo.smp1 = none) :
    h.pesUpdate p = (h.setServo p { (h.port p).servo with off := true, okAt := none }).inhibit p 3 := by
  simp only [Head.pesUpdate, hn, hi, h0, h1, decide_false, Bool.or_self, Bool.false_eq_true, if_false, Option.isNone_none, Bool.and_self,
    Bool.not_true, Bool.false_and, Bool.true_or, if_true, Option.getD_none, add_sub_cancel_right]

/-- A data set that may start starts. -/
theorem datasetStart_starts {h : Head} {p : Nat} {k : Head} {j : TJob} {d : DSet} {rest : List DSet} (hk : (h.fillBuf p).closeData p = k)
    (hj : (k.port p).job = some j) (hc : (k.port p).cur = none) (hb : (k.port p).buf = d :: rest) (hs : (k.port p).state = .writing)
    (hw : j.writing = true) (hl : (k.port p).link.state = .run) (ht : k.tapeHold = false) (hm : (k.port p).mayStart k.now = true)
    (hd : (k.port p).distOf (k.port p).wrap (k.port p).servo.lpos + 330 ≤ (k.port p).wrapLen) : h.datasetStart p = k.startSet p d rest := by
  simp only [Head.datasetStart, hk, hc, hj, hb, hs, hw, hl, ht, hm, Nat.not_lt.mpr hd, ne_eq, not_true_eq_false, decide_false, Bool.not_true,
    Bool.or_self, Option.isSome_none, Option.isNone_none, Bool.and_true, Bool.false_and, Bool.false_eq_true, if_false]

/-- Without a job nothing starts. -/
theorem datasetStart_noJob {h : Head} {p : Nat} {k : Head} (hk : (h.fillBuf p).closeData p = k) (hj : (k.port p).job = none)
    (hc : (k.port p).cur = none) : h.datasetStart p = k := by
  simp only [Head.datasetStart, hk, hc, hj, Bool.false_eq_true, if_false]

/-! ## The states of a link -/

theorem linkDown_off {h : Head} {p : Nat} (hl : (h.port p).link.state = .down ∨ (h.port p).link.state = .fault) : h.linkDown p = h := by
  have hs : (decide ((h.port p).link.state = .down) || decide ((h.port p).link.state = .fault)) = true := by
    rw [Bool.or_eq_true, decide_eq_true_eq, decide_eq_true_eq]; exact hl
  simp only [Head.linkDown, hs, if_true]

/-- CONFIG starts with the read of TLID. -/
theorem configFrom_first {fuel : Nat} {h : Head} {p : Nat} (he : (h.port p).link.entry = 0) :
    configFrom (fuel + 1) h p = h.sendTl p 0x04 [regWord true 0 0] := by
  simp only [configFrom, he, if_true]

/-- Training that ends, by the lanes that are good. -/
theorem exec_tlTrainDone {s : State} {p : Nat} {rx : BitVec 8} {tx : BitVec 4} (hl : (s.head.port p).link.state = .train) :
    (4 ≤ lanes 8 rx.toNat → 2 ≤ lanes 4 tx.toNat → exec (.tlTrainDone p rx tx) s = .next (s.become (s.head.setTl p { (s.head.port p).link with
      state := .align, rxGood := rx, txGood := tx
      rxw := if 8 ≤ lanes 8 rx.toNat then 8 else 4, txw := if 4 ≤ lanes 4 tx.toNat then 4 else 2 }))) ∧
    ((lanes 8 rx.toNat < 4 ∨ lanes 4 tx.toNat < 2) → exec (.tlTrainDone p rx tx) s =
      .next (s.become (s.head.setTl p { (s.head.port p).link with rxGood := rx, txGood := tx }))) := by
  have he : exec (.tlTrainDone p rx tx) s = execTlTrainDone p rx tx s := rfl
  rw [he, execTlTrainDone, run_eq]
  refine ⟨fun hr ht => ?_, fun h => ?_⟩
  · have hrw : widthOf 8 4 (lanes 8 rx.toNat) = if 8 ≤ lanes 8 rx.toNat then 8 else 4 := by rw [widthOf, if_pos hr]
    have htw : widthOf 4 2 (lanes 4 tx.toNat) = if 4 ≤ lanes 4 tx.toNat then 4 else 2 := by rw [widthOf, if_pos ht]
    have hr0 : ¬ widthOf 8 4 (lanes 8 rx.toNat) = 0 := by rw [hrw]; split <;> decide
    have ht0 : ¬ widthOf 4 2 (lanes 4 tx.toNat) = 0 := by rw [htw]; split <;> decide
    simp only [hl, hr0, ht0, ne_eq, not_true_eq_false, decide_false, Bool.or_self, Bool.false_eq_true, if_false]
    rw [hrw, htw]
  · have hno : (decide (widthOf 8 4 (lanes 8 rx.toNat) = 0) || decide (widthOf 4 2 (lanes 4 tx.toNat) = 0)) = true := by
      obtain h | h := h
      · rw [widthOf, if_neg (by omega), if_neg (by omega)]; rfl
      · rw [widthOf.eq_def 4 2, if_neg (by omega), if_neg (by omega)]; exact Bool.or_true _
    simp only [hl, hno, ne_eq, not_true_eq_false, decide_false, Bool.false_or, if_true]

/-- Settles O50: servo and movement by their rows, the link by its state. -/
theorem tapePorts : Obligations.TapePorts := by
  refine ⟨?_, ?_⟩
  · intro s p x
    refine ⟨fun hr hi => ?_, fun hr => ?_, fun hn hi h0 h1 => ?_, fun hi => ?_, fun low hl => ?_, fun low hl => ?_,
      fun j hs hl hj hw => ?_, fun hs hj hc => ?_, rfl, fun hj hc => datasetStart_noJob rfl hj hc, ?_⟩
    · have he : exec (.tlCtrlTimer p) s = execTlCtrlTimer p s := rfl
      rw [he, execTlCtrlTimer, run_eq, Head.ctrlTick]
      simp only [show (s.head.port p).link.state = .run from hr, show (s.head.port p).state = .idle from hi, ne_eq, not_true_eq_false, if_false,
        decide_true, Bool.true_or, if_true, x]
    · have he : exec (.tlCtrlTimer p) s = execTlCtrlTimer p s := rfl
      rw [he, execTlCtrlTimer, run_eq, Head.ctrlTick, if_pos hr]
      rfl
    · have he : exec (.servoPesUpdate p) s = execServoPesUpdate p s := rfl
      rw [he, execServoPesUpdate, run_eq, pesUpdate_off hn hi h0 h1]
    · have he : exec (.servoPesUpdate p) s = execServoPesUpdate p s := rfl
      rw [he, execServoPesUpdate, run_eq, Head.pesUpdate, if_pos (by rw [decide_eq_true hi, Bool.or_true])]
      rfl
    · have he : exec (.shockInput p low) s = execShockInput p low s := rfl
      have h50 : ¬ low < 50 := by omega
      rw [he, execShockInput, run_eq, Head.shock]
      simp only [hl, h50, decide_false, Bool.and_false, Bool.false_eq_true, if_true, if_false, x]
    · have he : exec (.shockInput p low) s = execShockInput p low s := rfl
      have h50 : ¬ 50 ≤ low := by omega
      have h10 : ¬ 10 ≤ low := by omega
      rw [he, execShockInput, run_eq, Head.shock]
      simp only [hl, h50, h10, decide_false, Bool.false_and, Bool.false_eq_true, if_true, if_false]
      rfl
    · have he : exec (.backhitchDone p) s = execBackhitchDone p s := rfl
      rw [he, execBackhitchDone, run_eq, Head.backhitchDone]
      simp only [show (s.head.port p).state = .backhitch from hs, show (s.head.port p).link.state = .run from hl,
        show (s.head.port p).job = some j from hj, hw, ne_eq, not_true_eq_false, reduceCtorEq, decide_false, Bool.false_and, Bool.or_self,
        Bool.false_eq_true, if_false, if_true, x]
    · have he : exec (.tapePortIdle p) s = execTapePortIdle p s := rfl
      rw [he, execTapePortIdle, run_eq, Head.portIdle]
      dsimp only
      rw [if_pos (by rw [decide_eq_true hs, show (s.head.port p).job = none from hj, decide_eq_true hc]; rfl)]
    · intro h x j d rest hj hc hb hs hw hl ht hm hd
      exact datasetStart_starts rfl hj hc hb hs hw hl ht hm hd
  · intro s p l
    refine ⟨fun hl => ⟨?_, ?_⟩, fun hl => ?_, rfl, fun rx tx hl => ?_, fun rx tx hl => ?_, fun rx tx hl => exec_tlTrainDone hl,
      fun hl => ?_, rfl⟩
    · have he : exec (.tlLinkLoss p) s = execTlLinkLoss p s := rfl
      rw [he, execTlLinkLoss, run_eq, linkDown_off hl]
      rfl
    · have he : exec (.tlStateTimeout p) s = execTlStateTimeout p s := rfl
      rw [he, execTlStateTimeout, run_eq, linkDown_off hl, ite_self]
      rfl
    · have he : exec (.tlStateTimeout p) s = execTlStateTimeout p s := rfl
      rw [he, execTlStateTimeout, run_eq, if_neg hl]
    · have he : exec (.tlLaneBad p rx tx) s = execTlLaneBad p rx tx s := rfl
      rw [he, execTlLaneBad, run_eq, if_pos hl]
    · have he : exec (.tlLaneBad p rx tx) s = execTlLaneBad p rx tx s := rfl
      rw [he, execTlLaneBad, run_eq, if_neg hl]
    · have he : exec (.tlAlignDone p) s = execTlAlignDone p s := rfl
      rw [he, execTlAlignDone, run_eq]
      dsimp only
      rw [if_neg (not_not_intro hl), configFrom_first (by rw [Head.setTl, port_setPort])]

end Sys2Proof.Machine
end

section
/-! PROOFS. Caches and memory, and the register map, checks and accesses. -/

namespace Sys2Proof.Machine

/-! ## Writes that stop -/

/-- A write whose effect is undefined stops there. -/
theorem write_fault (s : State) (c : Caller) (d : RegDef) (i : Nat) (v : Word) (act : Head → WriteResult) (ha : s.head.accepts c d i v = true)
    {e : Fault} (he : act s.head = .error e) : s.write (fun h => h.writeWith c d i v act) = .fault e := by
  simp only [Head.accepts, Option.isNone_iff_eq_none] at ha
  simp only [State.write, State.runE, Head.writeWith, ha, he]

/-! ## Caches and memory -/

/-- A patrol that finds a word past the first one corrects it where it can, and poisons it where it cannot. -/
theorem patrol_past {h : Head} {m addr : Nat} (ha : addr ≠ 0) :
    h.patrol m addr .clean = h ∧
    (m ≠ 0 → h.patrol m addr .corrected = (h.scrubWord m (addr / 8)).eccCorrected m addr) ∧
    h.patrol 4 addr .uncorrectable = (h.putWord 4 (addr / 8) (h.memWord 4 (addr / 8)).1 true).eccNote 4 3 addr := by
  refine ⟨if_neg ha, fun hm => ?_, ?_⟩
  · simp only [Head.patrol, ha, hm, if_false]
  · simp only [Head.patrol, ha, OfNat.ofNat_ne_zero, if_false, or_true, if_true]

/-- The raw accesses of a checker test, by their OP. -/
theorem doEcct_eq {h : Head} {v : Word} (ha : h.cfg .ECCTA 0 47 0 % 8 = 0) :
    (bits v.toNat 63 62 = 1 → h.doEcct v = .ok (h.rawWrite (h.cfg .ECCTA 0 63 60) (h.cfg .ECCTA 0 47 0) (h.stored 0 .ECCTD 0)
      (h.cfg .ECCTC 0 7 0) (decide (h.cfg .ECCTC 0 8 8 = 1)), .ok)) ∧
    (bits v.toNat 63 62 = 2 → h.doEcct v = .ok (((h.store 0 .ECCTD 0 (h.rawRead (h.cfg .ECCTA 0 63 60) (h.cfg .ECCTA 0 47 0)).1).setFld 0
      .ECCTC 0 7 0 (h.rawRead (h.cfg .ECCTA 0 63 60) (h.cfg .ECCTA 0 47 0)).2.1).setFld 0 .ECCTC 0 8 8
      (bnat (h.rawRead (h.cfg .ECCTA 0 63 60) (h.cfg .ECCTA 0 47 0)).2.2), .ok)) := by
  refine ⟨fun ho => ?_, fun ho => ?_⟩
  · simp only [Head.doEcct, ho, ha, one_ne_zero, OfNat.one_ne_ofNat, ne_eq, not_true_eq_false, or_self, if_false, if_true]
  · simp only [Head.doEcct, ho, ha, OfNat.ofNat_ne_zero, OfNat.ofNat_ne_one, ne_eq, not_true_eq_false, or_false, if_false]
    rfl

/-- An L1 enable without the invalidate that it needs is undefined. -/
theorem doEngcfg_undefined {h : Head} {c : Caller} {e : Nat} {v : Word}
    (hu : (decide (bit v.toNat 63 = true ∧ h.cfg .ENGCFG e 63 63 = 0) = true ∧ (h.l1 e).ivi = false) ∨
      (decide (bit v.toNat 62 = true ∧ h.cfg .ENGCFG e 62 62 = 0) = true ∧ (h.l1 e).ivd = false)) :
    h.doEngcfg c e v = .error .cacheEnabledWithoutInvalidate := by
  simp only [decide_eq_true_eq] at hu
  simp only [Head.doEngcfg]
  rw [if_pos]
  obtain ⟨⟨hb, hc⟩, hi⟩ | ⟨⟨hb, hc⟩, hi⟩ := hu
  · rw [hb, decide_eq_true hc, hi]; rfl
  · rw [hb, decide_eq_true hc, hi]; exact Bool.or_true _

/-- An L1 enable with its invalidate takes effect. -/
theorem doEngcfg_defined {h : Head} {c : Caller} {e : Nat} {v : Word}
    (hi : decide (bit v.toNat 63 = true ∧ h.cfg .ENGCFG e 63 63 = 0) = true → (h.l1 e).ivi = true)
    (hd : decide (bit v.toNat 62 = true ∧ h.cfg .ENGCFG e 62 62 = 0) = true → (h.l1 e).ivd = true) :
    h.doEngcfg c e v = .ok ((h.setReg c Reg.ENGCFG.row e (v &&& ~~~(BitVec.ofNat 64 (maskBits 59 58)))).setL1 e { h.l1 e with
      iline := if bit v.toNat 59 then [] else (h.l1 e).iline, lines := if bit v.toNat 58 then [] else (h.l1 e).lines
      scount := if bit v.toNat 58 then 0 else (h.l1 e).scount
      ivi := ((h.l1 e).ivi || bit v.toNat 59) && !(decide (bit v.toNat 63 = false ∧ h.cfg .ENGCFG e 63 63 = 1))
      ivd := ((h.l1 e).ivd || bit v.toNat 58) && !(decide (bit v.toNat 62 = false ∧ h.cfg .ENGCFG e 62 62 = 1)) }, .ok) := by
  have hno : ∀ b (iv : Bool), (decide (bit v.toNat b = true ∧ h.cfg .ENGCFG e b b = 0) = true → iv = true) →
      (bit v.toNat b && decide (h.cfg .ENGCFG e b b = 0) && !iv) = false := by
    intro b iv hb
    cases iv with
    | true => exact Bool.and_false _
    | false =>
      rw [Bool.not_false, Bool.and_true, Bool.eq_false_iff]
      intro hx
      rw [Bool.and_eq_true, decide_eq_true_eq] at hx
      exact absurd (hb (decide_eq_true hx)) Bool.false_ne_true
  have hfall : ∀ b, (!bit v.toNat b && decide (h.cfg .ENGCFG e b b = 1)) = decide (bit v.toNat b = false ∧ h.cfg .ENGCFG e b b = 1) := by
    intro b
    cases bit v.toNat b <;> simp only [Bool.not_true, Bool.not_false, Bool.false_and, Bool.true_and, true_and, false_and, reduceCtorEq, decide_false]
  simp only [Head.doEngcfg, hno 63 _ hi, hno 62 _ hd, hfall, Bool.or_self, Bool.false_eq_true, if_false]

/-- A write of L2CFG, by its ways and its enable. -/
theorem doL2cfg_eq {h : Head} {c : Caller} {k : Nat} {v : Word} :
    (8 < lanes 16 (bits v.toNat 15 0) ∨ bits v.toNat 15 0 &&& bits v.toNat 31 16 ≠ 0 → h.doL2cfg c k v = .ok (h, .invalid)) ∧
    (lanes 16 (bits v.toNat 15 0) ≤ 8 → bits v.toNat 15 0 &&& bits v.toNat 31 16 = 0 →
      (bit v.toNat 63 = true → h.cfg .L2CFG k 63 63 ≠ 1 → (h.l2 k).iv = false → h.doL2cfg c k v = .error .cacheEnabledWithoutInvalidate) ∧
      (bit v.toNat 63 = false ∨ h.cfg .L2CFG k 63 63 = 1 ∨ (h.l2 k).iv = true →
        let off := decide (h.cfg .L2CFG k 63 63 = 1) && !(bit v.toNat 63)
        let g := h.setL2 k { h.l2 k with
          lines := if bit v.toNat 62 then [] else (h.l2 k).lines, iv := ((h.l2 k).iv || bit v.toNat 62) && !off }
        h.doL2cfg c k v = .ok ((((upto 16).filter (fun w => bit (bits v.toNat 31 16) w && !g.wayOff k w)).foldl
          (fun h w => h.wayLost k w) g).setReg c Reg.L2CFG.row k (v &&& ~~~(BitVec.ofNat 64 (maskBits 62 62))), .ok))) := by
  refine ⟨fun hb => ?_, fun hl hd => ⟨fun hon hwas hiv => ?_, fun hok => ?_⟩⟩
  · unfold Head.doL2cfg
    extract_lets n x dis lock on was
    have hbad : (decide (8 < lanes 16 lock) || decide (lock &&& dis ≠ 0)) = true := by
      rw [Bool.or_eq_true, decide_eq_true_eq, decide_eq_true_eq]; exact hb
    rw [if_pos hbad]
    rfl
  · unfold Head.doL2cfg
    extract_lets n x dis lock on was
    have hgood : (decide (8 < lanes 16 lock) || decide (lock &&& dis ≠ 0)) = false := by
      rw [decide_eq_false (Nat.not_lt.mpr hl), decide_eq_false (not_not_intro hd), Bool.or_self]
    have hup : (on && !was && !x.iv) = true := by
      rw [show on = true from hon, show was = false from decide_eq_false hwas, show x.iv = false from hiv]; rfl
    rw [if_neg (ne_true_of_eq_false hgood), if_pos hup]
  · intro off g
    unfold Head.doL2cfg
    extract_lets n x dis lock on was
    have hgood : (decide (8 < lanes 16 lock) || decide (lock &&& dis ≠ 0)) = false := by
      rw [decide_eq_false (Nat.not_lt.mpr hl), decide_eq_false (not_not_intro hd), Bool.or_self]
    have hup : (on && !was && !x.iv) = false := by
      obtain h | h | h := hok
      · rw [show on = false from h, Bool.false_and, Bool.false_and]
      · rw [show was = true from decide_eq_true h, Bool.not_true, Bool.and_false, Bool.false_and]
      · rw [show x.iv = true from h, Bool.not_true, Bool.and_false]
    rw [if_neg (ne_true_of_eq_false hgood), if_neg (ne_true_of_eq_false hup)]

/-- Settles O51: the rows of memory one by one, ENGCFG and L2CFG by what their write does. -/
theorem cachesAndMemory : Obligations.CachesAndMemory := by
  refine ⟨fun s => ⟨fun n line => rfl, fun n line c h hc hp => ?_, fun e h hd => ?_, fun e hd => ?_, fun m addr ha => ?_,
      fun m addr ha hm => ?_, fun addr ha => ?_, fun why mir hw => ?_, ?_, ?_⟩,
    fun s c v => ⟨?_, ?_⟩⟩
  · have he : exec (.writebackAck 1 n line) s = execWritebackAck 1 n line s := rfl
    rw [he, execWritebackAck, run_eq, Head.writeback, if_pos rfl]
    simp only [hc, hp]
  · have he : exec (.wtBufferDrain e) s = execWtBufferDrain e s := rfl
    rw [he, execWtBufferDrain, run_eq, hd]
  · have he : exec (.wtBufferDrain e) s = execWtBufferDrain e s := rfl
    rw [he, execWtBufferDrain, run_eq, hd]
    rfl
  · have he : exec (.patrolScrub m addr .clean) s = execPatrolScrub m addr .clean s := rfl
    rw [he, execPatrolScrub, run_eq, (patrol_past ha).1]
    rfl
  · have he : exec (.patrolScrub m addr .corrected) s = execPatrolScrub m addr .corrected s := rfl
    rw [he, execPatrolScrub, run_eq, (patrol_past ha).2.1 hm]
  · have he : exec (.patrolScrub 4 addr .uncorrectable) s = execPatrolScrub 4 addr .uncorrectable s := rfl
    rw [he, execPatrolScrub, run_eq, (patrol_past (m := 0) ha).2.2]
  · have he : exec (.pstoreUncorrectable why mir) s = execPstoreUncorrectable why mir s := rfl
    rw [he, execPstoreUncorrectable, run_eq, Head.psUncorrectable, if_pos hw]
  · intro mir l h
    have he : exec (.pstoreUncorrectable 0 mir) s = execPstoreUncorrectable 0 mir s := rfl
    rw [he, execPstoreUncorrectable, run_eq, Head.psUncorrectable, if_neg (by decide)]
    exact ⟨fun hl => congrArg (fun k : Head => Host.Outcome.next (s.become k.settle)) (if_neg (Nat.not_lt.mpr hl)),
      fun hl => congrArg (fun k : Head => Host.Outcome.next (s.become k.settle)) (if_pos hl)⟩
  · intro c v ha hal m a x
    have hw : exec (.ecctRawWrite c v) s = execEcctRawWrite c v s := rfl
    have hr : exec (.ecctRawRead c v) s = execEcctRawRead c v s := rfl
    refine ⟨fun ho => ?_, fun ho => ?_⟩
    · rw [hw, execEcctRawWrite, write_wrote s c _ _ v _ ha _ _ ((doEcct_eq hal).1 ho)]
    · rw [hr, execEcctRawRead, write_wrote s c _ _ v _ ha _ _ ((doEcct_eq hal).2 ho)]
  · intro e ha x up down kept
    have hi : exec (.engcfgInvi c e v) s = execEngcfgInvi c e v s := rfl
    have hd : exec (.engcfgInvd c e v) s = execEngcfgInvd c e v s := rfl
    rw [hi, hd, execEngcfgInvi, execEngcfgInvd]
    refine ⟨fun hu => ?_, fun hui hud => ?_⟩
    · rw [write_fault s c _ _ v _ ha (doEngcfg_undefined hu)]
      exact ⟨rfl, rfl⟩
    · rw [write_wrote s c _ _ v _ ha _ _ (doEngcfg_defined hui hud)]
      exact ⟨rfl, rfl⟩
  · intro k ha
    have hi : exec (.l2cfgInv c k v) s = execL2cfgInv c k v s := rfl
    have hl : exec (.l2cfgLockDisWrite c k v) s = execL2cfgLockDisWrite c k v s := rfl
    rw [hi, hl, execL2cfgInv, execL2cfgLockDisWrite]
    refine ⟨fun hb => ?_, fun hn hz => ⟨fun hon hwas hiv => ?_, fun hok => ?_⟩⟩
    · rw [write_wrote s c _ _ v _ ha _ _ (doL2cfg_eq.1 hb)]
      exact ⟨rfl, rfl⟩
    · rw [write_fault s c _ _ v _ ha ((doL2cfg_eq.2 hn hz).1 hon hwas hiv)]
      exact ⟨rfl, rfl⟩
    · rw [write_wrote s c _ _ v _ ha _ _ ((doL2cfg_eq.2 hn hz).2 hok)]
      exact ⟨rfl, rfl⟩

end Sys2Proof.Machine
end

section
/-! PROOFS. The register map: rows as progressions of addresses, kept apart by their residues. -/

namespace Sys2Proof.Machine

/-! ## Rows -/

/-- A row is laid out in words: its base and strides are multiples of 8, and a stride of 0 has one place. -/
def RegDef.laidOut (d : RegDef) : Bool :=
  d.base % 8 = 0 && d.stride % 8 = 0 && d.stride2 % 8 = 0 && decide (0 < d.count) && (d.stride ≠ 0 || d.count = 1)

/-- What the addresses of a row leave modulo `m` lies between these two, where they do not wrap; modulo 0 they are the addresses themselves. -/
def RegDef.span (d : RegDef) (m : Nat) : Nat × Nat :=
  (d.base % m, d.base % m + (if d.stride % m = 0 then 0 else d.stride * (d.count - 1)) +
    (if d.stride2 % m = 0 then 0 else d.stride2 * (d.count2 - 1)))

/-- Two rows leave apart ranges modulo `m`. -/
def RegDef.apartMod (d e : RegDef) (m : Nat) : Bool :=
  (m = 0 || decide ((d.span m).2 < m) && decide ((e.span m).2 < m)) &&
    (decide ((d.span m).2 < (e.span m).1) || decide ((e.span m).2 < (d.span m).1))

/-- Two rows are apart modulo one of their strides, or outright. -/
def RegDef.apart (d e : RegDef) : Bool := [0, d.stride, d.stride2, e.stride, e.stride2].any (d.apartMod e)

/-- The rows of a list are laid out in words, and two of them are apart. -/
def rowsOk (l : List RegDef) : Bool := l.all (fun d => d.laidOut && l.all (fun e => d = e || d.apart e))

theorem regs00_ok : rowsOk regs00 = true := by decide +kernel
theorem regs04_ok : rowsOk regs04 = true := by decide +kernel
theorem regs05_ok : rowsOk regs05 = true := by decide +kernel
theorem regs06_ok : rowsOk regs06 = true := by decide +kernel
theorem regs07_ok : rowsOk regs07 = true := by decide +kernel
theorem regs08_ok : rowsOk regs08 = true := by decide +kernel
theorem regs09_ok : rowsOk regs09 = true := by decide +kernel
theorem regs0A_ok : rowsOk regs0A = true := by decide +kernel
theorem regs0B_ok : rowsOk regs0B = true := by decide +kernel
theorem regs0C_ok : rowsOk regs0C = true := by decide +kernel
theorem regs0D_ok : rowsOk regs0D = true := by decide +kernel

/-- Every part of the map is in order, and past the last there is none. -/
theorem regsAt_ok (top : Nat) : rowsOk (regsAt top) = true ∧ (13 < top → regsAt top = []) := by
  unfold regsAt
  split
  case h_1 => exact ⟨regs00_ok, by omega⟩
  case h_2 => exact ⟨regs04_ok, by omega⟩
  case h_3 => exact ⟨regs05_ok, by omega⟩
  case h_4 => exact ⟨regs06_ok, by omega⟩
  case h_5 => exact ⟨regs07_ok, by omega⟩
  case h_6 => exact ⟨regs08_ok, by omega⟩
  case h_7 => exact ⟨regs09_ok, by omega⟩
  case h_8 => exact ⟨regs0A_ok, by omega⟩
  case h_9 => exact ⟨regs0B_ok, by omega⟩
  case h_10 => exact ⟨regs0C_ok, by omega⟩
  case h_11 => exact ⟨regs0D_ok, by omega⟩
  case h_12 => exact ⟨rfl, fun _ => rfl⟩

theorem laidOut_of_mem {top : Nat} {d : RegDef} (hd : d ∈ regsAt top) : d.laidOut = true :=
  (Bool.and_eq_true_iff.mp (List.all_eq_true.mp (regsAt_ok top).1 d hd)).1

theorem apart_of_mem {top : Nat} {d e : RegDef} (hd : d ∈ regsAt top) (he : e ∈ regsAt top) : d = e ∨ d.apart e = true := by
  have h := List.all_eq_true.mp (Bool.and_eq_true_iff.mp (List.all_eq_true.mp (regsAt_ok top).1 d hd)).2 e he
  rw [Bool.or_eq_true, decide_eq_true_eq] at h
  exact h

/-! ## Addresses of a row -/

/-- An address that names a register of a row is the row's address at that index, of two places within their counts. -/
theorem index_some {d : RegDef} (hd : d.laidOut = true) {a i : Nat} (h : d.index a = some i) :
    ∃ k j, k < d.count ∧ j < d.count2 ∧ i = d.count * j + k ∧ a = d.base + d.stride * k + d.stride2 * j := by
  simp only [RegDef.laidOut, Bool.and_eq_true, Bool.or_eq_true, decide_eq_true_eq, ne_eq] at hd
  obtain ⟨⟨⟨⟨-, -⟩, -⟩, hpos⟩, hone⟩ := hd
  unfold RegDef.index at h
  split at h
  · exact absurd h nofun
  · rename_i hb
    have hsplit : a - d.base = (if d.stride2 = 0 then a - d.base else (a - d.base) % d.stride2) +
        d.stride2 * (if d.stride2 = 0 then 0 else (a - d.base) / d.stride2) := by
      split
      · rw [Nat.mul_zero, Nat.add_zero]
      · exact (Nat.mod_add_div _ _).symm
    dsimp only at h
    generalize (if d.stride2 = 0 then 0 else (a - d.base) / d.stride2) = j at h hsplit
    generalize (if d.stride2 = 0 then a - d.base else (a - d.base) % d.stride2) = o at h hsplit
    split at h
    · rename_i hs
      split at h
      · rename_i hj
        obtain ⟨ho, hj⟩ := hj
        cases h
        have hc : d.count = 1 := hone.resolve_left (not_not_intro hs)
        refine ⟨0, i, hpos, hj, by rw [hc, Nat.one_mul, Nat.add_zero], ?_⟩
        rw [ho] at hsplit
        omega
      · exact absurd h nofun
    · split at h
      · rename_i hk
        obtain ⟨ho, hk, hj⟩ := hk
        cases h
        refine ⟨o / d.stride, j, hk, hj, rfl, ?_⟩
        have := Nat.mod_add_div o d.stride
        omega
      · exact absurd h nofun

/-- What an address of a row leaves modulo `m`. -/
theorem index_mod {d : RegDef} (hd : d.laidOut = true) {a i m : Nat} (h : d.index a = some i) (hm : m = 0 ∨ (d.span m).2 < m) :
    (d.span m).1 ≤ a % m ∧ a % m ≤ (d.span m).2 := by
  obtain ⟨k, j, hk, hj, -, rfl⟩ := index_some hd h
  have hpart : ∀ s n c, n < c → ∃ x, (s * n) ≡ x [MOD m] ∧ x ≤ if s % m = 0 then 0 else s * (c - 1) := by
    intro s n c hn
    by_cases hs : s % m = 0
    · exact ⟨0, (Nat.modEq_zero_iff_dvd.mpr ((Nat.dvd_of_mod_eq_zero hs).mul_right n)), Nat.zero_le _⟩
    · exact ⟨s * n, rfl, by rw [if_neg hs]; exact Nat.mul_le_mul_left s (by omega)⟩
  obtain ⟨x, hx, hxle⟩ := hpart d.stride k d.count hk
  obtain ⟨y, hy, hyle⟩ := hpart d.stride2 j d.count2 hj
  have hmod : (d.base + d.stride * k + d.stride2 * j) % m = (d.base % m + x + y) % m :=
    (((Nat.mod_modEq d.base m).symm.add hx).add hy)
  have hle : d.base % m + x + y ≤ (d.span m).2 := Nat.add_le_add (Nat.add_le_add_left hxle _) hyle
  have hid : (d.base % m + x + y) % m = d.base % m + x + y := by
    obtain rfl | hm := hm
    · exact Nat.mod_zero _
    · exact Nat.mod_eq_of_lt (Nat.lt_of_le_of_lt hle hm)
  rw [hmod, hid]
  exact ⟨(Nat.le_add_right _ _).trans (Nat.le_add_right _ _), hle⟩

/-- An address names no two rows that are apart. -/
theorem index_apart {d e : RegDef} (hd : d.laidOut = true) (he : e.laidOut = true) (h : d.apart e = true) {a i j : Nat}
    (hi : d.index a = some i) (hj : e.index a = some j) : False := by
  obtain ⟨m, -, hm⟩ := List.any_eq_true.mp h
  simp only [RegDef.apartMod, Bool.and_eq_true, Bool.or_eq_true, decide_eq_true_eq] at hm
  obtain ⟨hfit, hsep⟩ := hm
  have hdm := index_mod hd hi (hfit.imp_right And.left)
  have hem := index_mod he hj (hfit.imp_right And.right)
  omega

theorem findReg_some {l : List RegDef} {a i : Nat} {d : RegDef} (h : findReg l a = some (d, i)) : d ∈ l ∧ d.index a = some i := by
  induction l with
  | nil => exact absurd h nofun
  | cons e r ih =>
    unfold findReg at h
    split at h
    · rename_i j hj
      cases h
      exact ⟨List.mem_cons_self, hj⟩
    · exact ⟨List.mem_cons_of_mem _ (ih h).1, (ih h).2⟩

/-- What an address that names a register is. -/
theorem regOf_some {a i : Nat} {d : RegDef} (h : regOf a = some (d, i)) :
    a % 8 = 0 ∧ a < 2 ^ 31 ∧ i < d.count * d.count2 ∧ d.addr i = a := by
  obtain ⟨hmem, hidx⟩ := findReg_some h
  have hlaid := laidOut_of_mem hmem
  obtain ⟨k, j, hk, hj, rfl, ha⟩ := index_some hlaid hidx
  refine ⟨?_, ?_, ?_, ?_⟩
  · simp only [RegDef.laidOut, Bool.and_eq_true, decide_eq_true_eq] at hlaid
    obtain ⟨⟨⟨⟨hb, hs⟩, hs2⟩, -⟩, -⟩ := hlaid
    rw [ha, Nat.add_mod, Nat.add_mod d.base, Nat.mul_mod, Nat.mul_mod d.stride2, hb, hs, hs2]
    simp only [Nat.zero_mul, Nat.zero_mod, Nat.add_zero]
  · by_contra hbig
    have htop : 13 < a >>> 24 := by rw [Nat.shiftRight_eq_div_pow]; omega
    rw [(regsAt_ok _).2 htop] at hmem
    exact absurd hmem List.not_mem_nil
  · calc d.count * j + k < d.count * j + d.count := Nat.add_lt_add_left hk _
      _ = d.count * (j + 1) := (Nat.mul_succ _ _).symm
      _ ≤ d.count * d.count2 := Nat.mul_le_mul_left _ hj
  · have hpos : 0 < d.count := Nat.lt_of_le_of_lt (Nat.zero_le _) hk
    rw [RegDef.addr, Nat.mul_add_mod, Nat.mod_eq_of_lt hk, Nat.mul_add_div hpos, Nat.div_eq_of_lt hk, Nat.add_zero, ha]

/-- Settles O52: rows by `regOf_some` and `index_apart`, unnamed addresses by the accesses themselves. -/
theorem registerMap : Obligations.RegisterMap := by
  refine ⟨fun a d i h => regOf_some h, fun a d e i j hd he hi hj => ?_, fun h c t a v ha => ?_⟩
  · exact (apart_of_mem hd he).resolve_right (fun h => index_apart (laidOut_of_mem hd) (laidOut_of_mem he) h hi hj)
  · unfold Head.readState Head.writeState
    by_cases hbig : 4294967295 < a
    · rw [if_pos hbig, if_pos hbig]
      exact ⟨rfl, rfl⟩
    · have hnone : regOf (a % 2147483648) = none := ha.resolve_left (by omega)
      rw [if_neg hbig, if_neg hbig, hnone]
      exact ⟨rfl, rfl⟩

end Sys2Proof.Machine
end

section
/-! PROOFS. Register writes: the checks in their order, writes whose effect is one register or link, tables. -/

namespace Sys2Proof.Machine

/-! ## Checks -/

/-- The check of whether a register is there for a write (R40). -/
theorem writeGone_eq (h : Head) (c : Caller) (d : RegDef) (i : Nat) :
    (!h.served d i || (decide (d.scope = .S) && (!h.serves c.side || h.moving c.side))) =
      decide (h.served d i = false ∨ (d.scope = .S ∧ (h.serves c.side = false ∨ h.moving c.side = true))) := by
  rw [Bool.eq_iff_iff, decide_eq_true_eq]
  simp only [Bool.or_eq_true, Bool.and_eq_true, Bool.not_eq_true', decide_eq_true_eq]

/-- Settles O53: the checks as the order of `writeCheck`, a refused write by `writeWith_refused`. -/
theorem writeChecks : Obligations.WriteChecks := by
  refine ⟨?_, fun s c v st hst => ?_⟩
  · intro h c d i v old gone low locked wide
    have hcheck : h.writeCheck c d i v =
        if gone then some .invalid else if low then some .tier else if locked then some .invalid
        else if v.toNat &&& d.known ≠ v.toNat then some .invalid else if wide then some .invalid else none := by
      rw [Head.writeCheck, writeGone_eq]
    rw [hcheck]
    refine ⟨fun hg => ?_, fun hg hl => ?_, fun hg hl hx => ?_, fun hg hl hlk hk hw => ?_⟩
    · rw [if_pos hg]
    · rw [if_neg (ne_true_of_eq_false hg), if_pos hl]
    · rw [if_neg (ne_true_of_eq_false hg), if_neg (ne_true_of_eq_false hl)]
      split_ifs with h1 h2 h3
      · rfl
      · rfl
      · rfl
      · exact absurd hx (by simp only [h1, h2, h3, or_self, not_false_eq_true, Bool.false_eq_true])
    · rw [if_neg (ne_true_of_eq_false hg), if_neg (ne_true_of_eq_false hl), if_neg (ne_true_of_eq_false hlk),
        if_neg (not_not_intro hk), if_neg (ne_true_of_eq_false hw)]
  · have he : exec (.hpcfgWrite c v) s = execHpcfgWrite c v s := rfl
    rw [he, execHpcfgWrite, State.write, State.runE, writeWith_refused _ _ _ _ _ _ _ hst]
    rfl

/-! ## Writes of one register or link -/

/-- A write of TLCFG, by its EN and the state of the link. -/
theorem doTlcfg_eq {h k : Head} {c : Caller} {p : Nat} {v : Word} (hk : h.setReg c Reg.TLCFG.row p v = k) :
    (v.getLsbD 63 = false → h.doTlcfg c p v = .ok (k.setTl p { (k.port p).link with enOff := true }, .ok)) ∧
    (v.getLsbD 63 = true → (k.port p).link.state = .fault → (k.port p).link.enOff = true → h.doTlcfg c p v = .ok
      ((k.setTl p { (k.port p).link with state := .down, tries := 0, ready := true, enOff := false }).tryTrain p, .ok)) ∧
    (v.getLsbD 63 = true → ((k.port p).link.state ≠ .fault ∨ (k.port p).link.enOff = false) → h.doTlcfg c p v = .ok
      ((k.setTl p { (k.port p).link with enOff := false }).tryTrain p, .ok)) := by
  refine ⟨fun hv => ?_, fun hv hf ho => ?_, fun hv hn => ?_⟩
  · simp only [Head.doTlcfg, hk, hv, Bool.not_false, if_true]
  · simp only [Head.doTlcfg, hk, hv, hf, ho, decide_true, Bool.and_self, Bool.not_true, Bool.false_eq_true, if_false, if_true]
  · have hno : (decide ((k.port p).link.state = .fault) && (k.port p).link.enOff) = false := by
      obtain h | h := hn
      · rw [decide_eq_false h, Bool.false_and]
      · rw [h, Bool.and_false]
    simp only [Head.doTlcfg, hk, hv, hno, Bool.not_true, Bool.false_eq_true, if_false]

/-- The maker's own write of MKACC, where it would change CLOSED. -/
theorem writeMkacc_maker {h : Head} {c : Caller} {v : Word} (ht : c.tier = .M) (hs : h.served Reg.MKACC.row 0 = true)
    (hb : bit v.toNat 63 ≠ h.makerClosed) : h.writeMkacc c v = .ok (h.auditReg c Reg.MKACC.row 0 .tier true, .tier) :=
  if_pos (by rw [ht, hs, decide_eq_true hb]; rfl)

/-- Any other write of MKACC that passes its checks. -/
theorem writeMkacc_accepts {h : Head} {c : Caller} {v : Word} (ha : h.accepts c Reg.MKACC.row 0 v = true)
    (ht : c.tier ≠ .M ∨ bit v.toNat 63 = h.makerClosed) : h.writeMkacc c v = .ok
      ((if !h.makerClosed && bit v.toNat 63 then (h.setReg c Reg.MKACC.row 0 v).endSessions (fun n => decide (72 ≤ n ∧ n ≤ 73))
        else h.setReg c Reg.MKACC.row 0 v).auditReg c Reg.MKACC.row 0 .ok false, .ok) := by
  have hno : (decide (c.tier = .M) && h.served Reg.MKACC.row 0 && decide (bit v.toNat 63 ≠ h.makerClosed)) = false := by
    obtain h | h := ht
    · rw [decide_eq_false h, Bool.false_and, Bool.false_and]
    · rw [decide_eq_false (not_not_intro h), Bool.and_false]
  rw [Head.writeMkacc, if_neg (ne_true_of_eq_false hno)]
  exact writeWith_accepts h c _ 0 v _ ha _ _ rfl

/-- A register write whose own check answered. -/
theorem write_answered {s : State} {k : Head} {st : Status} {f : Head → WriteResult} (hf : f s.head = .ok (k, st)) :
    s.write f = .next (s.become ((s.head.answered k st).settle)) := by
  simp only [State.write, State.runE, hf]
  rfl

/-! ## Tables -/

/-- A table of a good form is loaded where it fits what is there, and refused where it does not. -/
theorem loadTable_ok {h : Head} {c : Caller} {v : Word} {typ : Nat} {form fits : List Byte → Bool} {b : List Byte}
    (hb : h.table c v typ form = .ok b) :
    (fits b = true → h.loadTable c v typ form fits = .ok ((h.putTable typ b).record' (.table typ b), .ok)) ∧
    (fits b = false → h.loadTable c v typ form fits = .ok (h, .invalid)) := by
  refine ⟨fun hf => ?_, fun hf => ?_⟩
  · simp only [Head.loadTable, hb, hf, if_true]
  · simp only [Head.loadTable, hb, hf, Bool.false_eq_true, if_false]
    rfl

theorem loadTable_error {h : Head} {c : Caller} {v : Word} {typ : Nat} {form fits : List Byte → Bool} {st : Status}
    (hb : h.table c v typ form = .error st) : h.loadTable c v typ form fits = .ok (h, st) := by
  simp only [Head.loadTable, hb]
  rfl

/-- The cost table is loaded where the caps reach every contract's share. -/
theorem doAdmtab_ok {h : Head} {c : Caller} {v : Word} {b : List Byte} (hb : h.table c v 8 costForm = .ok b) :
    (h.capsReach (costOf b) = true → h.doAdmtab c v =
      .ok (({ h with work := { h.work with cost := costOf b } } : Head).record' (.costTab (costOf b)), .ok)) ∧
    (h.capsReach (costOf b) = false → h.doAdmtab c v = .ok (h, .invalid)) := by
  refine ⟨fun hf => ?_, fun hf => ?_⟩
  · simp only [Head.doAdmtab, hb, hf, if_true]
  · simp only [Head.doAdmtab, hb, hf, Bool.false_eq_true, if_false]
    rfl

/-- Settles O54: each row by what its write does where the checks pass. -/
theorem registerWrites : Obligations.RegisterWrites := by
  refine ⟨fun s c v => ⟨fun ha => write_wrote s c _ _ v _ ha _ _ rfl, fun ha => write_wrote s c _ _ v _ ha _ _ rfl,
      fun ha => write_wrote s c _ _ v _ ha _ _ rfl, ?_, fun p ha hl => ?_, ?_⟩, ?_⟩
  · intro p ha h l
    obtain ⟨hoff, hfault, hon⟩ := doTlcfg_eq (c := c) (p := p) (v := v) (k := h) rfl
    exact ⟨fun hv => write_wrote s c _ _ v _ ha _ _ (hoff hv), fun hv hf ho => write_wrote s c _ _ v _ ha _ _ (hfault hv hf ho),
      fun hv hn => write_wrote s c _ _ v _ ha _ _ (hon hv hn)⟩
  · refine write_wrote s c _ _ v (fun h => h.doTlreg p v) ha _ _ ?_
    simp only [Head.doTlreg, hl, if_true]
  · intro ha h
    have he : exec (.mkaccWrite c v) s = execMkaccWrite c v s := rfl
    rw [he, execMkaccWrite]
    refine ⟨fun ht hn => ?_, fun ht hc hb => ?_, fun ht hs hb => write_answered (writeMkacc_maker ht hs hb)⟩
    · refine (write_answered (writeMkacc_accepts ha ht)).trans ?_
      have hno : (!s.head.makerClosed && bit v.toNat 63) = false := by
        obtain h | h := hn
        · rw [h]; rfl
        · rw [h, Bool.and_false]
      rw [if_neg (ne_true_of_eq_false hno)]
      rfl
    · refine (write_answered (writeMkacc_accepts ha (.inl ht))).trans ?_
      rw [if_pos (by rw [hc, hb]; rfl)]
      rfl
  · intro s c v b up
    refine ⟨fun ha hb => ?_, fun ha hb => ?_, fun ha hb => ⟨fun hf => ?_, fun hf => ?_⟩, fun ha hb hf => ?_, fun ha hb => ?_, fun ha hb hf => ?_,
      fun ha hb => ?_, fun ha hb => ⟨fun hf => ?_, fun hf => ?_⟩, fun st ha hb => ?_⟩
    · exact write_wrote s c _ _ v (fun h => h.doTable c .DRGEAR v) ha _ _ ((loadTable_ok hb).1 rfl)
    · exact write_wrote s c _ _ v (fun h => h.doTable c .DRHUF v) ha _ _ ((loadTable_ok hb).1 rfl)
    · exact write_wrote s c _ _ v (fun h => h.doTable c .NFFAM v) ha _ _ ((loadTable_ok hb).1 hf)
    · exact write_wrote s c _ _ v (fun h => h.doTable c .NFFAM v) ha _ _ ((loadTable_ok hb).2 hf)
    · exact write_wrote s c _ _ v (fun h => h.doTable c .NFLDPC v) ha _ _ ((loadTable_ok hb).1 hf)
    · exact write_wrote s c _ _ v (fun h => h.doTapeTable c .TPLAD v) ha _ _ ((loadTable_ok hb).1 rfl)
    · exact write_wrote s c _ _ v (fun h => h.doTapeTable c .TPEQ v) ha _ _ ((loadTable_ok hb).1 (decide_eq_true hf))
    · exact write_wrote s c _ _ v (fun h => h.doTapeTable c .TPLNK v) ha _ _ ((loadTable_ok hb).1 rfl)
    · exact write_wrote s c _ _ v (fun h => h.doAdmtab c v) ha _ _ ((doAdmtab_ok hb).1 hf)
    · exact write_wrote s c _ _ v (fun h => h.doAdmtab c v) ha _ _ ((doAdmtab_ok hb).2 hf)
    · exact write_wrote s c _ _ v (fun h => h.doTable c .DRGEAR v) ha _ _ (loadTable_error hb)

end Sys2Proof.Machine
end

section
/-! PROOFS. STATE.GET and STATE.SET. -/

namespace Sys2Proof.Machine

/-! ## STATE.GET and STATE.SET -/

/-- A read of a side's register that is served. -/
theorem readState_side {h : Head} {c : Caller} {t : Option Nat} {b i : Nat} {d : RegDef} (hb : b ≤ 4294967295)
    (hr : regOf (b % 2147483648) = some (d, i)) (hd : d.scope = .S) (hs : h.served d i = true) :
    h.readState c t b = (h.auditAccess c b .ok, .ok,
      if h.serves (if bit b 31 then 1 - c.side else c.side) then h.view c d i (if bit b 31 then 1 - c.side else c.side)
      else h.view c d i (if bit b 31 then 1 - c.side else c.side) &&& BitVec.ofNat 64 (keepMask d true)) := by
  simp only [Head.readState, Nat.not_lt.mpr hb, hr, hd, hs, ne_eq, not_true_eq_false, decide_false, Bool.and_false, Bool.not_true, Bool.or_self,
    Bool.false_eq_true, if_false]

/-- STATE.GET, by whether its access is in the log, and whether the log has room. -/
theorem stateGet_eq {h : Head} {t : Nat} {w : GWord} {x : Thread} :
    (∀ e, h.loggedAccess x 0x20 = some e → h.stateGet t w x = .act (e.1.accessDone t (some w.rd.toNat) e.2.status e.2.result)) ∧
    (h.loggedAccess x 0x20 = none → h.logWaits x.cmd x.outs = true → h.stateGet t w x = .wait) ∧
    (h.loggedAccess x 0x20 = none → h.logWaits x.cmd x.outs = false →
      let r := (h.logGrown x.cmd x.outs).readState (h.threadCaller x) (some t) (stateAddr x w)
      h.stateGet t w x = .act ((r.1.logAccess x 0x20 r.2.1 r.2.2).accessDone t (some w.rd.toNat) r.2.1 r.2.2)) := by
  refine ⟨fun e hl => ?_, fun hl hw => ?_, fun hl hw => ?_⟩
  · simp only [Head.stateGet, hl]
  · simp only [Head.stateGet, hl, hw, if_true]
  · simp only [Head.stateGet, hl, hw, Bool.false_eq_true, if_false]

/-- STATE.SET of an access that is not in the log, by the log's room and by what the write comes to. -/
theorem stateSet_eq {h : Head} {t : Nat} {w : GWord} {x : Thread} {g : Head} (hl : h.loggedAccess x 0x21 = none)
    (hg : h.logGrown x.cmd x.outs = g) :
    (h.logWaits x.cmd x.outs = true → h.stateSet t w x = .ok .wait) ∧
    (h.logWaits x.cmd x.outs = false → g.setForbidden x (stateAddr x w) = true →
      h.stateSet t w x = .ok (.act ((g.logAccess x 0x21 .invalid 0).accessDone t none .invalid 0))) ∧
    (∀ k st, h.logWaits x.cmd x.outs = false → g.setForbidden x (stateAddr x w) = false →
      g.writeState (g.threadCaller x) (some t) (stateAddr x w) (x.reg w.rb.toNat) = .ok (k, st) → k.runs (islandOf t) = true →
      (st = .ok → g.deletion (g.threadCaller x) (stateAddr x w) (x.reg w.rb.toNat) = none) →
      h.stateSet t w x = .ok (.act (if k.landed (g.sentSince k) then (k.logAccess x 0x21 st 0).accessDone t none st 0
        else k.awaitWrite t x .nothing (g.sentSince k)))) := by
  refine ⟨fun hw => ?_, fun hw hf => ?_, fun k st hw hf hk hr hd => ?_⟩
  · simp only [Head.stateSet, hl, hw, if_true]
  · simp only [Head.stateSet, hl, hw, hg, hf, Bool.false_eq_true, if_false, if_true]
  · have hnone : (if st = .ok then g.deletion (g.threadCaller x) (stateAddr x w) (x.reg w.rb.toNat) else none) = none := by
      split
      case isTrue h => exact hd h
      case isFalse => rfl
    simp only [Head.stateSet, hl, hw, hg, hf, hk, hr, hnone, Bool.not_true, Bool.false_eq_true, if_false]
    split <;> rfl

/-- An instruction that may stop in a fault, where it takes effect and answers. -/
theorem runE_issueE_takesEffect {s : State} {t : Nat} {c : Common} {legal : Bool} {low : Tier} {uses : List Nat} {i : Iss}
    (body : Head → Thread → Except Fault Iss) (hr : s.head.takesEffect t c legal low uses = true)
    (hb : body (s.head.fetched t) (s.head.thread t) = .ok i) :
    s.runE (fun h => h.issueE t c legal low uses body) = .next (s.issued t c i) := by
  rw [State.runE, issueE_takesEffect _ _ _ _ _ _ body hr i hb]
  rfl

/-- Settles O55: the two instructions by `stateGet_eq` and `stateSet_eq`, reads by the register that the address names. -/
theorem registerAccess : Obligations.RegisterAccess := by
  intro s t w h x a g
  have hget : exec (.stateGet t w) s = execStateGet t w s := rfl
  have hset : exec (.stateSet t w) s = execStateSet t w s := rfl
  refine ⟨fun hr => ?_, fun hr hl => ?_, fun c b => ⟨fun hb => ?_, fun d i hb hr hd hs => readState_side hb hr hd hs⟩⟩
  · rw [hget, execStateGet, run_issue_takesEffect s _ hr]
    obtain ⟨hlogged, hwait, hact⟩ := stateGet_eq (h := h) (t := t) (w := w) (x := x)
    refine ⟨fun hl hw => ?_, fun hl hw => ?_, fun e hl => ?_⟩
    · rw [hwait hl hw]
    · rw [hact hl hw]
    · rw [hlogged e hl]
  · obtain ⟨hwait, hforb, hdone⟩ := stateSet_eq (t := t) (w := w) (g := g) hl rfl
    rw [hset, execStateSet]
    refine ⟨fun hw => runE_issueE_takesEffect _ hr (hwait hw), fun hw hf => runE_issueE_takesEffect _ hr (hforb hw hf),
      fun k st hw hf hk hrun hd => ?_⟩
    rw [runE_issueE_takesEffect _ hr (hdone k st hw hf hk hrun hd)]
    exact ⟨fun hland => by rw [if_pos hland], fun hland => by rw [if_neg (ne_true_of_eq_false hland)]⟩
  · rw [Head.readState, if_pos hb]

end Sys2Proof.Machine
end

section
/-! PROOFS. Keys: the key table, imported keys, digest contexts, the health window. -/

namespace Sys2Proof.Machine

/-! ## The key table -/

/-- A write of KEYENR that passes the checks of R40, with its record at hand. -/
theorem exec_keyenr {s : State} {c : Caller} {v : Word} {b : List Byte} (ha : s.head.accepts c Reg.KEYENR.row 0 v = true)
    (hb : s.head.tabref c v 64 = some b) :
    (s.head.keyCheck c.tier b = none → s.write (fun h => h.doKeyenr c v) = .next (s.wrote (s.head.applyKey b c.slot) c Reg.KEYENR.row 0 .ok)) ∧
    (∀ st, s.head.keyCheck c.tier b = some st → keyRefused c.tier b = false →
      s.write (fun h => h.doKeyenr c v) = .next (s.wrote s.head c Reg.KEYENR.row 0 st)) := by
  simp only [Head.accepts, Option.isNone_iff_eq_none] at ha
  refine ⟨fun hk => write_answered ?_, fun st hk hr => (write_answered (k := s.head.auditReg c Reg.KEYENR.row 0 st false) ?_).trans rfl⟩
  · simp only [Head.doKeyenr, ha, hb, hk]
  · simp only [Head.doKeyenr, ha, hb, hk, hr, Bool.and_false]

/-- The last installer key is not removed. -/
theorem keyCheck_lastInstaller {h : Head} {b : List Byte} (h64 : 64 ≤ dword b 0 55 48) (h71 : dword b 0 55 48 ≤ 71) (ho : dword b 0 63 56 = 2)
    (h47 : dword b 0 47 0 = 0) (h1 : dword b 1 63 0 = 0) (h6 : dword b 6 63 0 = 0) (h7 : dword b 7 63 0 = 0)
    (hkey : ((b.drop 16).take 32).all (fun x => x = 0) = true) (hlive : h.liveKeys 64 71 ≤ 1) : h.keyCheck .I b = some .invalid := by
  have hslot : ¬ dword b 0 55 48 < 64 := Nat.not_lt.mpr h64
  have hslot' : dword b 0 55 48 < 72 := by omega
  have h73 : dword b 0 55 48 ≤ 73 := by omega
  have hzero : ((b.drop 16).take 32).any (fun x => x ≠ 0) = false := by
    rw [List.any_eq_false]
    intro x hx hne
    exact of_decide_eq_true hne (of_decide_eq_true (List.all_eq_true.mp hkey x hx))
  have hI : Tier.I.le .I = true := rfl
  simp only [Head.keyCheck, Head.mayKey, ho, h47, h1, h6, h7, hI, h64, h73, hslot, hslot', hzero, hlive, decide_true, decide_false, ne_eq,
    not_true_eq_false, OfNat.ofNat_ne_one, Bool.or_true, Bool.true_or, Bool.or_self, Bool.and_self, Bool.and_false, Bool.not_true, and_self,
    Bool.false_eq_true, if_false, if_true]

/-! ## Imported keys -/

/-- A write by no maker is a plain one. -/
theorem writeInstaller_plain {h : Head} {c : Caller} {d : RegDef} {i : Nat} {v : Word} (act : Head → WriteResult) (ht : c.tier ≠ .M) :
    h.writeInstaller c d i v act = h.writeWith c d i v act :=
  if_neg (by rw [decide_eq_false ht]; exact Bool.false_ne_true)

/-- An import that opens and whose form holds, by its kind. -/
theorem doKeyimp_eq {h : Head} {c : Caller} {v : Word} {b p : List Byte} (hb : h.tabref c v 208 = some b) (hp : h.importOpen c.conn b = some p)
    (h0 : dword b 0 63 32 = 0) (h1 : dword b 1 63 0 = 0) (h60 : leNat ((b.drop 60).take 4) = 0) :
    (dword b 0 7 0 = 1 → dword b 0 31 24 = 64 → h.doKeyimp c v = h.importPool (dword b 0 15 8) (p.take 64)) ∧
    (dword b 0 7 0 = 2 → 1 ≤ dword b 0 31 24 → dword b 0 31 24 ≤ 128 → dword b 0 15 8 ≤ 15 → dword b 0 23 16 ≤ 3 →
      h.doKeyimp c v = .ok (h.setHkey (dword b 0 15 8) (some ⟨dword b 0 31 24, dword b 0 23 16, p.take (dword b 0 31 24)⟩), .ok)) ∧
    (dword b 0 7 0 = 3 → dword b 0 31 24 = 0 → dword b 0 15 8 ≤ 15 → h.doKeyimp c v = .ok (h.setHkey (dword b 0 15 8) none, .ok)) := by
  refine ⟨fun hk hl => ?_, fun hk hl hl' ht hu => ?_, fun hk hl ht => ?_⟩
  · simp only [Head.doKeyimp, hb, hp, h0, h1, h60, hk, hl, ne_eq, not_true_eq_false, decide_false, Bool.or_self, Bool.false_eq_true, if_false,
      if_true]
  · have hlen : ¬ dword b 0 31 24 = 0 := by omega
    simp only [Head.doKeyimp, hb, hp, h0, h1, h60, hk, hlen, Nat.not_lt.mpr hl', Nat.not_lt.mpr ht, Nat.not_lt.mpr hu, ne_eq, not_true_eq_false,
      OfNat.ofNat_ne_one, decide_false, Bool.or_self, Bool.false_eq_true, if_false, if_true]
  · simp only [Head.doKeyimp, hb, hp, h0, h1, h60, hk, hl, Nat.not_lt.mpr ht, ne_eq, not_true_eq_false, OfNat.ofNat_ne_one, decide_false,
      Bool.or_self, Bool.false_eq_true, if_false, if_true, Nat.reduceEqDiff]

/-! ## Digest contexts -/

/-- A digest context as a write of DGCTX starts it. -/
def Head.dgStarted (h : Head) (c : Caller) (i : Nat) (v : Word) (st : List Byte) : Head :=
  h.setDgctx i { h.dgctx i with st := st, alg := bits v.toNat 61 60, kslot := bits v.toNat 59 56, owner := c.slot, bytes := 0 }

/-- A write of DGCTX that starts a hash, or an HMAC under a key of the caller's. -/
theorem doDgctx_eq {h : Head} {c : Caller} {i : Nat} {v : Word} (ha : bits v.toNat 61 60 ≤ 1) (ho : h.dgOwned i c.slot = false) :
    (bits v.toNat 63 62 = 1 → h.doDgctx c i v = .ok (h.dgStarted c i v (hashInit (bits v.toNat 61 60)), .ok)) ∧
    (∀ k, look none h.keys.hkeys (bits v.toNat 59 56) = some k → k.use ≤ c.tier.num → k.len ≤ blockOf (bits v.toNat 61 60) →
      (bits v.toNat 63 62 = 2 → h.doDgctx c i v = .ok (h.dgStarted c i v (hmacInit (bits v.toNat 61 60) 0x36 k.key), .ok)) ∧
      (bits v.toNat 63 62 = 3 → h.doDgctx c i v = .ok (h.dgStarted c i v (hmacInit (bits v.toNat 61 60) 0x5C k.key), .ok))) := by
  refine ⟨fun hop => ?_, fun k hk hu hl => ⟨fun hop => ?_, fun hop => ?_⟩⟩
  · simp only [Head.doDgctx, hop, ho, Nat.not_lt.mpr ha, one_ne_zero, Bool.false_eq_true, if_false, if_true]
    rfl
  · simp only [Head.doDgctx, hop, ho, hk, Nat.not_lt.mpr ha, Nat.not_lt.mpr hu, Nat.not_lt.mpr hl, OfNat.ofNat_ne_zero, OfNat.ofNat_ne_one,
      Bool.false_eq_true, if_false, if_true]
    rfl
  · simp only [Head.doDgctx, hop, ho, hk, Nat.not_lt.mpr ha, Nat.not_lt.mpr hu, Nat.not_lt.mpr hl, OfNat.ofNat_ne_zero, OfNat.ofNat_ne_one,
      Bool.false_eq_true, if_false]
    rfl

/-- Settles O56, part by part. -/
theorem keys : Obligations.Keys := by
  refine ⟨fun s c v b ha hb => ⟨fun hk ho => ?_, fun hk ho => ?_, fun st hk hr => ?_, ?_⟩, fun s c v => ⟨?_, ?_, fun hc hl hs hp => ?_, fun h => ?_⟩⟩
  · refine ((exec_keyenr ha hb).1 hk).trans ?_
    rw [Head.applyKey, if_pos ho]
  · refine ((exec_keyenr ha hb).1 hk).trans ?_
    rw [Head.applyKey, if_neg (by rw [ho]; decide)]
  · exact ⟨(exec_keyenr ha hb).2 st hk hr, (exec_keyenr ha hb).2 st hk hr⟩
  · intro n h64 h71 ho hn h47 h1 h6 h7 hkey hlive
    exact keyCheck_lastInstaller (hn ▸ h64) (hn ▸ h71) ho h47 h1 h6 h7 hkey hlive
  · intro b p ha ht hb hp f h0 h1 h60
    have hpool : exec (.keyimpPoolKey c v) s = execKeyimpPoolKey c v s := rfl
    have hhmac : exec (.keyimpHmacKey c v) s = execKeyimpHmacKey c v s := rfl
    have herase : exec (.keyimpErase c v) s = execKeyimpErase c v s := rfl
    obtain ⟨dpool, dhmac, derase⟩ := doKeyimp_eq hb hp h0 h1 h60
    rw [hpool, hhmac, herase, execKeyimpPoolKey, execKeyimpHmacKey, execKeyimpErase]
    simp only [writeInstaller_plain _ ht]
    exact ⟨fun k st hk hl him => write_wrote s c _ _ v _ ha _ _ ((dpool hk hl).trans him),
      fun hk hl hl' htg hu => write_wrote s c _ _ v _ ha _ _ (dhmac hk hl hl' htg hu),
      fun hk hl htg => write_wrote s c _ _ v _ ha _ _ (derase hk hl htg)⟩
  · intro i ha halg hown alg ks new
    obtain ⟨dhash, dhmac⟩ := doDgctx_eq halg hown
    exact ⟨fun hop => write_wrote s c _ _ v _ ha _ _ (dhash hop), fun k hk hu hl =>
      ⟨fun hop => write_wrote s c _ _ v _ ha _ _ ((dhmac k hk hu hl).1 hop), fun hop => write_wrote s c _ _ v _ ha _ _ ((dhmac k hk hu hl).2 hop)⟩⟩
  · have he : exec .hwinExpire s = execHwinExpire s := rfl
    rw [he, execHwinExpire, run_eq]
    dsimp only
    rw [if_neg (by rw [hc, hs, decide_eq_false hl, decide_eq_false hp]; exact Bool.false_ne_true)]
  · have he : exec .hwinExpire s = execHwinExpire s := rfl
    rw [he, execHwinExpire, run_eq]
    dsimp only
    rw [if_pos]
    · rfl
    · obtain h | h | h | h := h <;> simp only [h, decide_true, Bool.true_or, Bool.or_true]

end Sys2Proof.Machine
end

section
/-! PROOFS. The SMBus port. What a transfer comes to, and with it the statement SmbCommands as far as it can be decided: its clause on an IMAGE_END
whose image passes leaves out the settings kept in both formats (`twoFmt`), and whether any image passes at all is left open by the model, whose
Ed25519 and AES-GCM are free functions. So the statement holds where no signature verifies and fails where every check of the two passes: neither it
nor its negation follows from the model. -/

namespace Sys2Proof.Machine

/-! ## A transfer -/

/-- No acknowledge while MI is in reset (R491). -/
theorem smbus_of_rest {s : State} (pec : Bool) (after : Head → Head) (f : Head → SmbResult) (hr : s.head.runs 0 = false) :
    s.smbus pec after f = .next (s.become (s.head.emit .smbNak).settle) := by
  simp only [State.smbus, State.runE, Head.smbus, hr, Bool.not_false, if_true, State.become]

/-- A write part whose PEC fails is discarded (R491). -/
theorem smbus_of_badPec {s : State} (after : Head → Head) (f : Head → SmbResult) (hr : s.head.runs 0 = true) :
    s.smbus false after f = .next (s.become (s.head.readPart .checkFail []).settle) := by
  simp only [State.smbus, State.runE, Head.smbus, hr, Bool.not_true, Bool.not_false, Bool.false_eq_true, if_false, if_true, State.become]

/-- A command whose status is OK has its read part given before what it begins. -/
theorem smbus_of_ok {s : State} {after : Head → Head} {f : Head → SmbResult} {k : Head} {b : List Byte} (hr : s.head.runs 0 = true)
    (hf : f s.head = .ok (k, .ok, b)) : s.smbus true after f = .next (s.become (after (k.readPart .ok b)).settle) := by
  simp only [State.smbus, State.runE, Head.smbus, hr, hf, Bool.not_true, Bool.false_eq_true, if_false, if_true, State.become]

/-- A command with any other status begins nothing. -/
theorem smbus_of_ne_ok {s : State} {after : Head → Head} {f : Head → SmbResult} {k : Head} {st : Status} {b : List Byte}
    (hr : s.head.runs 0 = true) (hf : f s.head = .ok (k, st, b)) (hst : st ≠ .ok) :
    s.smbus true after f = .next (s.become (k.readPart st b).settle) := by
  simp only [State.smbus, State.runE, Head.smbus, hr, hf, hst, Bool.not_true, Bool.false_eq_true, if_false, State.become]

/-- A command that begins nothing comes to its read part. -/
theorem smbus_id {s : State} {f : Head → SmbResult} {k : Head} {st : Status} {b : List Byte} (hr : s.head.runs 0 = true)
    (hf : f s.head = .ok (k, st, b)) : s.smbus true id f = .next (s.become (k.readPart st b).settle) := by
  by_cases hst : st = .ok
  · subst hst
    exact smbus_of_ok hr hf
  · exact smbus_of_ne_ok hr hf hst

/-! ## The commands -/

/-- SMB_STATE_GET with a session, or of a register that needs none. -/
theorem exec_smbStateGet {s : State} {a : Nat} (hr : s.head.runs 0 = true) (ht : s.head.trimLocked = false)
    (ha : s.head.smbSlot.isSome = true ∨ openRead a = true) :
    let r := s.head.readState s.head.smbCaller none a
    exec (.smbStateGet true a) s = .next (s.become (r.1.readPart r.2.1 (leBytes 8 r.2.2.toNat)).settle) := by
  refine smbus_id hr (if_neg ?_)
  rcases ha with hs | ho
  · rw [ht, Option.isNone_eq_false_iff.mpr hs]
    exact Bool.false_ne_true
  · rw [ht, ho, Bool.not_true, Bool.and_false]
    exact Bool.false_ne_true


/-! ## Where no signature verifies -/

/-- An image that passes has a signature that verifies. -/
theorem imageCheck_ne_none (hv : ∀ k m g, Config.edVerify k m g = false) (h : Head) (b : List Byte) (len : Nat) : h.imageCheck b len ≠ none := by
  have hs : h.imageSigned b = false := by rw [Head.imageSigned, hv, Bool.and_false]
  rw [Head.imageCheck, hs]
  split <;> exact Option.some_ne_none _

/-- SmbCommands, every clause but the one on an image that passes; that one is vacuous here. -/
theorem smbCommands_of_edVerify_false (hv : ∀ k m g, Config.edVerify k m g = false) : Obligations.SmbCommands := by
  refine ⟨fun s => ⟨fun hr pec n => ⟨smbus_of_rest _ _ _ hr, smbus_of_rest _ _ _ hr⟩, fun hr n v => ⟨smbus_of_badPec _ _ hr, smbus_of_badPec _ _ hr⟩,
      fun hr => ⟨fun pay k st b => ⟨fun h => smbus_id hr h, fun h => smbus_id hr h⟩, fun a => exec_smbStateGet hr, fun a hs ho => smbus_id hr ?_,
        fun a v k st hs ht hw => smbus_id hr ?_, fun seq part e ht hp he => smbus_id hr ?_, fun ht hi hm => smbus_id hr ?_⟩,
      rfl, fun ha => ?_, fun ha => ?_⟩,
    fun s hr => ⟨fun scope n ht hi hc => smbus_of_ok hr ?_, fun scope n hi => smbus_of_ne_ok hr ?_ nofun,
      fun hm => ⟨fun off b h1 h240 hl => smbus_id hr ?_, fun len => ⟨fun st hc hst => smbus_of_ne_ok hr ?_ hst, fun hc => absurd hc (imageCheck_ne_none hv _ _ _)⟩⟩,
      fun b ht hn hc => smbus_id hr ?_, fun hm => ⟨smbus_of_ok hr ?_, smbus_of_ok hr ?_, fun n tms tdi hb h1 hn hs hd => smbus_id hr ?_⟩,
      fun hm => smbus_of_ne_ok hr ?_ nofun⟩⟩
  · simp only [hs, ho, Option.isNone_none, Bool.not_false, Bool.and_self, Bool.or_true, if_true]
  · simp only [ht, hw, Option.isNone_eq_false_iff.mpr hs, Bool.false_and, Bool.or_self, Bool.false_eq_true, if_false]
  · simp only [ht, he, Nat.not_lt.mpr hp, Bool.false_eq_true, if_false]
  · simp only [ht, hi, hm, Bool.not_true, Bool.or_self, Bool.false_eq_true, if_false]
  · have he : exec .smbAlertResponse s = execSmbAlertResponse s := rfl
    simp only [he, execSmbAlertResponse, State.run, State.become, ha, Bool.not_true, Bool.false_eq_true, if_false]
  · have he : exec .smbAlertResponse s = execSmbAlertResponse s := rfl
    simp only [he, execSmbAlertResponse, State.run, State.become, ha, Bool.not_false, if_true]
  · simp only [ht, hi, hc, Bool.not_true, Bool.or_self, Bool.false_eq_true, if_false]
  · simp only [hi, Bool.not_false, Bool.or_true, if_true]
  · have he : b.isEmpty = false := List.isEmpty_eq_false_iff.mpr (List.ne_nil_of_length_pos h1)
    cases hx : s.head.keys.fw.slot s.head.keys.fw.other with
    | none =>
      simp only [hx, hm, he, Nat.not_lt.mpr h240, Nat.not_lt.mpr hl, decide_false, Bool.not_true, Bool.or_self, Bool.false_eq_true, if_false]
    | some x =>
      simp only [hx, hm, he, Nat.not_lt.mpr h240, Nat.not_lt.mpr hl, decide_false, Bool.not_true, Bool.or_self, Bool.false_eq_true, if_false]
  · cases hx : s.head.keys.fw.slot s.head.keys.fw.other with
    | none =>
      simp only [hx] at hc
      simp only [hx, hc, hm, Bool.not_true, Bool.false_eq_true, if_false]
    | some x =>
      simp only [hx] at hc
      simp only [hx, hc, hm, Bool.not_true, Bool.false_eq_true, if_false]
  · simp only [ht, hn, hc, Bool.not_true, Bool.or_self, Bool.false_eq_true, if_false]
  · exact if_neg (by rw [hm]; exact Bool.false_ne_true)
  · exact if_neg (by rw [hm]; exact Bool.false_ne_true)
  · have h0 : n ≠ 0 := Nat.one_le_iff_ne_zero.mp h1
    simp only [hm, hb, h0, Nat.not_lt.mpr hn, hs, hd, ne_eq, not_true_eq_false, decide_false, Bool.not_true, Bool.or_self, Bool.false_eq_true,
      if_false]
  · exact if_pos (by rw [hm]; rfl)

/-! ## Where every signature verifies and every tag holds -/

/-- An image of a header and a signature alone, as Table 14-9 has it. -/
def bareImage : List Byte := [0, 0, 0, 0, 0, 0x10, 0x60, 0x7C] ++ List.replicate 184 0

/-- A head that runs, with the settings kept in both formats, slot A in force but empty, and the bare image written to slot B. -/
def twoFormats : Head :=
  { Head.blank with
    sys := { Sys.blank with islands := List.replicate 22 { Island.blank with st := .running } }
    keys := { Head.blank.keys with
      fw := { Head.blank.keys.fw with inForce := some 0, b := some ⟨0, 0, 0, 0, bareImage, false, false⟩, twoFmt := true } } }

/-- The bare image passes the checks of IMAGE_END. -/
theorem imageCheck_bareImage (hv : ∀ k m g, Config.edVerify k m g = true) (ha : ∀ k n c, (Config.aeadOpen k n c).isSome = true) :
    twoFormats.imageCheck bareImage 192 = none := by
  have hform : imageFormOk bareImage 192 = true := by decide +kernel
  have hfuse : twoFormats.keys.fw.revoked.getLsbD (dword bareImage 0 43 40) = false := by decide +kernel
  have hfloor : ¬ dword bareImage 1 31 0 < twoFormats.keys.fw.floor := by decide +kernel
  have hsig : twoFormats.imageSigned bareImage = true := by simp only [Head.imageSigned, hfuse, hv, Bool.not_false, Bool.and_self]
  have htag : imageOpens bareImage = true := ha _ _ _
  simp only [Head.imageCheck, hform, hsig, htag, hfloor, Bool.not_true, Bool.false_eq_true, if_false]

/-- The firmware state that an IMAGE_END leaves in `twoFormats`: slot B in force and confirmed, as slot A holds nothing to fall back on. -/
def twoFormatsFw (two : Bool) : Fw :=
  { twoFormats.keys.fw.setSlot 1 (some (slotOf bareImage true)) with inForce := some 1, conf := true, hleft := 0, twoFmt := two }

/-- The head that an IMAGE_END leaves, by what it makes of the settings kept in both formats. -/
def twoFormatsEnded (two : Bool) : Head := (((twoFormats.setFw (twoFormatsFw two)).makerAudit 8 .ok).readPart .ok []).pulseReset .watchdog

/-- Right after the reset nothing settles, and the settings are kept as the IMAGE_END left them. -/
theorem settle_twoFormatsEnded (two : Bool) : (twoFormatsEnded two).settle.keys.fw.twoFmt = two := by
  have hrest : (twoFormatsEnded two).working = false := by cases two <;> decide +kernel
  rw [Head.settle, hrest]
  cases two <;> decide +kernel

/-- The IMAGE_END of the bare image keeps the settings in the new format alone. -/
theorem exec_smbImageEnd_twoFormats (hc : twoFormats.imageCheck bareImage 192 = none) :
    exec (.smbImageEnd true 192) ⟨[], twoFormats⟩ = .next ⟨[], (twoFormatsEnded false).settle⟩ := by
  have hr : twoFormats.runs 0 = true := by decide +kernel
  have hm : twoFormats.mayImage = true := by decide +kernel
  have hx : twoFormats.keys.fw.slot twoFormats.keys.fw.other = some ⟨0, 0, 0, 0, bareImage, false, false⟩ := rfl
  have hx' : twoFormats.keys.fw.slot (1 - twoFormats.keys.fw.other) = none := rfl
  have hb : fit 0 (min 192 33554432) bareImage = bareImage := by decide +kernel
  refine smbus_of_ok hr (k := (twoFormats.setFw (twoFormatsFw false)).makerAudit 8 .ok) ?_
  simp only [hm, hx, hx', hb, hc, Bool.not_true, Bool.false_eq_true, if_false, Option.any_none, Bool.not_false]
  exact rfl

/-- SmbCommands has the IMAGE_END leave the settings in both formats, where the command puts them in one. -/
theorem not_smbCommands_of_edVerify_aeadOpen (hv : ∀ k m g, Config.edVerify k m g = true) (ha : ∀ k n c, (Config.aeadOpen k n c).isSome = true) :
    ¬ Obligations.SmbCommands := by
  intro h
  have hc := imageCheck_bareImage hv ha
  obtain ⟨-, -, himage, -⟩ := h.2 ⟨[], twoFormats⟩ (by decide +kernel)
  have hclaim : exec (.smbImageEnd true 192) ⟨[], twoFormats⟩ = .next ⟨[], (twoFormatsEnded true).settle⟩ :=
    ((himage (by decide +kernel)).2 192).2 hc
  have heq := (exec_smbImageEnd_twoFormats hc).symm.trans hclaim
  have hfmt := congrArg (fun o : Host.Outcome State Fault Refusal => match o with | .next t => t.head.keys.fw.twoFmt | _ => false) heq
  exact Bool.false_ne_true ((settle_twoFormatsEnded false).symm.trans (hfmt.trans (settle_twoFormatsEnded true)))

end Sys2Proof.Machine
end
